-- ==== Sys2Proof/Word.lean ====
section
/-!
DEFINITION. The widths of the part's data: a register is a word of 32 bits, little-endian, and memory is a row of
bytes (R9, spec/00_scope.md). Counts, indices and times are natural numbers; a signed value read from a field of
`w` bits is an integer, by `Sys2Proof.sint`.
-/
namespace Sys2Proof

/-- A register word (R9). -/
abbrev Word := BitVec 32

/-- A byte of memory. -/
abbrev Byte := BitVec 8

/-- `v` taken modulo `2 ^ w`. -/
def trunc (w v : Nat) : Nat := v % 2 ^ w

/-- The signed reading, in two's complement, of the low `w` bits of `v`. -/
def sint (w v : Nat) : Int :=
  if v % 2 ^ w < 2 ^ (w - 1) then Int.ofNat (v % 2 ^ w) else Int.ofNat (v % 2 ^ w) - Int.ofNat (2 ^ w)

/-- The two's complement bits, `w` of them, of an integer. -/
def unsint (w : Nat) (v : Int) : Nat := (v % (Int.ofNat (2 ^ w))).toNat

end Sys2Proof
end

