-- ==== Sys2Proof/Syntax.lean ====
section
/-!
DEFINITION. The commands of the part, one constructor of `Instr` for each row of spec/opcode_table.json, with the operands
a command carries: who sends it, which lane, port, channel or line it concerns, and what the world outside the part brings
with it (a measured value, a frame's bytes, a found fault). The rows of the logic image's instruction set carry the lane
that executes them and the instruction's fields as R138 names them (spec/05_logic_instruction_set.md). In the `bytes` of a host write
through BAR2 an entry of 256 is a byte whose enable is 0.
-/
namespace Sys2Proof

/-- Who makes a register or memory access: the host over PCI Express or the management core (R29). -/
inductive Agent where
  | host | mgmt
deriving DecidableEq, Repr

/-- The fields of a format R word (R138, R140). `long` is the long immediate of the extension words (F = 0b11). -/
structure OpR where
  t : Nat
  d : Fin 8
  a : Fin 8
  f : Nat
  b : Nat
  long : Nat
deriving DecidableEq, Repr

/-- The fields of a format M word (R138, R141). -/
structure OpM where
  t : Nat
  d : Fin 8
  a : Fin 8
  x : Bool
  index : Nat
deriving DecidableEq, Repr

/-- The fields of a format K word (R138). `reserved` is bit 17. -/
structure OpK where
  t : Nat
  d : Fin 8
  a : Fin 8
  reserved : Bool
  ref : Nat
deriving DecidableEq, Repr

/-- The fields of a format J word (R138). `reserved` is bit 18. -/
structure OpJ where
  cond : Nat
  reg : Fin 8
  reserved : Bool
  target : Nat
deriving DecidableEq, Repr

/-- A format Z word's bits [25:0], which must be 0 (R138). -/
structure OpZ where
  bits : Nat
deriving DecidableEq, Repr

/-- A Hitil input frame or fragment as it reaches the exchange (R274 to R281, R288): its bus (0 to 7 the segments, 8 NET2), the
address it came from, its header, its words and its tag. On CAN `cycle` holds 16 bits, `len` is W in bytes and `ver` is 1. -/
structure HitilInput where
  bus : Nat
  source : Nat
  ver : Nat
  station : Nat
  flags : Nat
  len : Nat
  cycle : Nat
  fragment : Nat
  words : List Nat
  tag : Nat
deriving DecidableEq, Repr

/-- A join request as it reaches the exchange (R275, R289); `payload` is its 16 bytes. -/
structure JoinInput where
  bus : Nat
  source : Nat
  ver : Nat
  station : Nat
  flags : Nat
  len : Nat
  cycle : Nat
  payload : List Nat
  tag : Nat
deriving DecidableEq, Repr

/-- A frame on a CAN bus, with whether its arbitration part and its data phase decode at the rates tried (R305, R306), and the fabric clocks
from its start-of-frame bit, at the command, to its end. -/
structure CanInput where
  id : Nat
  ide : Bool
  rtr : Bool
  dlc : Nat
  fdf : Bool
  brs : Bool
  esi : Bool
  data : List Nat
  arbOk : Bool
  dataOk : Bool
  clocks : Nat
deriving DecidableEq, Repr

/-- Which rule of ISO 11898-1 counts a protocol error (R301): that of an error in a frame; that of a dominant bit after an error flag, a bit
error in a flag or eight more dominant bits; or the exception for a transmitter's stuff error during arbitration. -/
inductive CanErrorRule where
  | frame
  | flag
  | exempt
deriving DecidableEq, Repr

/-- A protocol error on a CAN bus: its kind as CAN_ERR.LEC codes it, and the rule that counts it (R301). -/
structure CanError where
  kind : Nat
  rule : CanErrorRule
deriving DecidableEq, Repr

/-- A frame received by a port: its bytes from the destination address to the frame check sequence, and the fabric clocks from its
start-of-frame delimiter, at the command, to its end (R320). -/
structure EthInput where
  bytes : List Nat
  clocks : Nat
deriving DecidableEq, Repr

/-- What a start or a wake finds of the clocks (R374, R375): the counts of the crystal check, one for each attempt, and the PLLs, in the order of
CLK_GATE.PLLEN, that do not lock, with their second try. -/
structure ClockFindings where
  counts : List Nat
  slowPlls : List Nat
  deadPlls : List Nat
deriving DecidableEq, Repr

/-- What a start finds (R448, R449): the clocks, whether the DRAM trains and works, the pages and spare pages of it that fail the self-test (R362) and the
lane rows that fail theirs as numbers 8192 × lane + row (R368), and the cells and controllers that fail their self-tests (R257, R308). -/
structure StartFindings where
  clocks : ClockFindings
  dramOk : Bool
  badPages : List Nat
  badSpares : List Nat
  badRows : List Nat
  failedCells : List Nat
  failedCan : List Nat
deriving DecidableEq, Repr


/-- The commands of the part: one constructor for each row of spec/opcode_table.json. -/
inductive Instr where
  /-- REGISTER_WRITE (R11). -/
  | registerWrite (who : Agent) (addr size data : Nat)
  /-- RC_REGISTER_READ (R11). -/
  | rcRegisterRead (who : Agent) (addr size : Nat)
  /-- HOST_BLOCKED_ACCESS (R31). -/
  | hostBlockedAccess (write : Bool) (addr data : Nat)
  /-- UNMAPPED_ACCESS (R27). -/
  | unmappedAccess (who : Agent) (write : Bool) (addr data : Nat)
  /-- LANE_WINDOW_ACCESS (R30). -/
  | laneWindowAccess (write : Bool) (lane : Fin 4) (offset size data : Nat)
  /-- PCI_DWB_WRITE (R33). -/
  | pciDwbWrite (who : Agent) (data : Nat)
  /-- HOST_DRAM_WINDOW_ACCESS (R33). -/
  | hostDramWindowAccess (write : Bool) (offset : Nat) (len : Nat) (bytes : List Nat)
  /-- PORTAL_READ (R432). -/
  | portalRead (portal : Fin 16) (offset size : Nat)
  /-- PORTAL_WRITE (R433). -/
  | portalWrite (portal : Fin 16) (offset size data : Nat)
  /-- ZERO_CROSSING (R45). -/
  | zeroCrossing (clocks : Nat) (rising : Bool) (interval rms : Nat)
  /-- CROSSING_MISSING (R510). -/
  | crossingMissing
  /-- CORRECTION_END (R53). -/
  | correctionEnd
  /-- ANG_RUN_SET (R41). -/
  | angRunSet
  /-- ANG_RUN_CLEAR (R49). -/
  | angRunClear
  /-- HOFS_SET (R52). -/
  | hofsSet
  /-- HOFS_CLEAR (R49). -/
  | hofsClear
  /-- REFCH_WRITE (R52). -/
  | refchWrite (channel : Nat)
  /-- ANG_SNAP (R63). -/
  | angSnap
  /-- ANG_TIMEL_READ (R41). -/
  | angTimelRead (who : Agent)
  /-- LOCK_WAIT_EXPIRED (R62). -/
  | lockWaitExpired
  /-- CYCLE_START (R58). -/
  | cycleStart
  /-- COLLECTOR_CLOSE (R21). -/
  | collectorClose
  /-- COMPUTE (R111). -/
  | compute (lane : Fin 4)
  /-- LLP_DONE (R66). -/
  | llpDone (lane : Fin 4)
  /-- VOTE (R74). -/
  | vote
  /-- EMIT_START (R98). -/
  | emitStart
  /-- CONTROL_PLANE_RESTART (R455). -/
  | controlPlaneRestart (temperature : Int)
  /-- LANE_RESET_END (R84). -/
  | laneResetEnd (lane : Fin 4)
  /-- RELOAD_COMPLETE (R86). -/
  | reloadComplete (lane : Fin 4)
  /-- COPY_ROUND_END (R88). -/
  | copyRoundEnd (lane : Fin 4)
  /-- FINAL_ROUND_END (R89). -/
  | finalRoundEnd (lane : Fin 4)
  /-- LANE_REMOVE_CMD (R82). -/
  | laneRemoveCmd (lane : Fin 4)
  /-- LANE_REJOIN_CMD (R84). -/
  | laneRejoinCmd (lane : Fin 4)
  /-- VOT_VCYCL_READ (R74). -/
  | votVcyclRead (who : Agent)
  /-- RETENTIVE_SAVE (R118). -/
  | retentiveSave (lane : Fin 4) (complete : Bool)
  /-- REFUSED_ENTRY_REPORT (R123). -/
  | refusedEntryReport
  /-- CHANGE_SUBMIT (R122). -/
  | changeSubmit (who : Agent)
  /-- CYC_FLT_READ (R129). -/
  | cycFltRead (who : Agent)
  /-- LDV (R149). -/
  | ldv (lane : Fin 4) (o : OpM)
  /-- STV (R149). -/
  | stv (lane : Fin 4) (o : OpM)
  /-- LDP (R159). -/
  | ldp (lane : Fin 4) (o : OpM)
  /-- MOV (R149). -/
  | mov (lane : Fin 4) (o : OpR)
  /-- LDX (R165). -/
  | ldx (lane : Fin 4) (o : OpR)
  /-- CVT (R148). -/
  | cvt (lane : Fin 4) (o : OpR)
  /-- NOP (R149). -/
  | nop (lane : Fin 4) (o : OpZ)
  /-- ADD (R150). -/
  | add (lane : Fin 4) (o : OpR)
  /-- SUB (R150). -/
  | sub (lane : Fin 4) (o : OpR)
  /-- MUL (R150). -/
  | mul (lane : Fin 4) (o : OpR)
  /-- DIV (R146). -/
  | div (lane : Fin 4) (o : OpR)
  /-- MOD (R144). -/
  | mod (lane : Fin 4) (o : OpR)
  /-- NEG (R150). -/
  | neg (lane : Fin 4) (o : OpR)
  /-- ABS (R150). -/
  | abs (lane : Fin 4) (o : OpR)
  /-- MIN (R150). -/
  | min (lane : Fin 4) (o : OpR)
  /-- MAX (R150). -/
  | max (lane : Fin 4) (o : OpR)
  /-- CLMP (R150). -/
  | clmp (lane : Fin 4) (o : OpR)
  /-- SQRT (R150). -/
  | sqrt (lane : Fin 4) (o : OpR)
  /-- CMP (R142). -/
  | cmp (lane : Fin 4) (o : OpR)
  /-- AND (R151). -/
  | and (lane : Fin 4) (o : OpR)
  /-- OR (R151). -/
  | or (lane : Fin 4) (o : OpR)
  /-- XOR (R151). -/
  | xor (lane : Fin 4) (o : OpR)
  /-- NOT (R151). -/
  | not (lane : Fin 4) (o : OpR)
  /-- LNOT (R151). -/
  | lnot (lane : Fin 4) (o : OpR)
  /-- SHL (R151). -/
  | shl (lane : Fin 4) (o : OpR)
  /-- SHR (R151). -/
  | shr (lane : Fin 4) (o : OpR)
  /-- SAR (R151). -/
  | sar (lane : Fin 4) (o : OpR)
  /-- ROL (R151). -/
  | rol (lane : Fin 4) (o : OpR)
  /-- BTST (R151). -/
  | btst (lane : Fin 4) (o : OpR)
  /-- BSET (R151). -/
  | bset (lane : Fin 4) (o : OpR)
  /-- BCLR (R151). -/
  | bclr (lane : Fin 4) (o : OpR)
  /-- SET (R152). -/
  | set (lane : Fin 4) (o : OpJ)
  /-- BR (R152). -/
  | br (lane : Fin 4) (o : OpJ)
  /-- BRT (R152). -/
  | brt (lane : Fin 4) (o : OpJ)
  /-- BRF (R152). -/
  | brf (lane : Fin 4) (o : OpJ)
  /-- CALL (R152). -/
  | call (lane : Fin 4) (o : OpJ)
  /-- RET (R152). -/
  | ret (lane : Fin 4) (o : OpZ)
  /-- END (R152). -/
  | endTask (lane : Fin 4) (o : OpZ)
  /-- TMR (R156). -/
  | tmr (lane : Fin 4) (o : OpK)
  /-- TET (R153). -/
  | tet (lane : Fin 4) (o : OpK)
  /-- TRST (R153). -/
  | trst (lane : Fin 4) (o : OpK)
  /-- CTU (R157). -/
  | ctu (lane : Fin 4) (o : OpK)
  /-- CTD (R157). -/
  | ctd (lane : Fin 4) (o : OpK)
  /-- CRST (R153). -/
  | crst (lane : Fin 4) (o : OpK)
  /-- CLD (R153). -/
  | cld (lane : Fin 4) (o : OpK)
  /-- CCV (R153). -/
  | ccv (lane : Fin 4) (o : OpK)
  /-- REDG (R158). -/
  | redg (lane : Fin 4) (o : OpK)
  /-- FEDG (R158). -/
  | fedg (lane : Fin 4) (o : OpK)
  /-- QLD (R159). -/
  | qld (lane : Fin 4) (o : OpM)
  /-- QOK (R154). -/
  | qok (lane : Fin 4) (o : OpM)
  /-- LPRD (R160). -/
  | lprd (lane : Fin 4) (o : OpK)
  /-- LPWR (R160). -/
  | lpwr (lane : Fin 4) (o : OpK)
  /-- STP (R159). -/
  | stp (lane : Fin 4) (o : OpM)
  /-- SWA (R161). -/
  | swa (lane : Fin 4) (o : OpK)
  /-- DLQ (R162). -/
  | dlq (lane : Fin 4) (o : OpK)
  /-- CAL (R164). -/
  | cal (lane : Fin 4) (o : OpR)
  /-- ILLEGAL_INSTRUCTION (R139). -/
  | illegalInstruction (lane : Fin 4)
  /-- LOOP_EVENT_REPORT (R194). -/
  | loopEventReport
  /-- LOOP_TRDAT_READ (R193). -/
  | loopTrdatRead (who : Agent)
  /-- SAMPLE_BLOCK (R197). -/
  | sampleBlock (codes : List (List Nat))
  /-- BLOCK_JOB (R200). -/
  | blockJob (lane : Fin 4)
  /-- METER_EVENT_REPORT (R226). -/
  | meterEventReport
  /-- MET_TRIM_WRITE (R203). -/
  | metTrimWrite (k : Nat) (trim : Nat)
  /-- APPLY_COMMAND (R204). -/
  | applyCommand (temperature : Int)
  /-- TEMPERATURE_BAND_CHECK (R205). -/
  | temperatureBandCheck (temperature : Int)
  /-- FRONT_END_FAILED (R228). -/
  | frontEndFailed
  /-- FRONT_END_RESET (R228). -/
  | frontEndReset (success : Bool) (temperature : Int)
  /-- ENERGY_SAVE (R230). -/
  | energySave (complete : Bool)
  /-- FLUSH_JOB (R233). -/
  | flushJob (lane : Fin 4)
  /-- METERING_IMAGE_SWITCH (R229). -/
  | meteringImageSwitch (lane : Fin 4)
  /-- CHANNEL_SAMPLE (R247). -/
  | channelSample (conversions : List (Nat × List Nat))
  /-- OUTPUT_APPLY (R248). -/
  | outputApply (angle : Nat)
  /-- PIN_EDGE (R249). -/
  | pinEdge (uc : Nat) (level : Bool) (clocks : Nat)
  /-- STUCK_TIMEOUT (R249). -/
  | stuckTimeout (uc : Nat)
  /-- TIMED_SWITCH (R250). -/
  | timedSwitch (uc : Nat)
  /-- DALI_FRAME_SEND (R254). -/
  | daliFrameSend (line : Fin 16)
  /-- DALI_RETRY (R254). -/
  | daliRetry (line : Fin 16)
  /-- DALI_ANSWER_WINDOW_CLOSE (R255). -/
  | daliAnswerWindowClose (line : Fin 16)
  /-- DALI_BACKWARD_FRAME (R255). -/
  | daliBackwardFrame (line : Fin 16) (data : Nat) (bad : Bool)
  /-- DALI_LINE_FAILED (R256). -/
  | daliLineFailed (line : Fin 16)
  /-- DALI_LINE_RESTORED (R256). -/
  | daliLineRestored (line : Fin 16)
  /-- FABRIC_SCRUB_WORD (R259). -/
  | fabricScrubWord (corrected uncorrectable : Bool)
  /-- CELL_FAILED (R260). -/
  | cellFailed (cell : Nat) (cause : Nat)
  /-- SPARE_CELL_IN (R260). -/
  | spareCellIn (uc : Nat)
  /-- FABRIC_FAILED (R262). -/
  | fabricFailed
  /-- BANK_SUPPLY_LOST (R263). -/
  | bankSupplyLost (bank : Fin 6) (millivolts : Nat)
  /-- BANK_SUPPLY_RESTORED (R263). -/
  | bankSupplyRestored (bank : Fin 6) (millivolts : Nat)
  /-- HITIL_INPUT_FRAME (R288). -/
  | hitilInputFrame (frame : HitilInput)
  /-- JOIN_REQUEST (R289). -/
  | joinRequest (frame : JoinInput)
  /-- ADMIT (R289). -/
  | admitStation (station : Nat)
  /-- HIT_RUN_SET (R284). -/
  | hitRunSet
  /-- CAN_FRAME_RECEIVED (R297). -/
  | canFrameReceived (k : Fin 9) (frame : CanInput)
  /-- CAN_BUS_ERROR (R301). -/
  | canBusError (k : Fin 9) (found : CanError) (dataPhase transmitting : Bool)
  /-- CAN_TX_COMPLETE (R298). -/
  | canTxComplete (k : Fin 9) (sent : Bool)
  /-- CAN_ABORT (R299). -/
  | canAbort (who : Agent) (k : Fin 9) (q0 q1 : Bool)
  /-- RECOVER (R302). -/
  | recover (who : Agent) (k : Fin 9)
  /-- BUS_OFF_HOLD_EXPIRED (R302). -/
  | busOffHoldExpired (k : Fin 9)
  /-- BUS_OFF_RECOVERED (R302). -/
  | busOffRecovered (k : Fin 9)
  /-- CAN_MODE_WRITE (R304). -/
  | canModeWrite (who : Agent) (k : Fin 9) (mode : Nat)
  /-- CAN_MODE_APPLY (R304). -/
  | canModeApply (k : Fin 9)
  /-- DETECT_TIMEOUT (R307). -/
  | detectTimeout (k : Fin 9)
  /-- CAN_CONTROLLER_FAILED (R308). -/
  | canControllerFailed (k : Fin 9) (cause : Nat)
  /-- CAN_SPARE_IN (R309). -/
  | canSpareIn
  /-- FORCED_SUBSTITUTION (R310). -/
  | forcedSubstitution (seg : Fin 8)
  /-- LINK_UP (R316). -/
  | linkUp (port : Fin 3) (ability : Nat)
  /-- LINK_DOWN (R317). -/
  | linkDown (port : Fin 3)
  /-- NOMATCH (R316). -/
  | nomatch (port : Fin 3)
  /-- AUTONEG_RESTART (R316). -/
  | autonegRestart (port : Fin 3)
  /-- RENEG (R316). -/
  | reneg (who : Agent) (port : Fin 3)
  /-- TXRST (R325). -/
  | txrst (who : Agent) (port : Fin 3)
  /-- RXRST (R325). -/
  | rxrst (who : Agent) (port : Fin 3)
  /-- NET_FRAME_RECEIVED (R320). -/
  | netFrameReceived (port : Fin 3) (frame : EthInput) (error overflow : Bool) (fill : Nat)
  /-- PAUSE_EXPIRED (R326). -/
  | pauseExpired (port : Fin 3)
  /-- PAUSE_REPEAT (R327). -/
  | pauseRepeat (port : Fin 3)
  /-- PAUSE_XON (R327). -/
  | pauseXon (port : Fin 3) (fill : Nat)
  /-- NET_TRANSMIT (R325). -/
  | netTransmit (port : Fin 3)
  /-- NET_TX_COMPLETE (R325). -/
  | netTxComplete (port : Fin 3)
  /-- NET_RING_ENABLE (R322). -/
  | netRingEnable (who : Agent) (port : Fin 3) (data : Nat)
  /-- MDIO_READ (R315). -/
  | mdioRead (who : Agent) (port : Fin 3) (reg : Nat)
  /-- DMA_GO (R333). -/
  | dmaGo (who : Agent) (c : Fin 16)
  /-- DMA_ABORT (R334). -/
  | dmaAbort (who : Agent) (c : Fin 16)
  /-- DMA_DESCRIPTOR_DONE (R333). -/
  | dmaDescriptorDone (c : Fin 16)
  /-- DMA_CHLK_WRITE (R336). -/
  | dmaChlkWrite (c : Fin 16) (data : Nat)
  /-- BINDING_VOID (R337). -/
  | bindingVoid (c : Fin 16)
  /-- CAN_RING_ENABLE (R338). -/
  | canRingEnable (who : Agent) (k : Fin 8) (r : Fin 3) (data : Nat)
  /-- CAN_RING_DRAIN (R339). -/
  | canRingDrain (k : Fin 8)
  /-- CAN_RING_FEED (R339). -/
  | canRingFeed (k : Fin 8) (r : Fin 2)
  /-- ARBITRATION (R342). -/
  | arbitration (present : List Nat)
  /-- REQUEST_OVERDUE (R342). -/
  | requestOverdue (r : Fin 32)
  /-- ARB_RCFG_WRITE (R344). -/
  | arbRcfgWrite (r : Fin 32) (data : Nat)
  /-- SEMAPHORE_ACQUIRE (R346). -/
  | semaphoreAcquire (who : Agent) (sem : Fin 64)
  /-- REL (R347). -/
  | rel (who : Agent) (sem : Fin 64)
  /-- CLRORPH (R348). -/
  | clrorph (who : Agent) (sem : Fin 64)
  /-- SCRUB_WORD (R369). -/
  | scrubWord (mem : Nat) (addr : Nat) (bad : List Nat)
  /-- PAGE_RETIRED (R359). -/
  | pageRetired (page : Nat) (bad : List Nat)
  /-- ROW_REPAIR_DONE (R363). -/
  | rowRepairDone (lane : Fin 4) (row : Nat) (bad : Bool)
  /-- SECTOR_REPLACED (R367). -/
  | sectorReplaced (sector : Nat) (bad : List Nat)
  /-- WEAR_COUNT_SAVE (R367). -/
  | wearCountSave
  /-- FORCED_REPAIR (R358). -/
  | forcedRepair (data : Nat)
  /-- FREQ_METER_GO (R377). -/
  | freqMeterGo (sel gate : Nat)
  /-- FREQ_MEASUREMENT_DONE (R377). -/
  | freqMeasurementDone (count : Nat)
  /-- CLK_GATE_WRITE (R376). -/
  | clkGateWrite (data : Nat)
  /-- MUX_SWITCH_REQUEST (R373). -/
  | muxSwitchRequest (data : Nat)
  /-- MUX_SWITCH_COMPLETE (R373). -/
  | muxSwitchComplete (mux : Fin 3)
  /-- CLOCK_MISSING (R378). -/
  | clockMissing (clock : Fin 7)
  /-- CLOCK_WATCHDOG_EXPIRED (R379). -/
  | clockWatchdogExpired
  /-- XTAL_RECHECK (R378). -/
  | xtalRecheck (passes : Bool)
  /-- PLL_RETRY (R378). -/
  | pllRetry (locks : Bool)
  /-- OP_REQUEST (R381). -/
  | opRequest (op : Fin 4)
  /-- OP_CHANGE (R382). -/
  | opChange
  /-- OP_CHANGE_DONE (R381). -/
  | opChangeDone
  /-- POWER_ON_RELEASE (R383). -/
  | powerOnRelease
  /-- POWER_FAIL_WARNING (R383). -/
  | powerFailWarning
  /-- POWER_FAIL_CLEAR (R383). -/
  | powerFailClear
  /-- BROWN_OUT (R383). -/
  | brownOut
  /-- RAIL_POWER_GOOD_LOST (R384). -/
  | railPowerGoodLost (rail : Fin 8)
  /-- RAIL_POWER_GOOD_RESTORED (R384). -/
  | railPowerGoodRestored (rail : Fin 8)
  /-- MRST (R385). -/
  | mrst
  /-- DOMAIN_RESET_CMD (R386). -/
  | domainResetCmd (dom : Fin 16)
  /-- DOMAIN_RESET_RELEASE (R386). -/
  | domainResetRelease (dom : Fin 16)
  /-- PCI_RESET (R386). -/
  | pciReset (cause : Fin 3)
  /-- PERST (R498). -/
  | perst (rising : Bool)
  /-- STANDBY_REQUEST (R389). -/
  | standbyRequest (who : Agent)
  /-- WAKE (R391). -/
  | wake (source : Fin 4) (ticks : Nat) (found : ClockFindings)
  /-- COLD_START (R448). -/
  | coldStart (found : StartFindings)
  /-- SUPPLY_SWITCH (R395). -/
  | supplySwitch (cell : Bool)
  /-- RETENTION_TRIP (R396). -/
  | retentionTrip
  /-- CELL_MEASUREMENT (R397). -/
  | cellMeasurement (millivolts : Nat)
  /-- RTC_WRAP (R401). -/
  | rtcWrap
  /-- RTC_TIMES_READ (R404). -/
  | rtcTimesRead (who : Agent)
  /-- CELLAR_WRITE_EFFECT (R405). -/
  | cellarWriteEffect
  /-- RTC_SET (R406). -/
  | rtcSet (who : Agent)
  /-- SHIFT (R406). -/
  | shift (who : Agent)
  /-- SHIFT_APPLY (R406). -/
  | shiftApply
  /-- ALMARM (R408). -/
  | almarm (who : Agent)
  /-- ALMOFF (R408). -/
  | almoff (who : Agent)
  /-- ALARM_FIRE (R409). -/
  | alarmFire
  /-- PERON (R411). -/
  | peron (who : Agent)
  /-- PEROFF (R411). -/
  | peroff (who : Agent)
  /-- PERIODIC_EVENT (R411). -/
  | periodicEvent
  /-- RTC_TEMP_MEASURE (R407). -/
  | rtcTempMeasure (temperature : Int)
  /-- FUSE_BURN (R416). -/
  | fuseBurn (word : Nat) (bits : Nat)
  /-- FUSE_BURN_DONE (R416). -/
  | fuseBurnDone (readBack : Nat)
  /-- DERIVE (R425). -/
  | derive (slot parent kind : Nat)
  /-- ERASE (R425). -/
  | erase (slot : Nat)
  /-- GCMENC (R425). -/
  | gcmenc (slot : Nat)
  /-- GCMDEC (R425). -/
  | gcmdec (slot : Nat)
  /-- HMAC (R425). -/
  | hmac (slot : Nat)
  /-- SHA256 (R425). -/
  | sha256
  /-- SIGN (R425). -/
  | sign
  /-- VERIFY (R425). -/
  | verify
  /-- ECDH (R425). -/
  | ecdh (slot kind : Nat)
  /-- RANDOM (R425). -/
  | random (healthy : Bool)
  /-- HITLOAD (R425). -/
  | hitload (slot : Nat)
  /-- KEY_OPERATION_DONE (R426). -/
  | keyOperationDone
  /-- TAMPER (R428). -/
  | tamper (source : Fin 6)
  /-- OWNER (R423). -/
  | owner (who : Agent)
  /-- TICKET (R430). -/
  | ticket (who : Agent)
  /-- UNBIND (R430). -/
  | unbind (who : Agent)
  /-- BINDING_EXPIRY (R430). -/
  | bindingExpiry (kind : Nat) (index : Nat)
  /-- ATTEST (R436). -/
  | attest (who : Agent)
  /-- LCK_RANGE_WRITE (R434). -/
  | lckRangeWrite (k : Fin 64) (second : Bool) (data : Nat)
  /-- OPEN (R446). -/
  | mbxOpen (who : Agent)
  /-- WRITE (R446). -/
  | mbxWrite (who : Agent)
  /-- COMMIT (R443). -/
  | mbxCommit (who : Agent)
  /-- ACTIVATE (R450). -/
  | mbxActivate (who : Agent) (temperature : Int)
  /-- ABORT (R446). -/
  | mbxAbort (who : Agent)
  /-- PART (R458). -/
  | mbxPart (who : Agent)
  /-- RESET (R446). -/
  | mbxReset (who : Agent)
  /-- PERPART_WRITE (R458). -/
  | perpartWrite (who : Agent) (data : Nat)
  /-- SESSION_IDLE_TIMEOUT (R447). -/
  | sessionIdleTimeout
  /-- HOST_WAIT_TIMEOUT (R447). -/
  | hostWaitTimeout
  /-- ACTIVATION_LOAD (R451). -/
  | activationLoad
  /-- ACTIVATION_CUTOVER (R451). -/
  | activationCutover
  /-- LARDER_COPY (R454). -/
  | larderCopy
  /-- LARDER_COPY_DONE (R454). -/
  | larderCopyDone
  /-- WATCHDOG_KICK (R462). -/
  | watchdogKick (key : Nat)
  /-- MANAGEMENT_WATCHDOG_EXPIRED (R462). -/
  | managementWatchdogExpired
  /-- SENSOR_SAMPLE (R463). -/
  | sensorSample (values : List Int)
  /-- ACKFAULT (R465). -/
  | ackfault (who : Agent)
  /-- TEMPAPPLY (R465). -/
  | tempapply (who : Agent) (temperature : Int)
  /-- FLUSH (R465). -/
  | flush (who : Agent)
  /-- EVENT_ACCEPT (R472). -/
  | eventAccept (together : Nat)
  /-- HOLD_TIMEOUT (R469). -/
  | holdTimeout
  /-- RING_FLUSH (R474). -/
  | ringFlush
  /-- FLUSH_INTERVAL (R474). -/
  | flushInterval
  /-- RING_FLUSH_DONE (R474). -/
  | ringFlushDone
  /-- LOG_SCAN_DONE (R477). -/
  | logScanDone
  /-- CURSOR_FETCH (R478). -/
  | cursorFetch (who : Agent) (c : Fin 8)
  /-- LOG_CLEAR (R480). -/
  | logClear (who : Agent) (c : Fin 8) (upTo : Nat)
  /-- LOG_CLEAR_DONE (R480). -/
  | logClearDone
  /-- GLOBAL_RELOAD_DONE (R259). -/
  | globalReloadDone (success : Bool)
  /-- CAN_TRANSMIT_ATTEMPT (R298). -/
  | canTransmitAttempt (k : Fin 9)
  /-- LINK_PARTNER_DETECTED (R316). -/
  | linkPartnerDetected (port : Fin 3)
  /-- MDIO_READ_DONE (R315). -/
  | mdioReadDone (port : Fin 3) (value : Nat)
  /-- DMA_COMPLETION_TIMEOUT (R331). -/
  | dmaCompletionTimeout (c : Fin 16)
  /-- PLL_LOCK (R373). -/
  | pllLock (pll : Fin 5) (locks : Bool)
  /-- MAILBOX_COMMAND_DONE (R445). -/
  | mailboxCommandDone
  /-- HOST_COMMAND_DONE (R465). -/
  | hostCommandDone
  /-- VMAIN_RISES_ABOVE_4V5 (R492). -/
  | vmainRises
  /-- VMAIN_FALLS_BELOW_4V5 (R492). -/
  | vmainFalls
  /-- RTC_DAY_CHANGE (R403). -/
  | rtcDayChange
  /-- DALI_FORWARD_FRAME_END (R254). -/
  | daliForwardFrameEnd (line : Fin 16)
  /-- DALI_COLLISION (R254). -/
  | daliCollision (line : Fin 16)
  /-- PWM_PERIOD_BOUNDARY (R248). -/
  | pwmPeriodBoundary (uc : Nat)
  /-- LEVEL_ACCEPTED (R249). -/
  | levelAccepted (uc : Nat)
  /-- PCIE_LINK_UP (R498). -/
  | pcieLinkUp
  /-- TAMPER_CONDITION_CLEARED (R427). -/
  | tamperConditionCleared (source : Fin 6)
deriving DecidableEq, Repr

end Sys2Proof
end

