-- ==== Sys2Proof/Decode.lean ====
section
/-!
DEFINITION. The command that a word spells by the bits of spec/opcode_table.json. The part takes commands, not words: no row of the table
gives its command any bits, so no word spells one. (The words of the logic image, which the lanes execute themselves, are read in
Machine/Operands.lean and Machine/Isa.lean.)
-/
namespace Sys2Proof

/-- No row of the table gives bits. -/
def decodeTableWord (_nbits _w : Nat) : Option Instr := none

end Sys2Proof
end

