-- ==== Sys2Proof/Machine/Codes.lean ====
section
/-!
DEFINITION. The severities of the event and condition codes (R13, spec/00_scope.md), from the code tables of the chapters:
0 note, 1 warning, 2 fault, 3 critical.
-/
namespace Sys2Proof.Machine

/-- Codes of severity 1, part 0. -/
def warnings0 : List Nat := [0x0110, 0x0111, 0x0112, 0x0113, 0x0202, 0x0203, 0x0207, 0x0301, 0x0305, 0x0309, 0x030A, 0x030C, 0x0402, 0x0404, 0x0405, 0x0406, 0x0408, 0x0504, 0x0505, 0x0506, 0x0507, 0x0602, 0x0604, 0x0701, 0x0702, 0x0704, 0x0705, 0x0706, 0x0707, 0x0708, 0x0709, 0x070A, 0x070B, 0x070C, 0x070E, 0x0714, 0x0801, 0x0802, 0x0803, 0x0804]

/-- Codes of severity 1, part 1. -/
def warnings1 : List Nat := [0x0805, 0x0807, 0x0809, 0x080A, 0x080C, 0x080D, 0x080E, 0x0814, 0x0815, 0x0816, 0x0817, 0x0819, 0x0902, 0x0904, 0x0905, 0x0906, 0x0907, 0x0A01, 0x0A02, 0x0A03, 0x0A04, 0x0B01, 0x0B02, 0x0B04, 0x0B06, 0x0B07, 0x0B09, 0x0B0A, 0x0C05, 0x0C0A, 0x0C0E, 0x0C0F, 0x0C11, 0x0D02, 0x0D03, 0x0D04, 0x0D05, 0x0D06, 0x0D07, 0x0D08]

/-- Codes of severity 1, part 2. -/
def warnings2 : List Nat := [0x0E02, 0x0E09, 0x0E0A, 0x0E0C, 0x0E0D, 0x0E0E, 0x0E0F, 0x0F01, 0x0F02, 0x0F04, 0x0F05, 0x0F09, 0x0F0A, 0x0F0B, 0x0F0E, 0x0F0F, 0x1002, 0x1003, 0x1007, 0x1009, 0x100B, 0x1010, 0x1011, 0x1013, 0x1014, 0x1103, 0x1104, 0x1105, 0x1106, 0x1108, 0x1109, 0x110B, 0x110C, 0x110D, 0x110E, 0x1113, 0x1114, 0x1115, 0x1116, 0x1204]

/-- Codes of severity 1, part 3. -/
def warnings3 : List Nat := [0x120B, 0x120E, 0x1211, 0x1212, 0x1214, 0x1302, 0x1306, 0x1307, 0x1308, 0x1309, 0x130C, 0x130E, 0x1401, 0x1403, 0x1405, 0x1409, 0x140A, 0x1502, 0x1503, 0x1505, 0x1601, 0x1604, 0x1605, 0x1701, 0x1702]

/-- Codes of severity 2, part 0. -/
def faults0 : List Nat := [0x0114, 0x0204, 0x0206, 0x0306, 0x0407, 0x0508, 0x0601, 0x0703, 0x070D, 0x0712, 0x0715, 0x0806, 0x0808, 0x080B, 0x0B03, 0x0B05, 0x0C02, 0x0C03, 0x0C06, 0x0C08, 0x0C09, 0x0C0C, 0x0C0D, 0x0C10, 0x0E01, 0x0E04, 0x0E06, 0x0F06, 0x1004, 0x1006, 0x100C, 0x100E, 0x1012, 0x1111, 0x1112, 0x1201, 0x1205, 0x1207, 0x120A, 0x120C]

/-- Codes of severity 2, part 1. -/
def faults1 : List Nat := [0x120F, 0x1213, 0x1303, 0x1304, 0x130B, 0x1402]

/-- Codes of severity 3, part 0. -/
def criticals0 : List Nat := [0x0101, 0x0201, 0x0205, 0x0208, 0x0303, 0x070F, 0x0710, 0x0716, 0x0C04, 0x0E08, 0x0F0C, 0x1001, 0x1101, 0x1208, 0x1210, 0x1215, 0x1602, 0x1606]

/-- The severity of a code. -/
def sevOf (code : Nat) : Nat :=
  if (criticals0).contains code then 3
  else if (faults0 ++ faults1).contains code then 2
  else if (warnings0 ++ warnings1 ++ warnings2 ++ warnings3).contains code then 1
  else 0

end Sys2Proof.Machine
end

