-- ==== Sys2Proof/Config.lean ====
section
/-!
DEFINITION. What the spec leaves open. Each value here has no body, so nothing proves what it is: a statement that holds,
holds whatever it is.
-/
namespace Sys2Proof.Config

/-- The `k`-th value drawn from the true random number generator (R284, R425: the spec fixes no value; notes/assumptions/54.md). -/
opaque random : Nat → Nat

/-- The `k`-th value of a result that the spec leaves open; notes/assumptions names each use. -/
opaque freeValue : Nat → Nat

/-- The sample of a trace signal that the loop engine does not form in a pass: signal `sig` of slot `slot` in cycle `cycle`
(R180, R191: the spec states none; notes/assumptions/14.md). -/
opaque unformed : Nat → Nat → Nat → Int

/-- A sample that the metering datapath needs from before its restart: the angle and the path or channel ask for it, `back`
samples before the newest (R209, R212: the spec states none; notes/assumptions/13.md). -/
opaque before : Nat → Nat → Nat → Int

/-- The extreme URMS that the end of a channel's NORMAL state carries: R214 names one for the other states only (channel, window;
notes/assumptions/129.md). -/
opaque normalExtreme : Nat → Nat → Nat

/-- The 16 bytes of an entry of the meter event list: R223 places the list and gives its entries no layout (code, channel, data;
notes/assumptions/9.md). -/
opaque listEntry : Nat → Nat → Nat → Nat

/-- The section type that 0x1002 carries for a share of the metering image that names a locker without a record: R245 names no section
for it (share; notes/assumptions/131.md). -/
opaque shareSection : Nat → Nat

/-- The level that a modulated output shows at a fabric clock (fabric clock, channel; notes/assumptions/132.md). -/
opaque waveform : Nat → Nat → Bool

/-- The byte that 0x0F02 carries for the direction that does not fit: R293 names the direction and gives it no code (0 outputs, 1 inputs,
2 neither, a period above 65,536; notes/assumptions/134.md). -/
opaque directionCode : Nat → Nat

/-- Whether a quotient that the spec gives no rounding for is rounded up (R210, R213; notes/assumptions/11.md). -/
opaque roundUp : Nat → Nat → Bool

/-- How long a domain's crossings take to resynchronise when it comes up at a fabric clock, within the 64 that R388 allows (notes/assumptions/114.md). -/
opaque handshake : Nat → Nat → Nat

/-- Whether the mirror writer reaches a point's record of a cycle before the next cycle starts (R26; notes/assumptions/128.md). -/
opaque mirrorReached : Nat → Nat → Bool

/-- The Trelsen release key held in the boot ROM, and the test release key (R442: the spec gives no number for either; notes/assumptions/73.md): a public key of
64 bytes. -/
opaque releaseKey : List Nat
opaque testReleaseKey : List Nat

end Sys2Proof.Config
end

