-- ==== Sys2Proof/Machine/State.lean ====
section
/-!
DEFINITION. The state of the part as plain data: its registers, its memories, what each of its engines holds between two
commands, the posts on their way to the event recorder and the queue of waiting commands; the two closed types of reasons
a step can stop; and `State.reset`. Every register of the spec's register blocks lives in `Sys.regs`, keyed by its module
address and read as its reset value until something changes it (Machine/Regs.lean names each one and each field).
-/
namespace Sys2Proof.Machine

/-! ## Registers -/

/-- A register field: the register's module address, the field's lowest bit and its width. -/
structure Fld where
  addr : Nat
  lo : Nat
  width : Nat
deriving DecidableEq, Repr

/-- The host's access to a register (R31, R509, spec/01_architecture.md). -/
inductive HostAccess where
  | full | read | none
deriving DecidableEq, Repr

/-- A register or register array of the table in Machine/Regs.lean: address, the two strides with their counts, reset
value, and the masks of the fields of each access type of R11 (spec/00_scope.md). -/
structure RegDesc where
  addr : Nat
  stride : Nat
  count : Nat
  stride2 : Nat
  count2 : Nat
  reset : Nat
  rw : Nat
  rwl : Nat
  w1c : Nat
  w1s : Nat
  wo : Nat
  rc : Nat
  host : HostAccess
deriving DecidableEq, Repr

/-- What the last bus access answered: the value read, a management-core bus error (R387), an Unsupported Request of the
host link (R35) and a poisoned completion (R354). -/
structure Response where
  value : Nat
  bytes : List Nat
  busError : Bool
  unsupported : Bool
  poisoned : Bool
deriving DecidableEq, Repr

/-! ## Posts on seam 4 -/

/-- An event on its way to the recorder (R472, spec/18_management_and_event_recorder.md): the requester that posts it,
its code, the locker it is recorded under and its 8 bytes of data as one number. -/
structure Post where
  req : Nat
  code : Nat
  locker : Nat
  data : Nat
deriving DecidableEq, Repr

/-! ## The angle clock (spec/02_mains_angle_clock.md) -/

/-- The angle clock's own state beside the ANG registers: TIME and its hidden fraction (R41), the correction in progress
(R47), the detector's memory (R510, R52) and the program-cycle grid with the boundaries in effect (R58, R59). `begun` says
that a cycle has started since the first one was requested. -/
structure Angle where
  time : Nat
  frac : Nat
  corr : Int
  ran : Bool
  everLocked : Bool
  crossed : Bool
  expect : Nat
  lowRun : Nat
  badRun : Nat
  bigRun : Nat
  lockRun : Nat
  nominal : Nat
  requested : Bool
  waitOver : Bool
  corg : Nat
  n : Nat
  phg : Nat
  phc : Nat
  phv : Nat
  cycle : Nat
  start : Nat
  first : Bool
  begun : Bool
deriving DecidableEq, Repr

/-- The cycle context that the collector captures (R63, R109, spec/04_cycle_engine.md); the quality words it carries are
in control SRAM. -/
structure Context where
  cycle : Nat
  time : Nat
  rtcs : Nat
  rtcf : Nat
  rtcok : Bool
  rtcadj : Bool
  angs : Nat
  first : Bool
  cold : Bool
  restore : Bool
deriving DecidableEq, Repr

/-! ## Lanes (spec/03_lanes_and_voting.md to spec/07_metering.md) -/

/-- A job of a lane's queue (R66): TYPE 1 Compute, 2 sample block, 3 power-fail flush; SEQ, cycle and block index. `ran`
says that the lane has done the job's work and has only LLP_DONE left to write. -/
structure Job where
  kind : Nat
  seq : Nat
  cycle : Nat
  block : Nat
  ran : Bool
deriving DecidableEq, Repr

/-- The cycle engine's state (R133, spec/05_logic_instruction_set.md): W0 to W7, the flags, PC, the call stack, the
running task section, and the runtime's count of charged clocks with the end of the section (R114). -/
structure Engine where
  w : Vector (BitVec 64) 8
  z : Bool
  n : Bool
  c : Bool
  v : Bool
  u : Bool
  pc : Nat
  stack : List Nat
  task : Nat
  clocks : Nat
  ended : Bool
deriving DecidableEq, Repr

/-- The runtime status record (R119): program state (0 none, 1 RUN, 2 HALT), halt cause, overruns, charges, the first
fault (R129) with the classes already posted, the highest change applied (R125), and CYC_FACT and CYC_CTL as they stood at PHG. -/
structure Runtime where
  state : Nat
  hcause : Nat
  overruns : Nat
  overran : Bool
  used : Nat
  peak : Nat
  fltValid : Bool
  fltClass : Nat
  fltTask : Nat
  fltOffset : Nat
  fltCycle : Nat
  fltPosted : List Nat
  caps : Nat
  capc : Nat
  fact : Nat
  ctl : Nat
deriving DecidableEq, Repr

/-- An entry of a lane's loop or meter event list (R194, R226): code, the slot or channel it concerns, and its data. -/
structure ListedEvent where
  code : Nat
  slot : Nat
  data : Nat
deriving DecidableEq, Repr

/-- A trace channel's state (R192, spec/06_loop_engine.md); `state` is coded as LOOP_TRS.STATE. -/
structure Trace where
  state : Nat
  tidx : Nat
  widx : Nat
  count : Nat
  cycle : Nat
  armValue : Nat
  armed : Bool
  prev : Option Int
deriving DecidableEq, Repr

/-- One raw sample group of the datapath's delay line: its angle and its 54 words (R197). -/
structure RawGroup where
  angle : Nat
  words : List Nat
deriving DecidableEq, Repr

/-- A voltage channel's crossing detector (R213): armed; the position of the last crossing in samples since the restart as a
fraction, if there is one; the angle it is timed from; and the last output with its angle, if there is one. -/
structure Crossing where
  armed : Bool
  last : Option (Nat × Nat)
  since : Nat
  prev : Option (Int × Nat)
deriving DecidableEq, Repr

/-- The metering datapath of a lane (R209 to R214): the delay line, the voltage outputs of the quarter-cycle delay, the
open window with its sums, the previous window's sums, and the state of the events. The newest sample and output come
first in `raw` and `vout`; `count` outputs have been produced since the restart; `after` is the window the restart fell in.
The live image (R221: its layout is not specified) is held in the snapshot's layout (R223). `irregular` holds the DFL bits of
the demand interval in progress (R220), `newMeters` the pulse meters that have not yet taken a count (R229), and
`snapCycle` is the cycle of the snapshot (R231). -/
structure Datapath where
  live : List Host.Cell
  raw : List RawGroup
  vout : List (List Int)
  waiting : Bool
  after : Option Nat
  count : Nat
  window : Nat
  outputs : Nat
  sv2 : List Nat
  si2 : List Nat
  sp : List Int
  sq : List Int
  high : List Nat
  ovl : List Bool
  prevSv2 : List Nat
  prevSi2 : List Nat
  prevN : Nat
  cross : List Crossing
  events : List ListedEvent
  lost : Nat
  snapEvents : List ListedEvent
  snapLost : Nat
  closed : Bool
  lastRtcs : Option Nat
  irregular : Nat
  newMeters : List Nat
  snapCycle : Nat
deriving DecidableEq, Repr

/-- A lane beside its SRAM: its job queue, engines, runtime and event lists, and what the lane manager knows of it. `ranged`
are the loop slots whose region has been selected since activation (R184), `posts` the runtime's events that the firmware
carries to the recorder (R461). `computed` and `done` say that it has run, and ended with LLP_DONE, the Compute job of the
cycle in progress; `doneCycle` is the cycle of the last Compute job that it ended and `doneAt` the TIME at which it did; `flushed`
says that no flush job is outstanding (R80); `fromCycle` is the first cycle it runs Compute in (R90), `meterPending` a metering image
that it is still to take, and `meterArmed` that it takes it at its next window boundary (R229). -/
structure Lane where
  jobs : List Job
  jobSeq : Nat
  engine : Engine
  rt : Runtime
  loopEvents : List ListedEvent
  loopLost : Nat
  ranged : List Nat
  traces : List Trace
  posts : List Post
  dp : Datapath
  computed : Bool
  done : Bool
  flushed : Bool
  doneCycle : Option Nat
  doneAt : Nat
  fromCycle : Nat
  meterPending : Bool
  meterArmed : Bool
deriving DecidableEq, Repr

/-- A reintegration in progress (R86 to R90): the target, its donor, the copy round, the dirty granules set so far in the
round and those captured for it, whether donor writes are mirrored, whether the final round has ended, and whether the donor
has in the round written parts of its state region whose layout the spec does not give (R119, R221). -/
structure Reintegration where
  target : Fin 4
  donor : Fin 4
  round : Nat
  dirty : List Nat
  captured : List Nat
  mirror : Bool
  finalDone : Bool
  hidden : Bool
deriving DecidableEq, Repr

/-- The lane manager, the voter and the cuff beside the VOT registers (R74 to R100). `voted` says that the vote of the cycle
has run, `valid` that it gave a valid output image, `late` that it had not finished at PHV, `solo` that its image is the
single lane's, `refused` that its mode was control refused without the permit, `split` and `duplex` that it was a split or a
duplex disagreement; `image` holds the voted output words by point. `splitBefore` is the last cycle's split, `dupRun`
the consecutive duplex disagreements, `emitted` that PHV of the cycle has come, `lastCycle` the cycle of the last vote, `validRun` the
consecutive valid cycles, `restart` a restart requested, `owed` that the return to normal is to be reported, `reint` the copy
in progress, `ready` the lanes that enter VOTING at the next cycle start (R70, R91), `waiting` the removed lanes whose reset has
ended, `resetting` those whose reset has not (R84), `shelfQueue` a shelved lane brought in that waits, `burns` the retirement fuses to
burn, `flushDue` a flush vote that waits for the lanes' flush jobs (R80), and `loopsDue`, `metersDue` and `refusedDue` that the firmware
has not yet read the lists of the last vote's cycle (R123, R194, R226). -/
structure Voter where
  voted : Bool
  valid : Bool
  late : Bool
  solo : Bool
  refused : Bool
  split : Bool
  duplex : Bool
  image : List (Nat × Nat)
  splitBefore : Bool
  dupRun : Nat
  emitted : Bool
  lastCycle : Nat
  validRun : Nat
  restart : Bool
  owed : Bool
  reint : Option Reintegration
  ready : List (Fin 4)
  waiting : List (Fin 4)
  resetting : List (Fin 4)
  shelfQueue : List (Fin 4)
  burns : List (Fin 4)
  flushDue : Bool
  loopsDue : Bool
  metersDue : Bool
  refusedDue : Bool
deriving DecidableEq, Repr

/-- An entry of the change queue (R123). -/
structure Change where
  index : Nat
  kind : Nat
  origin : Nat
  locker : Nat
  refused : Bool
  seq : Nat
  value : Nat
deriving DecidableEq, Repr

/-- The change queue of seam 3 and the sealed batch (R122 to R127), with each lane's copy of the batch in `batches`. -/
structure ChangeQueue where
  nextSeq : Nat
  queue : List Change
  batch : List Change
  batchCycle : Nat
  batches : Vector (List Change) 4
deriving DecidableEq, Repr

/-- The program set in force beside the images in memory: whether a set is active, the values it was activated with, CYC_FACT and CYC_CTL
as they stood at PHG of the cycle once `latched` says that PHG has come (R67), the snapshot cycle whose retentive save is due (R118), and
the loop states copied at the last PHV. -/
structure Program where
  active : Bool
  chgmax : Nat
  dig : Nat
  budget : Nat
  allowance : Nat
  latched : Bool
  fact : Nat
  ctl : Nat
  snapCycle : Option Nat
  loopSlots : List Host.Cell
deriving DecidableEq, Repr

/-- The metering front end (R196 to R204, R227, R228): the next block's sequence number, a GAP and a TRIMCHG for the next block,
the blocks begun and not emitted since the last emitted one, the event that its first block posts with its gap (0x1102 or
0x110F), the TIME of the last metered sample, the autorange's window with its peaks, samples to settle and modes in effect,
the nominal voltages and the fractional delays of V0 to V5 as configured (R44, R45), what the blocks since the last collector close say of quality (R225), how far the
windows have come since the last restart with the angles of the outputs still to come, the last block's DA, the TIME of the last metered sample
and the cycle at the last freeze (R231, R233), and whether a flush, a band crossing (R205) or a save
(R230) is under way. -/
structure FrontEnd where
  bseq : Nat
  gap : Bool
  trimChg : Bool
  notEmitted : Nat
  gapCode : Nat
  lastSample : Nat
  window : Option Nat
  peaks : List Nat
  settle : List Nat
  modes : List Nat
  unom : List Nat
  delays : List Int
  included : Bool
  rangeMark : List Bool
  unlockedMark : Bool
  winState : Nat
  outWindow : Nat
  lag : List Nat
  lastDA : Nat
  freeze : Nat
  freezeCycle : Nat
  flushing : Bool
  bandOut : Bool
  saveTries : Nat
deriving DecidableEq, Repr

/-! ## The structure fabric (spec/08_structure_image_and_fabric.md) -/

/-- A pending timed switch (R250): the state it switches to, the angle it switches at, and its word. -/
structure Switch where
  dest : Bool
  angle : Nat
  word : Nat
deriving DecidableEq, Repr

/-- One universal channel's running state (R247 to R251, R260). Levels are pin levels before INV. `since` is the fabric clock
and `stamp` the TIME of the 1 µs sample that first showed `level`; `rise` is the fabric clock at which an accepted high level
began that has not yet counted as a pulse. `edges` counts the chatter window's accepted edges, `base` is the value delivered
before the window, `held` the one delivered in chatter; `quiet` counts cycles without an edge or change, `reference` is the value
at the last restart of that count. `value`, `aux` and `qual` are as delivered or applied last, and `dac` is the code on an analog output (R246); `init` says that no value has been
delivered. `state` is a FUNC 9 channel's state, `fresh` a changed channel that waits for the first outputs of the new set. -/
structure Channel where
  level : Bool
  since : Nat
  stamp : Nat
  accepted : Bool
  lastEdge : Nat
  edges : Nat
  base : Nat
  held : Nat
  chatter : Bool
  quiet : Nat
  stuck : Bool
  reference : Nat
  ranged : Bool
  count : Nat
  excess : Nat
  excessSeen : Nat
  rise : Option Nat
  lastPulse : Option Nat
  conversions : List Nat
  value : Nat
  dac : Nat
  aux : Nat
  qual : Nat
  init : Bool
  driven : Bool
  state : Bool
  pending : Option Switch
  switchTime : Nat
  pwmNext : Option Nat
  cellFailed : Bool
  spare : Option Nat
  fresh : Bool
deriving DecidableEq, Repr

/-- A DALI frame word (R162): FRAME, FORM and SEQ. -/
structure DaliFrame where
  frame : Nat
  form : Nat
  seq : Nat
deriving DecidableEq, Repr

/-- A DALI line (R253 to R256): the SEQ it last took, its queue, the frame it sends with the failed attempts and the copy,
whether that is on the bus, awaits an answer or a retry, the response value, the frames completed, its failure, and whether no
response has been delivered. -/
structure DaliLine where
  lastSeq : Nat
  queue : List DaliFrame
  sending : Option DaliFrame
  onBus : Bool
  attempts : Nat
  copy : Nat
  answering : Bool
  retrying : Bool
  response : Nat
  completed : Nat
  failed : Bool
  qual : Nat
  init : Bool
deriving DecidableEq, Repr

/-- The fabric beside the FAB registers: the structure image that the module is configured by (R237, R258), its channels and
lines, the channels that wait for a spare cell, the next configuration word to scrub, and when a global word was last found
uncorrectable (R259). -/
structure Fabric where
  image : List Host.Cell
  channels : List (Nat × Channel)
  lines : List (Nat × DaliLine)
  wait : List Nat
  scrubAt : Nat
  lastGlobal : Option Nat
deriving DecidableEq, Repr

/-! ## The station exchange (spec/09_hitil_station_exchange.md) -/

/-- A station's life (R286 to R289): its state as HIT_SSTAT codes it, its counts, the address that holds the index, the cycle from
which an admit may be sent, whether its outputs carry REJOIN (R292), the fragments received for the open bank with the flags of each,
and what the complete set of the open bank carried: whether there is one, OUTOK, SFAULT and FSTATE. -/
structure Station where
  state : Nat
  miss : Nat
  missTotal : Nat
  joins : Nat
  fstate : Bool
  sfault : Bool
  last : Nat
  address : Option Nat
  admitAt : Option Nat
  rejoin : Bool
  fragments : List (Nat × Nat × List Nat)
  setDone : Bool
  setOk : Bool
  setFault : Bool
  setState : Bool
deriving DecidableEq, Repr

/-- A CAN frame as the record of R296 holds it. `source` is the ring (0 none, 1 or 2) whose record it came from and `slot`
its index there. -/
structure CanRecord where
  id : Nat
  ide : Bool
  rtr : Bool
  dlc : Nat
  fdf : Bool
  brs : Bool
  esi : Bool
  len : Nat
  status : Nat
  time : Nat
  tag : Nat
  att : Nat
  data : List Nat
  source : Nat
  slot : Nat
deriving DecidableEq, Repr

/-- A Hitil frame (R274 to R281): the bus (0 to 7 CAN, 8 NET2), the EtherType on NET2, its addresses, header, payload words and tag. -/
structure HitilFrame where
  bus : Nat
  etype : Nat
  source : Nat
  dest : Nat
  ver : Nat
  kind : Nat
  station : Nat
  flags : Nat
  len : Nat
  cycle : Nat
  fragment : Nat
  payload : List Nat
  tag : Nat
deriving DecidableEq, Repr

/-- The station exchange beside the HIT registers: the stations, the EPOCH (R284), the cycle of the last beacon, the cycle a late
frame was last posted in, whether a release has stopped it (R291), the frames of the last emission and the admits since, the CAN
frames that wait for room in a controller's queue with their segment and queue, the keys of its table with the slot each came from
(an entry is a station index or 0x8000 + bus, R425), the buses that keys fail (R285), LOSTN and AUTH in effect, the cycle an abort was
last posted in and how often it aborted (R300). -/
structure Exchange where
  stations : List (Nat × Station)
  epoch : Nat
  beacon : Nat
  latePosted : Option Nat
  stopped : Bool
  sent : List HitilFrame
  backlog : List (Nat × Nat × CanRecord)
  keys : List (Nat × Nat × Nat)
  keyless : List Nat
  lostn : Nat
  auth : Bool
  abortPosted : Option Nat
  aborts : Nat
deriving DecidableEq, Repr

/-- The collector (R19 to R22, R267): the bank that is open, and whether the bank of the current cycle has closed. -/
structure Collector where
  bankB : Bool
  closed : Bool
  openCycle : Nat
deriving DecidableEq, Repr

/-! ## CAN controllers (spec/10_can_fd_controllers.md) -/

/-- A controller beside its registers: its FIFO and queues (R297, R298), the aborted entries that wait for the frame on the bus
(R299), the mode asked for and in effect (R304), its error-free count (R305), whether the frame on the bus is not to be retried
and whether the abort is to be counted when it fails (R300), the
receive sequence, bus-off (1) and recovery (2), its failure, the rates and the role of the record it serves, and whether ring 0 drains
and which rings pause (R339). -/
structure CanCtl where
  fifo : List CanRecord
  q0 : List CanRecord
  q1 : List CanRecord
  aborted : List CanRecord
  nextMode : Option Nat
  mode : Nat
  good : Nat
  abortActive : Bool
  abortDue : Bool
  rxSeq : Nat
  busOff : Nat
  failed : Bool
  arate : Nat
  drate : Nat
  draining : Bool
  pausing : List Nat
deriving DecidableEq, Repr

/-! ## Ethernet ports (spec/11_ethernet_ports.md) -/

/-- A port beside its registers: the abilities it negotiates with (R316), whether a received pause is in force (R326) and one it sent
(R327), the frame on the wire with its descriptors and its start, the receive SEQ, the partner's abilities, whether the link has left UP since it came up (R317), and the last
frame sent. -/
structure Port where
  adv : Nat
  paused : Bool
  xoff : Bool
  sending : Option (List Nat)
  sendCount : Nat
  sendTime : Nat
  rxSeq : Nat
  partner : Nat
  cut : Bool
  wire : List Nat
deriving DecidableEq, Repr

/-! ## DMA, arbiter and semaphores (spec/12_dma_arbiter_semaphores.md) -/

/-- A descriptor as a channel fetched it (R330), at its address. -/
structure Descriptor where
  at_ : Nat
  src : Nat
  dst : Nat
  len : Nat
  ctl : Nat
  next : Nat
  lenHigh : Nat
deriving DecidableEq, Repr

/-- A DMA channel's running state (R333 to R337): the descriptor in work. -/
structure DmaChannel where
  desc : Option Descriptor
deriving DecidableEq, Repr

/-- A requester of the main fabric (R341 to R345): its request's age stamp, the wait counted so far and the fabric clock it was
counted at, overdue or not, the class and WAITMAX its request is judged by, and its RESET and FAULT sidebands. -/
structure Requester where
  stamp : Option Nat
  wait : Nat
  countedAt : Nat
  overdue : Bool
  cls : Nat
  waitMax : Nat
  reset : Bool
  fault : Bool
deriving DecidableEq, Repr

/-- A hardware semaphore (R346 to R348). -/
structure Semaphore where
  owner : Option Nat
  orphan : Bool
deriving DecidableEq, Repr

/-- The arbiter: its requesters by number and the requester that holds the grant. -/
structure Arbiter where
  requesters : List (Nat × Requester)
  grant : Option Nat
  semaphores : List (Nat × Semaphore)
deriving DecidableEq, Repr

/-! ## Memory integrity and spares (spec/13_memory_integrity_and_spares.md) -/

/-- A page, row or sector copy in progress (R359, R363, R367): what it replaces, the spare it goes to, the lane of a row,
and whether wear was the cause. -/
structure Repair where
  target : Nat
  spare : Nat
  lane : Nat
  wear : Bool
deriving DecidableEq, Repr

/-- What the memory controllers keep: the poison table by word address (R357), the correction history by page, row and sector with
the words corrected, newest first (R358, R363, R367), for each word corrected by a scrubber the pass and the run of consecutive passes,
the passes of each memory, the times of the last uncorrectable DRAM events (R361), the spares that serve pages, rows (8192 × lane + row)
and logical sectors with the spares used up, the copies in progress, the writes of loft sectors not yet saved and the wear in the repair
record (R367), and the points whose output word is lost in this cycle (R364). -/
structure Integrity where
  poison : List Nat
  dramHist : List (Nat × List Nat)
  rowHist : List (Nat × List Nat)
  loftHist : List (Nat × List Nat)
  runs : List (Nat × Nat × Nat)
  passes : List (Nat × Nat)
  ueTimes : List Nat
  pages : List (Nat × Nat)
  rows : List (Nat × Nat)
  sectors : List (Nat × Nat)
  pagesUsed : List Nat
  rowsUsed : List Nat
  sectorsUsed : List Nat
  pageCopies : List Repair
  rowCopies : List Repair
  sectorCopies : List Repair
  writes : List (Nat × Nat)
  wear : List (Nat × Nat)
  droppedPoints : List Nat
deriving DecidableEq, Repr

/-! ## Clocks, power, reset and standby (spec/14_clocks_power_reset.md) -/

/-- The clock controller beside its registers: the clocks that have no edges now, the clocks whose loss the monitor has declared since
(R378), when the watchdog was armed in ticks of the crystal (R379), whether the planes are held in reset for a clock (R375, R378, R379),
whether a fallback to RC is to be reported, the PLLs that lost their second try, and whether the crystal failed all checks of the start
(R375). -/
structure Clocks where
  missing : List Nat
  watchdogAt : Option Nat
  planesHeld : Bool
  fellBack : Bool
  badPlls : List Nat
  crystalDead : Bool
deriving DecidableEq, Repr

/-- Power, reset and standby beside the PWR registers: whether a module reset holds until the power-on release (R383), whether the start
has run since, the cause of the last reset (R385), that a reset is VCORE_M's
and ends with its return (R384), the operating point asked for with the TIME of the request and the change that runs, old and new (R381, R382), the domains held by
a command (R386), the discards and absent reads by domain (R387), the domains whose crossings resynchronise with the fabric clock at which
traffic flows (R388), standby (0 none, 1 asked for, 3 entered) with
its last duration in ticks, while it lasts the tick count of its entry (R389, R56), a wake that came during entry, the pins PFW_N, FAULT_N and PERST_N (R492, R498), the host link, the codes with
their data that the next scan's end posts (R472), and whether the control plane is stopped for good (R456). -/
structure Power where
  inReset : Bool
  started : Bool
  cause : Nat
  heldByRail : Bool
  opPending : Option (Nat × Nat)
  opRunning : Option (Nat × Nat)
  cmdReset : List Nat
  drops : List (Nat × Nat)
  absent : List (Nat × Nat)
  resync : List (Nat × Nat)
  standby : Nat
  standbyDur : Nat
  wakeHeld : Option Nat
  pfwLow : Bool
  faultLow : Bool
  linkUp : Bool
  perstHigh : Bool
  postAtStart : List (Nat × Nat)
  stopped : Bool
deriving DecidableEq, Repr

/-! ## The cellar and the RTC (spec/15_cellar_and_rtc.md) -/

/-- A write on its way into the cellar (R405): the register, the word, and for SET and SHIFT the values they take. -/
structure CellarWrite where
  addr : Nat
  value : Nat
  sec : Nat
  sub : Nat
deriving DecidableEq, Repr

/-- The cellar beside its registers: the counters of the RTC (R401) with a wrap to be reported, the day number that RTC_WDAY stands for
(R403), a pending shift (R406), the signed correction C with its accumulator (R407), the counted time since the periodic event
last came or was started and the count it is due at (R411), the occurrences a forward adjustment passed with the latest of them (R409), the
retention mark (R396), the crossing write, ADJCNT at the last snapshot (R404), the root secret (R417), the sources that fired
in the dark (R429), and the alarms that fired without VMAIN (R410). -/
structure Rtc where
  sec : Nat
  sub : Nat
  wrapped : Bool
  day : Nat
  shift : Option Int
  comp : Int
  acc : Nat
  perCount : Nat
  perAt : Nat
  skipped : Nat
  skipLast : Nat
  retlost : Bool
  write : Option CellarWrite
  lastAdj : Nat
  root : Nat
  dark : Nat
  almr : Nat
  period : Nat
deriving DecidableEq, Repr

/-! ## Keys and lockers (spec/16_keys_tamper_lockers.md) -/

/-- A slot of the key store (R418 to R420): its state, kind and parent are in KEY_SLOTs; the key's 32 bytes as one number, first byte
lowest, with the info it was derived with. -/
structure KeySlot where
  key : Nat
  info : List Nat
deriving DecidableEq, Repr

/-- The key store beside its registers: the keys by slot; of the operation that runs, its result code and its output buffer
(R425); of the fuse burn that runs, the word and the bits (R416); whether the TRNG has failed its health test (R426). -/
structure Keys where
  slots : List (Nat × KeySlot)
  running : Option (Nat × Nat × Nat)
  burning : Option (Nat × Nat)
  trngFailed : Bool
deriving DecidableEq, Repr

/-- A binding made by a ticket to a host data DMA channel or a cursor (R430): the path (1 portal, 2 channel, 3 cursor), its
number, the locker and NOTAFTER. -/
structure Binding where
  path : Nat
  target : Nat
  locker : Nat
  notAfter : Nat
deriving DecidableEq, Repr

/-- The locker filter beside the LCK registers: the bindings in force. -/
structure Lockers where
  bindings : List Binding
deriving DecidableEq, Repr

/-! ## Start-up and update (spec/17_startup_and_image_update.md) -/

/-- The update path beside the UPD registers: the mailbox command that runs with the code it will end with and the part that code concerns; whether a
session was opened since the start; the fabric clock of the last command in the session; the parts declared in per-part mode with their lengths (R458); where the
manifest lies in the larder, if the larder holds a set, and in the pantry (R454, R459); the activation in progress with its last old
cycle A, whether the load has been made, whether 0x0811 is still to be posted, whether the larder copy runs, whether restore data awaits the first cycle (R112, R457),
whether that cycle follows a cold start (R109), and whether the command that runs was given in standby, before the wake (R445). -/
structure Update where
  running : Option Nat
  result : Nat
  failPart : Nat
  opened : Bool
  touched : Nat
  parts : List (Nat × Nat)
  larderAt : Option Nat
  pantryAt : Nat
  activating : Bool
  loaded : Bool
  lastOld : Nat
  announce : Bool
  copying : Bool
  restore : Bool
  cold : Bool
  asleep : Bool
deriving DecidableEq, Repr

/-! ## The event recorder and the fault controller (spec/18_management_and_event_recorder.md) -/

/-- What the recorder knows of a slot of its ring or log beside the record's 32 bytes in memory: the slot, the record's SEQ,
LSEQ, locker and severity, whether it is numbered and flushed, and its place in the order of acceptance. -/
structure RecSlot where
  slot : Nat
  seq : Nat
  lseq : Nat
  locker : Nat
  sev : Nat
  numbered : Bool
  flushed : Bool
  order : Nat
deriving DecidableEq, Repr

/-- The recorder beside the EVR registers: the indices of the ring and the log, the ring's next slot, the next numbers (R477), the count
of records accepted, the lost counts by locker (R479) with each cursor's count at its binding, the clear that runs (R480), and
whether a flush waits for its turn (R474). `firstAt` and `nextAt` are the places in the order of acceptance of the records in the
fault slots. -/
structure Recorder where
  ring : List RecSlot
  log : List RecSlot
  ringAt : Nat
  nextSeq : Nat
  nextLseq : List (Nat × Nat)
  nextAll : Nat
  order : Nat
  lost : List (Nat × Nat)
  lostAtBind : List (Nat × Nat)
  clearing : Option Nat
  flushWaits : Bool
  firstAt : Nat
  nextAt : Nat
deriving DecidableEq, Repr

/-- The management firmware beside the MGT registers: the host command that runs with its result and whether it waits for a flush
(R465), the sensors' runs of samples beyond the limits and inside them by the hysteresis (R464), the fabric clock at which the
watchdog's count last started, while it counts (R462), and whether the cell's warning stands (R397). -/
structure Management where
  running : Option Nat
  result : Nat
  beyondWarn : List Nat
  beyondFault : List Nat
  insideWarn : List Nat
  insideFault : List Nat
  watchdog : Option Nat
  cellWarned : Bool
deriving DecidableEq, Repr

/-- The strap pins that a board ties, MAINSNOM and OSCDLY (R489, spec/19_hardware_interface.md), and the bank supplies in millivolts as last
seen (R263). -/
structure Straps where
  mains60 : Bool
  oscdly : Nat
  banks : List Nat
deriving DecidableEq, Repr


/-- What the system record of the loft holds beside the energy, retentive, repair and key stores (R366): the flush marker (R234;
0 none, 1 begun, 2 complete), the numbers of circuits, pulse meters and shares that each energy slot was saved under, the lanes'
latest removals with their RTC seconds (R93), the lanes whose retirement fuse is still to be burned (R94), and the failed cells of the
fabric with the substitutions made (R261), the failed CAN controllers with the segment that the spare serves (R310), OWNPUB (R421) with the message counter and the root it is sealed
under (R423), the high-water numbers of the recorder (R477), and the crystal's curve (R407). Its layout is not the spec's; it outlives a reset. -/
structure LoftRecord where
  flushMarker : Nat
  energyCounts : List (Nat × Nat × Nat × Nat)
  removedAt : List (Nat × Nat)
  unburned : List (Fin 4)
  failedCells : List Nat
  spareCells : List (Nat × Nat)
  failedCan : List Nat
  canSpare : Option Nat
  ownpub : Nat
  counter : Option (Nat × Nat)
  highSeq : Nat
  highLseq : List (Nat × Nat)
  highAll : Nat
  curve : Option (Nat × Nat)
deriving DecidableEq, Repr

/-! ## The whole part -/

/-- Everything the spec gives the part but its fuses and its queue. `regs` are the registers that differ from their reset
values; `mem` the module's memories by module address (R27); `hostMem` the host's memory beyond the link, which DMA
reaches; `response` what the last access answered; `posts` the events on their way to the recorder, oldest first; `fclk`
the fabric clocks since the start and `lfxo` the 32.768 kHz crystal's phase against them; `limits` when each post limited
in rate was last made; `draws` the free values drawn; `signals` the MSI-X
vectors signalled, oldest first (R340). -/
structure Sys where
  regs : List (Nat × Word)
  mem : List Host.Cell
  hostMem : List Host.Cell
  response : Response
  posts : List Post
  fclk : Nat
  lfxo : Nat
  limits : List (Nat × Nat)
  draws : Nat
  signals : List Nat
  ang : Angle
  ctx : Context
  col : Collector
  lanes : Vector Lane 4
  vot : Voter
  loft : LoftRecord
  chg : ChangeQueue
  prog : Program
  fe : FrontEnd
  fab : Fabric
  hit : Exchange
  can : Vector CanCtl 9
  ports : Vector Port 3
  dma : Vector DmaChannel 16
  arb : Arbiter
  mi : Integrity
  clk : Clocks
  pwr : Power
  rtc : Rtc
  keys : Keys
  lck : Lockers
  upd : Update
  evr : Recorder
  mgt : Management
  strap : Straps
deriving DecidableEq, Repr

/-- The state of the part: everything that a command may change, the fuse block (R415), and the queue of waiting
commands, first in, first out. -/
structure State where
  sys : Sys
  fuses : List (Nat × Nat)
  pending : List Instr
deriving DecidableEq, Repr

/-- Why a step may stop the part. No command raises one: the spec gives every command an effect, and what the spec leaves
open is a free value of `Sys2Proof.Config`. -/
inductive Fault where
  /-- Raised by nobody; it keeps the type inhabited. Safe. -/
  | stuck
deriving DecidableEq, Repr

/-- Why a step may refuse a command. -/
inductive Refusal where
  /-- A command that has no meaning in this model yet, by its mnemonic. Safe: nothing can be proved of its effect. -/
  | notModelled (mnemonic : String)
deriving DecidableEq, Repr

/-! ## Reset -/

/-- A lane with nothing in it. -/
def Lane.zero : Lane where
  jobs := []
  jobSeq := 0
  engine := { w := Vector.replicate 8 0#64, z := false, n := false, c := false, v := false, u := false, pc := 0, stack := [], task := 0, clocks := 0, ended := true }
  rt := { state := 0, hcause := 0, overruns := 0, overran := false, used := 0, peak := 0, fltValid := false, fltClass := 0, fltTask := 0, fltOffset := 0, fltCycle := 0, fltPosted := [], caps := 0, capc := 0, fact := 0x60, ctl := 3 }
  loopEvents := []
  loopLost := 0
  ranged := []
  traces := []
  posts := []
  dp := { live := [], raw := [], vout := [], waiting := true, after := none, count := 0, window := 0, outputs := 0, sv2 := [], si2 := [], sp := [], sq := [], high := [], ovl := [], prevSv2 := [], prevSi2 := [], prevN := 0, cross := [], events := [], lost := 0, snapEvents := [], snapLost := 0, closed := false, lastRtcs := none, irregular := 0, newMeters := [], snapCycle := 0 }
  computed := false
  done := false
  flushed := true
  doneCycle := none
  doneAt := 0
  fromCycle := 0
  meterPending := false
  meterArmed := false

/-- A front end that has not sampled. -/
def FrontEnd.zero : FrontEnd where
  bseq := 0
  gap := false
  trimChg := false
  notEmitted := 0
  gapCode := 0
  lastSample := 0
  window := none
  peaks := []
  settle := []
  modes := []
  unom := []
  delays := []
  included := false
  rangeMark := []
  unlockedMark := false
  winState := 0
  outWindow := 0
  lag := []
  lastDA := 0
  freeze := 0
  freezeCycle := 0
  flushing := false
  bandOut := false
  saveTries := 0

/-- A controller off its bus (R303). -/
def CanCtl.zero : CanCtl where
  fifo := []
  q0 := []
  q1 := []
  aborted := []
  nextMode := none
  mode := 0
  good := 0
  abortActive := false
  abortDue := false
  rxSeq := 0
  busOff := 0
  failed := false
  arate := 0
  drate := 0
  draining := false
  pausing := []

/-- A port with no partner (R316). -/
def Port.zero : Port where
  adv := 0
  paused := false
  xoff := false
  sending := none
  sendCount := 0
  sendTime := 0
  rxSeq := 0
  partner := 0
  cut := false
  wire := []

/-- A requester with no request, under its reset class (R341). -/
def Requester.zero : Requester where
  stamp := none
  wait := 0
  countedAt := 0
  overdue := false
  cls := 0
  waitMax := 0
  reset := false
  fault := false

/-- The angle clock before RUN is first set (R41, R48), with the default boundaries of R60 for N = 2. -/
def Angle.zero : Angle where
  time := 0
  frac := 0
  corr := 0
  ran := false
  everLocked := false
  crossed := false
  expect := 0
  lowRun := 0
  badRun := 0
  bigRun := 0
  lockRun := 0
  nominal := 0
  requested := false
  waitOver := false
  corg := 0
  n := 2
  phg := 8192
  phc := 53248
  phv := 57344
  cycle := 0
  start := 0
  first := false
  begun := false

/-- The part right after a module reset is released, before its start (R385, R448): every register at its reset value, no
byte of memory listed, every queue empty, the management domain alone up. The values the spec gives no number for are the
model's (notes/assumptions/1.md). -/
def Sys.zero : Sys where
  regs := [(0x40010018, 3#32)]
  mem := []
  hostMem := []
  response := { value := 0, bytes := [], busError := false, unsupported := false, poisoned := false }
  posts := []
  fclk := 0
  lfxo := 0
  limits := []
  draws := 0
  signals := []
  ang := Angle.zero
  ctx := { cycle := 0, time := 0, rtcs := 0, rtcf := 0, rtcok := false, rtcadj := false, angs := 0, first := false, cold := false, restore := false }
  col := { bankB := false, closed := false, openCycle := 0 }
  lanes := Vector.replicate 4 Lane.zero
  vot := { voted := false, valid := false, late := false, solo := false, refused := false, split := false, duplex := false, image := [], splitBefore := false, dupRun := 0, emitted := false, lastCycle := 0, validRun := 0, restart := false, owed := false, reint := none, ready := [], waiting := [], resetting := [], shelfQueue := [], burns := [], flushDue := false, loopsDue := false, metersDue := false, refusedDue := false }
  loft := { flushMarker := 0, energyCounts := [], removedAt := [], unburned := [], failedCells := [], spareCells := [], failedCan := [], canSpare := none, ownpub := 0, counter := none, highSeq := 0, highLseq := [], highAll := 0, curve := none }
  chg := { nextSeq := 1, queue := [], batch := [], batchCycle := 0, batches := Vector.replicate 4 [] }
  prog := { active := false, chgmax := 256, dig := 4, budget := 0, allowance := 0, latched := false, fact := 0x60, ctl := 3, snapCycle := none, loopSlots := [] }
  fe := FrontEnd.zero
  fab := { image := [], channels := [], lines := [], wait := [], scrubAt := 0, lastGlobal := none }
  hit := { stations := [], epoch := 0, beacon := 0, latePosted := none, stopped := false, sent := [], backlog := [], keys := [], keyless := [], lostn := 3, auth := true, abortPosted := none, aborts := 0 }
  can := Vector.replicate 9 CanCtl.zero
  ports := Vector.replicate 3 Port.zero
  dma := Vector.replicate 16 { desc := none }
  arb := { requesters := [], grant := none, semaphores := [] }
  mi := { poison := [], dramHist := [], rowHist := [], loftHist := [], runs := [], passes := [], ueTimes := [], pages := [], rows := [], sectors := [], pagesUsed := [], rowsUsed := [], sectorsUsed := [], pageCopies := [], rowCopies := [], sectorCopies := [], writes := [], wear := [], droppedPoints := [] }
  clk := { missing := [], watchdogAt := none, planesHeld := false, fellBack := false, badPlls := [], crystalDead := false }
  pwr := { inReset := false, started := false, cause := 1, heldByRail := false, opPending := none, opRunning := none, cmdReset := [], drops := [], absent := [], resync := [], standby := 0, standbyDur := 0, wakeHeld := none, pfwLow := false, faultLow := false, linkUp := false, perstHigh := false, postAtStart := [], stopped := false }
  rtc := { sec := 0, sub := 0, wrapped := false, day := 0, shift := none, comp := 0, acc := 0, perCount := 0, perAt := 0, skipped := 0, skipLast := 0, retlost := false, write := none, lastAdj := 0, root := 0, dark := 0, almr := 0, period := 0 }
  keys := { slots := [], running := none, burning := none, trngFailed := false }
  lck := { bindings := [] }
  upd := { running := none, result := 0, failPart := 0, opened := false, touched := 0, parts := [], larderAt := none, pantryAt := 0, activating := false, loaded := false, lastOld := 0, announce := false, copying := false, restore := false, cold := false, asleep := false }
  evr := { ring := [], log := [], ringAt := 0, nextSeq := 0, nextLseq := [], nextAll := 0, order := 0, lost := [], lostAtBind := [], clearing := none, flushWaits := false, firstAt := 0, nextAt := 0 }
  mgt := { running := none, result := 0, beyondWarn := [], beyondFault := [], insideWarn := [], insideFault := [], watchdog := none, cellWarned := false }
  strap := { mains60 := false, oscdly := 0, banks := [] }

/-- The fuses of a unit as it leaves production (R415): VARIANT 1, TLOCK and DBGDIS blown, the device identity key 1 (notes/assumptions/1.md). -/
def shippedFuses : List (Nat × Nat) := [(3, 0x10000), (4, 3), (8, 1)]

/-- The state after reset, its queue empty. -/
def State.reset : State where
  sys := Sys.zero
  fuses := shippedFuses
  pending := []

end Sys2Proof.Machine
end

