-- ==== Sys2Proof/Machine/Regs.lean ====
section
/-!
DEFINITION. The register table: every register the spec's chapters describe, with its address in the module address map
(R27 and R31, spec/01_architecture.md: block n lies at 0x4000_0000 + n × 0x1_0000), its reset value, the access type of
every field as a mask (R11, spec/00_scope.md) and the host's access to it (R31, R509), and a name for every field. A
register array carries its strides. Bits in no mask are read only or reserved.
-/
namespace Sys2Proof.Machine

/-- The register lies at address `a`. -/
def RegDesc.covers (r : RegDesc) (a : Nat) : Bool :=
  let d := a - r.addr
  Nat.ble r.addr a && Nat.blt (d / r.stride) r.count && Nat.beq (d % r.stride % r.stride2) 0
    && Nat.blt (d % r.stride / r.stride2) r.count2

/-! ### Block 0x01 SYS: R14 (spec/00_scope.md), R466 (spec/18_management_and_event_recorder.md) -/

abbrev SYS_ID : Nat := 0x40010000
abbrev SYS_ID_PART : Fld := ⟨SYS_ID, 16, 16⟩
abbrev SYS_ID_VARIANT : Fld := ⟨SYS_ID, 8, 8⟩
abbrev SYS_ID_STEP : Fld := ⟨SYS_ID, 0, 8⟩

abbrev SYS_UIDL : Nat := 0x40010010
abbrev SYS_UIDL_UID : Fld := ⟨SYS_UIDL, 0, 32⟩

abbrev SYS_UIDH : Nat := 0x40010014
abbrev SYS_UIDH_UID : Fld := ⟨SYS_UIDH, 0, 32⟩

abbrev SYS_FUSE : Nat := 0x40010018
abbrev SYS_FUSE_TLOCK : Fld := ⟨SYS_FUSE, 0, 1⟩
abbrev SYS_FUSE_DBGDIS : Fld := ⟨SYS_FUSE, 1, 1⟩
abbrev SYS_FUSE_OWNLOCK : Fld := ⟨SYS_FUSE, 2, 1⟩
abbrev SYS_FUSE_RETIRE : Fld := ⟨SYS_FUSE, 3, 4⟩
abbrev SYS_FUSE_TAMPEN : Fld := ⟨SYS_FUSE, 7, 3⟩

abbrev SYS_KEPOCH : Nat := 0x4001001C
abbrev SYS_KEPOCH_E : Fld := ⟨SYS_KEPOCH, 0, 7⟩

abbrev SYS_VFLOOR : Nat := 0x40010020
abbrev SYS_VFLOOR_COUNT : Fld := ⟨SYS_VFLOOR, 0, 8⟩

abbrev SYS_FSTAT : Nat := 0x40010040
abbrev SYS_FSTAT_FIRSTV : Fld := ⟨SYS_FSTAT, 31, 1⟩
abbrev SYS_FSTAT_NEXTV : Fld := ⟨SYS_FSTAT, 30, 1⟩
abbrev SYS_FSTAT_ESC : Fld := ⟨SYS_FSTAT, 29, 1⟩
abbrev SYS_FSTAT_HOLD : Fld := ⟨SYS_FSTAT, 28, 1⟩
abbrev SYS_FSTAT_HSEV : Fld := ⟨SYS_FSTAT, 24, 2⟩
abbrev SYS_FSTAT_CRIT : Fld := ⟨SYS_FSTAT, 20, 2⟩
abbrev SYS_FSTAT_COUNT : Fld := ⟨SYS_FSTAT, 0, 16⟩

abbrev SYS_FFIRST : Nat := 0x40010044
abbrev SYS_FFIRST_CODE : Fld := ⟨SYS_FFIRST, 0, 16⟩
abbrev SYS_FFIRST_SEV : Fld := ⟨SYS_FFIRST, 16, 2⟩
abbrev SYS_FFIRST_LOCKER : Fld := ⟨SYS_FFIRST, 18, 10⟩

abbrev SYS_FFSEQ : Nat := 0x40010048
abbrev SYS_FFSEQ_SEQ : Fld := ⟨SYS_FFSEQ, 0, 32⟩

abbrev SYS_FNEXT : Nat := 0x4001004C
abbrev SYS_FNEXT_CODE : Fld := ⟨SYS_FNEXT, 0, 16⟩
abbrev SYS_FNEXT_SEV : Fld := ⟨SYS_FNEXT, 16, 2⟩
abbrev SYS_FNEXT_LOCKER : Fld := ⟨SYS_FNEXT, 18, 10⟩

abbrev SYS_FNSEQ : Nat := 0x40010050
abbrev SYS_FNSEQ_SEQ : Fld := ⟨SYS_FNSEQ, 0, 32⟩

abbrev SYS_FCLR : Nat := 0x40010054
abbrev SYS_FCLR_CLR : Fld := ⟨SYS_FCLR, 0, 1⟩

/-- The registers of block 0x01. -/
def regsSYS : List RegDesc := [
  ⟨0x40010000, 0x1, 1, 0x1, 1, 0x64000101, 0, 0, 0, 0, 0, 0, .read⟩,
  ⟨0x40010010, 0x1, 1, 0x1, 1, 0, 0, 0, 0, 0, 0, 0, .read⟩,
  ⟨0x40010014, 0x1, 1, 0x1, 1, 0, 0, 0, 0, 0, 0, 0, .read⟩,
  ⟨0x40010018, 0x1, 1, 0x1, 1, 0, 0, 0, 0, 0, 0, 0, .read⟩,
  ⟨0x4001001C, 0x1, 1, 0x1, 1, 0, 0, 0, 0, 0, 0, 0, .read⟩,
  ⟨0x40010020, 0x1, 1, 0x1, 1, 0, 0, 0, 0, 0, 0, 0, .read⟩,
  ⟨0x40010040, 0x1, 1, 0x1, 1, 0, 0, 0, 0, 0, 0, 0, .read⟩,
  ⟨0x40010044, 0x1, 1, 0x1, 1, 0, 0, 0, 0, 0, 0, 0, .read⟩,
  ⟨0x40010048, 0x1, 1, 0x1, 1, 0, 0, 0, 0, 0, 0, 0, .read⟩,
  ⟨0x4001004C, 0x1, 1, 0x1, 1, 0, 0, 0, 0, 0, 0, 0, .read⟩,
  ⟨0x40010050, 0x1, 1, 0x1, 1, 0, 0, 0, 0, 0, 0, 0, .read⟩,
  ⟨0x40010054, 0x1, 1, 0x1, 1, 0, 0, 0, 0, 0, 0x1, 0, .read⟩]

/-! ### Block 0x02 CLK: spec/14_clocks_power_reset.md -/

abbrev CLK_CTL : Nat := 0x40020000
abbrev CLK_CTL_LOCK : Fld := ⟨CLK_CTL, 31, 1⟩
abbrev CLK_CTL_MUXL : Fld := ⟨CLK_CTL, 2, 1⟩
abbrev CLK_CTL_MUXF : Fld := ⟨CLK_CTL, 1, 1⟩
abbrev CLK_CTL_MUXM : Fld := ⟨CLK_CTL, 0, 1⟩

abbrev CLK_GATE : Nat := 0x40020004
abbrev CLK_GATE_PLLEN : Fld := ⟨CLK_GATE, 16, 5⟩
abbrev CLK_GATE_MET : Fld := ⟨CLK_GATE, 12, 1⟩
abbrev CLK_GATE_PHY : Fld := ⟨CLK_GATE, 9, 3⟩
abbrev CLK_GATE_DRAM : Fld := ⟨CLK_GATE, 8, 1⟩
abbrev CLK_GATE_LANE : Fld := ⟨CLK_GATE, 4, 4⟩
abbrev CLK_GATE_CAN : Fld := ⟨CLK_GATE, 3, 1⟩
abbrev CLK_GATE_DATA : Fld := ⟨CLK_GATE, 2, 1⟩
abbrev CLK_GATE_CTL : Fld := ⟨CLK_GATE, 1, 1⟩
abbrev CLK_GATE_FAB : Fld := ⟨CLK_GATE, 0, 1⟩

abbrev CLK_STAT : Nat := 0x40020008
abbrev CLK_STAT_OSCDLY : Fld := ⟨CLK_STAT, 30, 2⟩
abbrev CLK_STAT_XTALOK : Fld := ⟨CLK_STAT, 24, 1⟩
abbrev CLK_STAT_LOCKED : Fld := ⟨CLK_STAT, 16, 5⟩
abbrev CLK_STAT_SWPEND : Fld := ⟨CLK_STAT, 4, 3⟩
abbrev CLK_STAT_SEL : Fld := ⟨CLK_STAT, 0, 3⟩

abbrev CLK_MONST : Nat := 0x4002000C
abbrev CLK_MONST_WDARM : Fld := ⟨CLK_MONST, 31, 1⟩
abbrev CLK_MONST_MISS : Fld := ⟨CLK_MONST, 0, 7⟩

abbrev CLK_FMCTL : Nat := 0x40020010
abbrev CLK_FMCTL_GO : Fld := ⟨CLK_FMCTL, 31, 1⟩
abbrev CLK_FMCTL_BUSY : Fld := ⟨CLK_FMCTL, 30, 1⟩
abbrev CLK_FMCTL_SEL : Fld := ⟨CLK_FMCTL, 16, 3⟩
abbrev CLK_FMCTL_GATE : Fld := ⟨CLK_FMCTL, 0, 16⟩

abbrev CLK_FMRES : Nat := 0x40020014
abbrev CLK_FMRES_COUNT : Fld := ⟨CLK_FMRES, 0, 32⟩

/-- The registers of block 0x02. -/
def regsCLK : List RegDesc := [
  ⟨0x40020000, 0x1, 1, 0x1, 1, 0, 0x7, 0, 0, 0x80000000, 0, 0, .none⟩,
  ⟨0x40020004, 0x1, 1, 0x1, 1, 0, 0x1F1F0F, 0, 0, 0, 0, 0, .none⟩,
  ⟨0x40020008, 0x1, 1, 0x1, 1, 0, 0, 0, 0, 0, 0, 0, .none⟩,
  ⟨0x4002000C, 0x1, 1, 0x1, 1, 0, 0, 0, 0x7F, 0, 0, 0, .none⟩,
  ⟨0x40020010, 0x1, 1, 0x1, 1, 0x20, 0x7FFFF, 0, 0, 0, 0x80000000, 0, .none⟩,
  ⟨0x40020014, 0x1, 1, 0x1, 1, 0, 0, 0, 0, 0, 0, 0, .none⟩]

/-! ### Block 0x03 PWR: spec/14_clocks_power_reset.md -/

abbrev PWR_CTL : Nat := 0x40030000
abbrev PWR_CTL_LOCK : Fld := ⟨PWR_CTL, 31, 1⟩
abbrev PWR_CTL_SBEN : Fld := ⟨PWR_CTL, 8, 1⟩

abbrev PWR_OP : Nat := 0x40030004
abbrev PWR_OP_BUSY : Fld := ⟨PWR_OP, 31, 1⟩
abbrev PWR_OP_CUR : Fld := ⟨PWR_OP, 24, 2⟩
abbrev PWR_OP_REQ : Fld := ⟨PWR_OP, 0, 2⟩

abbrev PWR_VMON : Nat := 0x40030008
abbrev PWR_VMON_PFW : Fld := ⟨PWR_VMON, 31, 1⟩
abbrev PWR_VMON_PFWSEEN : Fld := ⟨PWR_VMON, 30, 1⟩
abbrev PWR_VMON_PFWCNT : Fld := ⟨PWR_VMON, 0, 16⟩

abbrev PWR_RAIL : Nat := 0x4003000C
abbrev PWR_RAIL_LOST : Fld := ⟨PWR_RAIL, 16, 8⟩
abbrev PWR_RAIL_PG : Fld := ⟨PWR_RAIL, 0, 8⟩

abbrev PWR_RCAUSE : Nat := 0x40030010
abbrev PWR_RCAUSE_CAUSE : Fld := ⟨PWR_RCAUSE, 0, 4⟩

abbrev PWR_DOM : Nat := 0x40030014
abbrev PWR_DOM_UP : Fld := ⟨PWR_DOM, 0, 15⟩

abbrev PWR_RCMD : Nat := 0x40030018
abbrev PWR_RCMD_GO : Fld := ⟨PWR_RCMD, 31, 1⟩
abbrev PWR_RCMD_DOM : Fld := ⟨PWR_RCMD, 0, 4⟩

abbrev PWR_SBCMD : Nat := 0x4003001C
abbrev PWR_SBCMD_GO : Fld := ⟨PWR_SBCMD, 0, 1⟩

abbrev PWR_SBCFG : Nat := 0x40030020
abbrev PWR_SBCFG_HOSTDB : Fld := ⟨PWR_SBCFG, 2, 1⟩
abbrev PWR_SBCFG_RTCPER : Fld := ⟨PWR_SBCFG, 1, 1⟩
abbrev PWR_SBCFG_RTCALM : Fld := ⟨PWR_SBCFG, 0, 1⟩

abbrev PWR_SBSTAT : Nat := 0x40030024
abbrev PWR_SBSTAT_SRC : Fld := ⟨PWR_SBSTAT, 28, 4⟩
abbrev PWR_SBSTAT_REASON : Fld := ⟨PWR_SBSTAT, 24, 3⟩
abbrev PWR_SBSTAT_WAKET : Fld := ⟨PWR_SBSTAT, 0, 16⟩

abbrev PWR_SBDURL : Nat := 0x40030028
abbrev PWR_SBDURL_DUR : Fld := ⟨PWR_SBDURL, 0, 32⟩

abbrev PWR_SBDURH : Nat := 0x4003002C
abbrev PWR_SBDURH_DUR : Fld := ⟨PWR_SBDURH, 0, 32⟩

abbrev PWR_XSEL : Nat := 0x40030030
abbrev PWR_XSEL_DOM : Fld := ⟨PWR_XSEL, 0, 4⟩

abbrev PWR_XSTAT : Nat := 0x40030034
abbrev PWR_XSTAT_PEERUP : Fld := ⟨PWR_XSTAT, 31, 1⟩
abbrev PWR_XSTAT_DROPS : Fld := ⟨PWR_XSTAT, 0, 16⟩

abbrev PWR_XABS : Nat := 0x40030038
abbrev PWR_XABS_COUNT : Fld := ⟨PWR_XABS, 0, 16⟩

/-- The registers of block 0x03, part 0. -/
def regsPWR0 : List RegDesc := [
  ⟨0x40030000, 0x1, 1, 0x1, 1, 0x100, 0, 0x100, 0, 0x80000000, 0, 0, .read⟩,
  ⟨0x40030004, 0x1, 1, 0x1, 1, 0x3000003, 0x3, 0, 0, 0, 0, 0, .read⟩,
  ⟨0x40030008, 0x1, 1, 0x1, 1, 0, 0, 0, 0x40000000, 0, 0, 0, .read⟩,
  ⟨0x4003000C, 0x1, 1, 0x1, 1, 0, 0, 0, 0xFF0000, 0, 0, 0, .read⟩,
  ⟨0x40030010, 0x1, 1, 0x1, 1, 0, 0, 0, 0, 0, 0, 0, .read⟩,
  ⟨0x40030014, 0x1, 1, 0x1, 1, 0x1, 0, 0, 0, 0, 0, 0, .read⟩,
  ⟨0x40030018, 0x1, 1, 0x1, 1, 0, 0, 0, 0, 0, 0x8000000F, 0, .read⟩,
  ⟨0x4003001C, 0x1, 1, 0x1, 1, 0, 0, 0, 0, 0, 0x1, 0, .read⟩,
  ⟨0x40030020, 0x1, 1, 0x1, 1, 0x7, 0x7, 0, 0, 0, 0, 0, .read⟩,
  ⟨0x40030024, 0x1, 1, 0x1, 1, 0, 0, 0, 0, 0, 0, 0, .read⟩,
  ⟨0x40030028, 0x1, 1, 0x1, 1, 0, 0, 0, 0, 0, 0, 0, .read⟩,
  ⟨0x4003002C, 0x1, 1, 0x1, 1, 0, 0, 0, 0, 0, 0, 0, .read⟩,
  ⟨0x40030030, 0x1, 1, 0x1, 1, 0, 0xF, 0, 0, 0, 0, 0, .read⟩,
  ⟨0x40030034, 0x1, 1, 0x1, 1, 0, 0, 0, 0, 0, 0, 0xFFFF, .read⟩]

/-- The registers of block 0x03, part 1. -/
def regsPWR1 : List RegDesc := [
  ⟨0x40030038, 0x1, 1, 0x1, 1, 0, 0, 0, 0, 0, 0, 0xFFFF, .read⟩]

/-- The registers of block 0x03. -/
def regsPWR : List RegDesc := regsPWR0 ++ regsPWR1

/-! ### Block 0x04 ANG: spec/02_mains_angle_clock.md -/

abbrev ANG_CTL : Nat := 0x40040000
abbrev ANG_CTL_LOCK : Fld := ⟨ANG_CTL, 31, 1⟩
abbrev ANG_CTL_NOM : Fld := ⟨ANG_CTL, 24, 1⟩
abbrev ANG_CTL_PK : Fld := ⟨ANG_CTL, 20, 3⟩
abbrev ANG_CTL_FK : Fld := ⟨ANG_CTL, 16, 3⟩
abbrev ANG_CTL_QUAL : Fld := ⟨ANG_CTL, 8, 5⟩
abbrev ANG_CTL_HOFS : Fld := ⟨ANG_CTL, 4, 1⟩
abbrev ANG_CTL_REFCH : Fld := ⟨ANG_CTL, 1, 3⟩
abbrev ANG_CTL_RUN : Fld := ⟨ANG_CTL, 0, 1⟩

abbrev ANG_STAT : Nat := 0x40040004
abbrev ANG_STAT_GOODCNT : Fld := ⟨ANG_STAT, 8, 8⟩
abbrev ANG_STAT_HCAUSE : Fld := ⟨ANG_STAT, 4, 4⟩
abbrev ANG_STAT_NOGOOD : Fld := ⟨ANG_STAT, 3, 1⟩
abbrev ANG_STAT_SLEWING : Fld := ⟨ANG_STAT, 2, 1⟩
abbrev ANG_STAT_STATE : Fld := ⟨ANG_STAT, 0, 2⟩

abbrev ANG_FREQ : Nat := 0x40040008
abbrev ANG_FREQ_F : Fld := ⟨ANG_FREQ, 0, 32⟩

abbrev ANG_FGOOD : Nat := 0x4004000C
abbrev ANG_FGOOD_FGOOD : Fld := ⟨ANG_FGOOD, 0, 32⟩

abbrev ANG_PERR : Nat := 0x40040010
abbrev ANG_PERR_E : Fld := ⟨ANG_PERR, 0, 16⟩

abbrev ANG_OFS : Nat := 0x40040014
abbrev ANG_OFS_OFS : Fld := ⟨ANG_OFS, 0, 16⟩

abbrev ANG_SLEW : Nat := 0x40040018
abbrev ANG_SLEW_PMAX : Fld := ⟨ANG_SLEW, 16, 6⟩
abbrev ANG_SLEW_FSLEW : Fld := ⟨ANG_SLEW, 0, 16⟩

abbrev ANG_VMIN : Nat := 0x4004001C
abbrev ANG_VMIN_PCT : Fld := ⟨ANG_VMIN, 0, 7⟩

abbrev ANG_TIMEL : Nat := 0x40040020
abbrev ANG_TIMEL_TIME : Fld := ⟨ANG_TIMEL, 0, 32⟩

abbrev ANG_TIMEH : Nat := 0x40040024
abbrev ANG_TIMEH_TIME : Fld := ⟨ANG_TIMEH, 0, 32⟩

abbrev ANG_CYC : Nat := 0x40040028
abbrev ANG_CYC_N : Fld := ⟨ANG_CYC, 0, 7⟩

abbrev ANG_PHG : Nat := 0x4004002C
abbrev ANG_PHG_AU : Fld := ⟨ANG_PHG, 0, 22⟩

abbrev ANG_PHC : Nat := 0x40040030
abbrev ANG_PHC_AU : Fld := ⟨ANG_PHC, 0, 22⟩

abbrev ANG_PHV : Nat := 0x40040034
abbrev ANG_PHV_AU : Fld := ⟨ANG_PHV, 0, 22⟩

abbrev ANG_SNAP : Nat := 0x40040040
abbrev ANG_SNAP_GO : Fld := ⟨ANG_SNAP, 0, 1⟩

abbrev ANG_SNTL : Nat := 0x40040044
abbrev ANG_SNTL_TIME : Fld := ⟨ANG_SNTL, 0, 32⟩

abbrev ANG_SNTH : Nat := 0x40040048
abbrev ANG_SNTH_TIME : Fld := ⟨ANG_SNTH, 0, 32⟩

abbrev ANG_SNRS : Nat := 0x4004004C
abbrev ANG_SNRS_SEC : Fld := ⟨ANG_SNRS, 0, 32⟩

abbrev ANG_SNRF : Nat := 0x40040050
abbrev ANG_SNRF_SUB : Fld := ⟨ANG_SNRF, 0, 15⟩

/-- The registers of block 0x04, part 0. -/
def regsANG0 : List RegDesc := [
  ⟨0x40040000, 0x1, 1, 0x1, 1, 0x331000, 0x11, 0x771F0E, 0, 0x80000000, 0, 0, .read⟩,
  ⟨0x40040004, 0x1, 1, 0x1, 1, 0x8, 0, 0, 0, 0, 0, 0, .read⟩,
  ⟨0x40040008, 0x1, 1, 0x1, 1, 0x320000, 0, 0, 0, 0, 0, 0, .read⟩,
  ⟨0x4004000C, 0x1, 1, 0x1, 1, 0x320000, 0, 0, 0, 0, 0, 0, .read⟩,
  ⟨0x40040010, 0x1, 1, 0x1, 1, 0, 0, 0, 0, 0, 0, 0, .read⟩,
  ⟨0x40040014, 0x1, 1, 0x1, 1, 0, 0, 0xFFFF, 0, 0, 0, 0, .read⟩,
  ⟨0x40040018, 0x1, 1, 0x1, 1, 0x100290, 0, 0x3FFFFF, 0, 0, 0, 0, .read⟩,
  ⟨0x4004001C, 0x1, 1, 0x1, 1, 0x3C, 0, 0x7F, 0, 0, 0, 0, .read⟩,
  ⟨0x40040020, 0x1, 1, 0x1, 1, 0, 0, 0, 0, 0, 0, 0, .read⟩,
  ⟨0x40040024, 0x1, 1, 0x1, 1, 0, 0, 0, 0, 0, 0, 0, .read⟩,
  ⟨0x40040028, 0x1, 1, 0x1, 1, 0x2, 0x7F, 0, 0, 0, 0, 0, .read⟩,
  ⟨0x4004002C, 0x1, 1, 0x1, 1, 0x2000, 0x3FFFFF, 0, 0, 0, 0, 0, .read⟩,
  ⟨0x40040030, 0x1, 1, 0x1, 1, 0xD000, 0x3FFFFF, 0, 0, 0, 0, 0, .read⟩,
  ⟨0x40040034, 0x1, 1, 0x1, 1, 0xE000, 0x3FFFFF, 0, 0, 0, 0, 0, .read⟩]

/-- The registers of block 0x04, part 1. -/
def regsANG1 : List RegDesc := [
  ⟨0x40040040, 0x1, 1, 0x1, 1, 0, 0, 0, 0, 0, 0x1, 0, .read⟩,
  ⟨0x40040044, 0x1, 1, 0x1, 1, 0, 0, 0, 0, 0, 0, 0, .read⟩,
  ⟨0x40040048, 0x1, 1, 0x1, 1, 0, 0, 0, 0, 0, 0, 0, .read⟩,
  ⟨0x4004004C, 0x1, 1, 0x1, 1, 0, 0, 0, 0, 0, 0, 0, .read⟩,
  ⟨0x40040050, 0x1, 1, 0x1, 1, 0, 0, 0, 0, 0, 0, 0, .read⟩]

/-- The registers of block 0x04. -/
def regsANG : List RegDesc := regsANG0 ++ regsANG1

/-! ### Block 0x05 RTC: spec/15_cellar_and_rtc.md -/

abbrev RTC_CTL : Nat := 0x40050000
abbrev RTC_CTL_LOCK : Fld := ⟨RTC_CTL, 31, 1⟩
abbrev RTC_CTL_TCEN : Fld := ⟨RTC_CTL, 0, 1⟩

abbrev RTC_STAT : Nat := 0x40050004
abbrev RTC_STAT_VALID : Fld := ⟨RTC_STAT, 31, 1⟩
abbrev RTC_STAT_SHPEND : Fld := ⟨RTC_STAT, 30, 1⟩
abbrev RTC_STAT_BUSY : Fld := ⟨RTC_STAT, 8, 1⟩
abbrev RTC_STAT_ADJCNT : Fld := ⟨RTC_STAT, 0, 8⟩

abbrev RTC_TIMES : Nat := 0x40050008
abbrev RTC_TIMES_SEC : Fld := ⟨RTC_TIMES, 0, 32⟩

abbrev RTC_TIMEF : Nat := 0x4005000C
abbrev RTC_TIMEF_SUB : Fld := ⟨RTC_TIMEF, 0, 15⟩

abbrev RTC_CAL0 : Nat := 0x40050010
abbrev RTC_CAL0_YEAR : Fld := ⟨RTC_CAL0, 16, 16⟩
abbrev RTC_CAL0_MONTH : Fld := ⟨RTC_CAL0, 8, 8⟩
abbrev RTC_CAL0_DAY : Fld := ⟨RTC_CAL0, 0, 8⟩

abbrev RTC_CAL1 : Nat := 0x40050014
abbrev RTC_CAL1_HOUR : Fld := ⟨RTC_CAL1, 16, 5⟩
abbrev RTC_CAL1_MIN : Fld := ⟨RTC_CAL1, 8, 6⟩
abbrev RTC_CAL1_SEC : Fld := ⟨RTC_CAL1, 0, 6⟩

abbrev RTC_WDAY : Nat := 0x40050018
abbrev RTC_WDAY_WDAY : Fld := ⟨RTC_WDAY, 0, 3⟩

abbrev RTC_SETS : Nat := 0x4005001C
abbrev RTC_SETS_SEC : Fld := ⟨RTC_SETS, 0, 32⟩

abbrev RTC_SETF : Nat := 0x40050020
abbrev RTC_SETF_SUB : Fld := ⟨RTC_SETF, 0, 15⟩

abbrev RTC_SHIFT : Nat := 0x40050024
abbrev RTC_SHIFT_K : Fld := ⟨RTC_SHIFT, 0, 16⟩

abbrev RTC_CMD : Nat := 0x40050028
abbrev RTC_CMD_SET : Fld := ⟨RTC_CMD, 0, 1⟩
abbrev RTC_CMD_SHIFT : Fld := ⟨RTC_CMD, 1, 1⟩
abbrev RTC_CMD_ALMARM : Fld := ⟨RTC_CMD, 2, 1⟩
abbrev RTC_CMD_ALMOFF : Fld := ⟨RTC_CMD, 3, 1⟩
abbrev RTC_CMD_PERON : Fld := ⟨RTC_CMD, 4, 1⟩
abbrev RTC_CMD_PEROFF : Fld := ⟨RTC_CMD, 5, 1⟩

abbrev RTC_ALMS : Nat := 0x40050030
abbrev RTC_ALMS_SEC : Fld := ⟨RTC_ALMS, 0, 32⟩

abbrev RTC_ALMR : Nat := 0x40050034
abbrev RTC_ALMR_SEC : Fld := ⟨RTC_ALMR, 0, 32⟩

abbrev RTC_ALMST : Nat := 0x40050038
abbrev RTC_ALMST_ARMED : Fld := ⟨RTC_ALMST, 31, 1⟩
abbrev RTC_ALMST_SKIPPED : Fld := ⟨RTC_ALMST, 30, 1⟩
abbrev RTC_ALMST_OFFPWR : Fld := ⟨RTC_ALMST, 29, 1⟩
abbrev RTC_ALMST_SKIPCNT : Fld := ⟨RTC_ALMST, 0, 16⟩

abbrev RTC_ALMLAST : Nat := 0x4005003C
abbrev RTC_ALMLAST_SEC : Fld := ⟨RTC_ALMLAST, 0, 32⟩

abbrev RTC_ALMNEXT : Nat := 0x40050040
abbrev RTC_ALMNEXT_SEC : Fld := ⟨RTC_ALMNEXT, 0, 32⟩

abbrev RTC_PER : Nat := 0x40050044
abbrev RTC_PER_PEREN : Fld := ⟨RTC_PER, 31, 1⟩
abbrev RTC_PER_P : Fld := ⟨RTC_PER, 0, 24⟩

abbrev RTC_INT : Nat := 0x40050048
abbrev RTC_INT_PER : Fld := ⟨RTC_INT, 1, 1⟩
abbrev RTC_INT_ALM : Fld := ⟨RTC_INT, 0, 1⟩

abbrev RTC_INTEN : Nat := 0x4005004C
abbrev RTC_INTEN_ALM : Fld := ⟨RTC_INTEN, 0, 1⟩

abbrev RTC_TCT : Nat := 0x40050050
abbrev RTC_TCT_OFS : Fld := ⟨RTC_TCT, 16, 16⟩
abbrev RTC_TCT_T0 : Fld := ⟨RTC_TCT, 0, 16⟩

abbrev RTC_TCK : Nat := 0x40050054
abbrev RTC_TCK_K : Fld := ⟨RTC_TCK, 0, 16⟩

abbrev RTC_TEMP : Nat := 0x40050058
abbrev RTC_TEMP_E : Fld := ⟨RTC_TEMP, 16, 16⟩
abbrev RTC_TEMP_T : Fld := ⟨RTC_TEMP, 0, 16⟩

/-- The registers of block 0x05, part 0. -/
def regsRTC0 : List RegDesc := [
  ⟨0x40050000, 0x1, 1, 0x1, 1, 0x1, 0, 0x1, 0, 0x80000000, 0, 0, .read⟩,
  ⟨0x40050004, 0x1, 1, 0x1, 1, 0, 0, 0, 0, 0, 0, 0, .full⟩,
  ⟨0x40050008, 0x1, 1, 0x1, 1, 0, 0, 0, 0, 0, 0, 0, .full⟩,
  ⟨0x4005000C, 0x1, 1, 0x1, 1, 0, 0, 0, 0, 0, 0, 0, .full⟩,
  ⟨0x40050010, 0x1, 1, 0x1, 1, 0x7D00101, 0, 0, 0, 0, 0, 0, .full⟩,
  ⟨0x40050014, 0x1, 1, 0x1, 1, 0, 0, 0, 0, 0, 0, 0, .full⟩,
  ⟨0x40050018, 0x1, 1, 0x1, 1, 0x6, 0x7, 0, 0, 0, 0, 0, .full⟩,
  ⟨0x4005001C, 0x1, 1, 0x1, 1, 0, 0xFFFFFFFF, 0, 0, 0, 0, 0, .full⟩,
  ⟨0x40050020, 0x1, 1, 0x1, 1, 0, 0x7FFF, 0, 0, 0, 0, 0, .full⟩,
  ⟨0x40050024, 0x1, 1, 0x1, 1, 0, 0xFFFF, 0, 0, 0, 0, 0, .full⟩,
  ⟨0x40050028, 0x1, 1, 0x1, 1, 0, 0, 0, 0, 0, 0x3F, 0, .full⟩,
  ⟨0x40050030, 0x1, 1, 0x1, 1, 0, 0xFFFFFFFF, 0, 0, 0, 0, 0, .full⟩,
  ⟨0x40050034, 0x1, 1, 0x1, 1, 0, 0xFFFFFFFF, 0, 0, 0, 0, 0, .full⟩,
  ⟨0x40050038, 0x1, 1, 0x1, 1, 0, 0, 0, 0, 0, 0, 0, .full⟩]

/-- The registers of block 0x05, part 1. -/
def regsRTC1 : List RegDesc := [
  ⟨0x4005003C, 0x1, 1, 0x1, 1, 0, 0, 0, 0, 0, 0, 0, .full⟩,
  ⟨0x40050040, 0x1, 1, 0x1, 1, 0, 0, 0, 0, 0, 0, 0, .full⟩,
  ⟨0x40050044, 0x1, 1, 0x1, 1, 0, 0xFFFFFF, 0, 0, 0, 0, 0, .full⟩,
  ⟨0x40050048, 0x1, 1, 0x1, 1, 0, 0, 0, 0x3, 0, 0, 0, .full⟩,
  ⟨0x4005004C, 0x1, 1, 0x1, 1, 0, 0x1, 0, 0, 0, 0, 0, .full⟩,
  ⟨0x40050050, 0x1, 1, 0x1, 1, 0xFA, 0, 0xFFFFFFFF, 0, 0, 0, 0, .read⟩,
  ⟨0x40050054, 0x1, 1, 0x1, 1, 0xF74C, 0, 0xFFFF, 0, 0, 0, 0, .read⟩,
  ⟨0x40050058, 0x1, 1, 0x1, 1, 0, 0, 0, 0, 0, 0, 0, .full⟩]

/-- The registers of block 0x05. -/
def regsRTC : List RegDesc := regsRTC0 ++ regsRTC1

/-! ### Block 0x06 CEL: spec/15_cellar_and_rtc.md -/

abbrev CEL_CTL : Nat := 0x40060000
abbrev CEL_CTL_LOCK : Fld := ⟨CEL_CTL, 31, 1⟩

abbrev CEL_STAT : Nat := 0x40060004
abbrev CEL_STAT_INTOK : Fld := ⟨CEL_STAT, 31, 1⟩
abbrev CEL_STAT_LOST : Fld := ⟨CEL_STAT, 30, 1⟩
abbrev CEL_STAT_SRC : Fld := ⟨CEL_STAT, 2, 1⟩

abbrev CEL_CELL : Nat := 0x40060008
abbrev CEL_CELL_LOW : Fld := ⟨CEL_CELL, 16, 1⟩
abbrev CEL_CELL_MV : Fld := ⟨CEL_CELL, 0, 16⟩

abbrev CEL_CLOW : Nat := 0x4006000C
abbrev CEL_CLOW_MV : Fld := ⟨CEL_CLOW, 0, 16⟩

abbrev CEL_TAMP : Nat := 0x40060010
abbrev CEL_TAMP_SRC : Fld := ⟨CEL_TAMP, 0, 6⟩

abbrev CEL_INTEG : Nat := 0x40060014
abbrev CEL_INTEG_INTEG : Fld := ⟨CEL_INTEG, 0, 32⟩

abbrev CEL_SCR (n : Nat) : Nat := 0x40060020 + n * 0x4
abbrev CEL_SCR_WORD (n : Nat) : Fld := ⟨CEL_SCR n, 0, 32⟩

/-- The registers of block 0x06. -/
def regsCEL : List RegDesc := [
  ⟨0x40060000, 0x1, 1, 0x1, 1, 0, 0, 0, 0, 0x80000000, 0, 0, .none⟩,
  ⟨0x40060004, 0x1, 1, 0x1, 1, 0, 0, 0, 0, 0, 0, 0, .none⟩,
  ⟨0x40060008, 0x1, 1, 0x1, 1, 0, 0, 0, 0x10000, 0, 0, 0, .none⟩,
  ⟨0x4006000C, 0x1, 1, 0x1, 1, 0x898, 0, 0xFFFF, 0, 0, 0, 0, .none⟩,
  ⟨0x40060010, 0x1, 1, 0x1, 1, 0, 0, 0, 0, 0, 0, 0, .none⟩,
  ⟨0x40060014, 0x1, 1, 0x1, 1, 0, 0, 0, 0, 0, 0, 0, .none⟩,
  ⟨0x40060020, 0x4, 8, 0x1, 1, 0, 0xFFFFFFFF, 0, 0, 0, 0, 0, .none⟩]

/-! ### Block 0x07 KEY: spec/16_keys_tamper_lockers.md -/

abbrev KEY_CTL : Nat := 0x40070000
abbrev KEY_CTL_LOCK : Fld := ⟨KEY_CTL, 31, 1⟩

abbrev KEY_STAT : Nat := 0x40070004
abbrev KEY_STAT_ROOT : Fld := ⟨KEY_STAT, 0, 2⟩
abbrev KEY_STAT_DEBUG : Fld := ⟨KEY_STAT, 2, 1⟩
abbrev KEY_STAT_BUSY : Fld := ⟨KEY_STAT, 3, 1⟩
abbrev KEY_STAT_TLIVE : Fld := ⟨KEY_STAT, 4, 6⟩

abbrev KEY_CMD : Nat := 0x40070008
abbrev KEY_CMD_GO : Fld := ⟨KEY_CMD, 31, 1⟩
abbrev KEY_CMD_OP : Fld := ⟨KEY_CMD, 24, 4⟩
abbrev KEY_CMD_SLOT : Fld := ⟨KEY_CMD, 16, 5⟩
abbrev KEY_CMD_PARENT : Fld := ⟨KEY_CMD, 8, 5⟩
abbrev KEY_CMD_KIND : Fld := ⟨KEY_CMD, 4, 4⟩

abbrev KEY_SRC : Nat := 0x4007000C
abbrev KEY_SRC_ADDR : Fld := ⟨KEY_SRC, 0, 32⟩

abbrev KEY_SLEN : Nat := 0x40070010
abbrev KEY_SLEN_LEN : Fld := ⟨KEY_SLEN, 0, 16⟩

abbrev KEY_DST : Nat := 0x40070014
abbrev KEY_DST_ADDR : Fld := ⟨KEY_DST, 0, 32⟩

abbrev KEY_DLEN : Nat := 0x40070018
abbrev KEY_DLEN_LEN : Fld := ⟨KEY_DLEN, 0, 16⟩

abbrev KEY_RES : Nat := 0x4007001C
abbrev KEY_RES_DONE : Fld := ⟨KEY_RES, 31, 1⟩
abbrev KEY_RES_CODE : Fld := ⟨KEY_RES, 0, 16⟩

abbrev KEY_SLOT (n : Nat) : Nat := 0x40070040 + n * 0x4
abbrev KEY_SLOT_STATE (n : Nat) : Fld := ⟨KEY_SLOT n, 0, 2⟩
abbrev KEY_SLOT_KIND (n : Nat) : Fld := ⟨KEY_SLOT n, 4, 4⟩
abbrev KEY_SLOT_PARENT (n : Nat) : Fld := ⟨KEY_SLOT n, 8, 5⟩

abbrev KEY_FBURN : Nat := 0x40070100
abbrev KEY_FBURN_GO : Fld := ⟨KEY_FBURN, 31, 1⟩
abbrev KEY_FBURN_WORD : Fld := ⟨KEY_FBURN, 0, 6⟩

abbrev KEY_FDATA : Nat := 0x40070104
abbrev KEY_FDATA_BITS : Fld := ⟨KEY_FDATA, 0, 32⟩

abbrev KEY_FRES : Nat := 0x40070108
abbrev KEY_FRES_DONE : Fld := ⟨KEY_FRES, 31, 1⟩
abbrev KEY_FRES_CODE : Fld := ⟨KEY_FRES, 0, 16⟩

/-- The registers of block 0x07. -/
def regsKEY : List RegDesc := [
  ⟨0x40070000, 0x1, 1, 0x1, 1, 0, 0, 0, 0, 0x80000000, 0, 0, .none⟩,
  ⟨0x40070004, 0x1, 1, 0x1, 1, 0, 0, 0, 0, 0, 0, 0, .none⟩,
  ⟨0x40070008, 0x1, 1, 0x1, 1, 0, 0, 0, 0, 0, 0x8F1F1FF0, 0, .none⟩,
  ⟨0x4007000C, 0x1, 1, 0x1, 1, 0x10000000, 0xFFFFFFFF, 0, 0, 0, 0, 0, .none⟩,
  ⟨0x40070010, 0x1, 1, 0x1, 1, 0, 0xFFFF, 0, 0, 0, 0, 0, .none⟩,
  ⟨0x40070014, 0x1, 1, 0x1, 1, 0x10000000, 0xFFFFFFFF, 0, 0, 0, 0, 0, .none⟩,
  ⟨0x40070018, 0x1, 1, 0x1, 1, 0, 0xFFFF, 0, 0, 0, 0, 0, .none⟩,
  ⟨0x4007001C, 0x1, 1, 0x1, 1, 0, 0, 0, 0, 0, 0, 0, .none⟩,
  ⟨0x40070040, 0x4, 32, 0x1, 1, 0, 0, 0, 0, 0, 0, 0, .none⟩,
  ⟨0x40070100, 0x1, 1, 0x1, 1, 0, 0, 0, 0, 0, 0x8000003F, 0, .none⟩,
  ⟨0x40070104, 0x1, 1, 0x1, 1, 0, 0xFFFFFFFF, 0, 0, 0, 0, 0, .none⟩,
  ⟨0x40070108, 0x1, 1, 0x1, 1, 0, 0, 0, 0, 0, 0, 0, .none⟩]

/-! ### Block 0x08 UPD: spec/17_startup_and_image_update.md -/

abbrev UPD_CTL : Nat := 0x40080000
abbrev UPD_CTL_LOCK : Fld := ⟨UPD_CTL, 31, 1⟩
abbrev UPD_CTL_PERPART : Fld := ⟨UPD_CTL, 8, 1⟩

abbrev UPD_STAT : Nat := 0x40080004
abbrev UPD_STAT_FAILPART : Fld := ⟨UPD_STAT, 24, 8⟩
abbrev UPD_STAT_SRC : Fld := ⟨UPD_STAT, 9, 1⟩
abbrev UPD_STAT_FW : Fld := ⟨UPD_STAT, 8, 1⟩
abbrev UPD_STAT_STATE : Fld := ⟨UPD_STAT, 3, 3⟩
abbrev UPD_STAT_PANTRY : Fld := ⟨UPD_STAT, 0, 3⟩

abbrev UPD_CMD : Nat := 0x40080008
abbrev UPD_CMD_GO : Fld := ⟨UPD_CMD, 31, 1⟩
abbrev UPD_CMD_OP : Fld := ⟨UPD_CMD, 0, 8⟩

abbrev UPD_ARG (n : Nat) : Nat := 0x4008000C + n * 0x4
abbrev UPD_ARG_ARG (n : Nat) : Fld := ⟨UPD_ARG n, 0, 32⟩

abbrev UPD_RES : Nat := 0x4008001C
abbrev UPD_RES_DONE : Fld := ⟨UPD_RES, 31, 1⟩
abbrev UPD_RES_BUSY : Fld := ⟨UPD_RES, 30, 1⟩
abbrev UPD_RES_CODE : Fld := ⟨UPD_RES, 0, 16⟩

abbrev UPD_INT : Nat := 0x40080020
abbrev UPD_INT_DONE : Fld := ⟨UPD_INT, 0, 1⟩

abbrev UPD_INTEN : Nat := 0x40080024
abbrev UPD_INTEN_DONE : Fld := ⟨UPD_INTEN, 0, 1⟩

abbrev UPD_TMO : Nat := 0x40080028
abbrev UPD_TMO_IDLE : Fld := ⟨UPD_TMO, 8, 8⟩
abbrev UPD_TMO_HOST : Fld := ⟨UPD_TMO, 0, 8⟩

abbrev UPD_SETID : Nat := 0x4008002C
abbrev UPD_SETID_SETID : Fld := ⟨UPD_SETID, 0, 32⟩

abbrev UPD_PSETID : Nat := 0x40080030
abbrev UPD_PSETID_SETID : Fld := ⟨UPD_PSETID, 0, 32⟩

abbrev UPD_ACYC : Nat := 0x40080034
abbrev UPD_ACYC_F : Fld := ⟨UPD_ACYC, 0, 32⟩

abbrev UPD_BYTES : Nat := 0x40080038
abbrev UPD_BYTES_COUNT : Fld := ⟨UPD_BYTES, 0, 32⟩

abbrev UPD_BUF (n : Nat) : Nat := 0x40088000 + n * 0x4
abbrev UPD_BUF_DATA (n : Nat) : Fld := ⟨UPD_BUF n, 0, 32⟩

/-- The registers of block 0x08. -/
def regsUPD : List RegDesc := [
  ⟨0x40080000, 0x1, 1, 0x1, 1, 0, 0, 0x100, 0, 0x80000000, 0, 0, .full⟩,
  ⟨0x40080004, 0x1, 1, 0x1, 1, 0, 0, 0, 0, 0, 0, 0, .full⟩,
  ⟨0x40080008, 0x1, 1, 0x1, 1, 0, 0, 0, 0, 0, 0x800000FF, 0, .full⟩,
  ⟨0x4008000C, 0x4, 4, 0x1, 1, 0, 0xFFFFFFFF, 0, 0, 0, 0, 0, .full⟩,
  ⟨0x4008001C, 0x1, 1, 0x1, 1, 0, 0, 0, 0, 0, 0, 0, .full⟩,
  ⟨0x40080020, 0x1, 1, 0x1, 1, 0, 0, 0, 0x1, 0, 0, 0, .full⟩,
  ⟨0x40080024, 0x1, 1, 0x1, 1, 0, 0x1, 0, 0, 0, 0, 0, .full⟩,
  ⟨0x40080028, 0x1, 1, 0x1, 1, 0xA3C, 0, 0xFFFF, 0, 0, 0, 0, .full⟩,
  ⟨0x4008002C, 0x1, 1, 0x1, 1, 0, 0, 0, 0, 0, 0, 0, .full⟩,
  ⟨0x40080030, 0x1, 1, 0x1, 1, 0, 0, 0, 0, 0, 0, 0, .full⟩,
  ⟨0x40080034, 0x1, 1, 0x1, 1, 0, 0, 0, 0, 0, 0, 0, .full⟩,
  ⟨0x40080038, 0x1, 1, 0x1, 1, 0, 0, 0, 0, 0, 0, 0, .full⟩,
  ⟨0x40088000, 0x4, 8192, 0x1, 1, 0, 0xFFFFFFFF, 0, 0, 0, 0, 0, .full⟩]

/-! ### Block 0x09 EVR: spec/18_management_and_event_recorder.md -/

abbrev EVR_CTL : Nat := 0x40090000
abbrev EVR_CTL_LOCK : Fld := ⟨EVR_CTL, 31, 1⟩

abbrev EVR_STAT : Nat := 0x40090004
abbrev EVR_STAT_READY : Fld := ⟨EVR_STAT, 31, 1⟩
abbrev EVR_STAT_FLUSHING : Fld := ⟨EVR_STAT, 30, 1⟩
abbrev EVR_STAT_CLEARING : Fld := ⟨EVR_STAT, 29, 1⟩
abbrev EVR_STAT_UNFL : Fld := ⟨EVR_STAT, 0, 12⟩

abbrev EVR_SEQ : Nat := 0x40090008
abbrev EVR_SEQ_SEQ : Fld := ⟨EVR_SEQ, 0, 32⟩

abbrev EVR_FSEQ : Nat := 0x4009000C
abbrev EVR_FSEQ_SEQ : Fld := ⟨EVR_FSEQ, 0, 32⟩

abbrev EVR_FCFG : Nat := 0x40090010
abbrev EVR_FCFG_SEC : Fld := ⟨EVR_FCFG, 16, 8⟩
abbrev EVR_FCFG_MARK : Fld := ⟨EVR_FCFG, 0, 11⟩

abbrev EVR_RLOST : Nat := 0x40090014
abbrev EVR_RLOST_COUNT : Fld := ⟨EVR_RLOST, 0, 32⟩

abbrev EVR_LLOST : Nat := 0x40090018
abbrev EVR_LLOST_COUNT : Fld := ⟨EVR_LLOST, 0, 32⟩

abbrev EVR_LCNT : Nat := 0x4009001C
abbrev EVR_LCNT_COUNT : Fld := ⟨EVR_LCNT, 0, 18⟩

abbrev EVR_INT : Nat := 0x40090020
abbrev EVR_INT_EVT : Fld := ⟨EVR_INT, 0, 1⟩

abbrev EVR_INTEN : Nat := 0x40090024
abbrev EVR_INTEN_ISEV : Fld := ⟨EVR_INTEN, 4, 2⟩
abbrev EVR_INTEN_EN : Fld := ⟨EVR_INTEN, 0, 1⟩

abbrev EVR_CBIND (n : Nat) : Nat := 0x40090100 + n * 0x40
abbrev EVR_CBIND_VALID (n : Nat) : Fld := ⟨EVR_CBIND n, 31, 1⟩
abbrev EVR_CBIND_WRITE (n : Nat) : Fld := ⟨EVR_CBIND n, 16, 1⟩
abbrev EVR_CBIND_LOCKER (n : Nat) : Fld := ⟨EVR_CBIND n, 0, 10⟩

abbrev EVR_CPOS (n : Nat) : Nat := 0x40090104 + n * 0x40
abbrev EVR_CPOS_POS (n : Nat) : Fld := ⟨EVR_CPOS n, 0, 32⟩

abbrev EVR_CSTAT (n : Nat) : Nat := 0x40090108 + n * 0x40
abbrev EVR_CSTAT_LOST (n : Nat) : Fld := ⟨EVR_CSTAT n, 0, 16⟩

abbrev EVR_CCLR (n : Nat) : Nat := 0x4009010C + n * 0x40
abbrev EVR_CCLR_S (n : Nat) : Fld := ⟨EVR_CCLR n, 0, 32⟩

abbrev EVR_CDAT (n k : Nat) : Nat := 0x40090120 + n * 0x40 + k * 0x4
abbrev EVR_CDAT_WORD (n k : Nat) : Fld := ⟨EVR_CDAT n k, 0, 32⟩

/-- The registers of block 0x09, part 0. -/
def regsEVR0 : List RegDesc := [
  ⟨0x40090000, 0x1, 1, 0x1, 1, 0, 0, 0, 0, 0x80000000, 0, 0, .full⟩,
  ⟨0x40090004, 0x1, 1, 0x1, 1, 0, 0, 0, 0, 0, 0, 0, .full⟩,
  ⟨0x40090008, 0x1, 1, 0x1, 1, 0, 0, 0, 0, 0, 0, 0, .full⟩,
  ⟨0x4009000C, 0x1, 1, 0x1, 1, 0, 0, 0, 0, 0, 0, 0, .full⟩,
  ⟨0x40090010, 0x1, 1, 0x1, 1, 0xA0100, 0, 0xFF07FF, 0, 0, 0, 0, .read⟩,
  ⟨0x40090014, 0x1, 1, 0x1, 1, 0, 0, 0, 0, 0, 0, 0xFFFFFFFF, .full⟩,
  ⟨0x40090018, 0x1, 1, 0x1, 1, 0, 0, 0, 0, 0, 0, 0xFFFFFFFF, .full⟩,
  ⟨0x4009001C, 0x1, 1, 0x1, 1, 0, 0, 0, 0, 0, 0, 0, .full⟩,
  ⟨0x40090020, 0x1, 1, 0x1, 1, 0, 0, 0, 0x1, 0, 0, 0, .full⟩,
  ⟨0x40090024, 0x1, 1, 0x1, 1, 0x20, 0x31, 0, 0, 0, 0, 0, .full⟩,
  ⟨0x40090100, 0x40, 8, 0x1, 1, 0, 0, 0, 0, 0, 0, 0, .full⟩,
  ⟨0x40090104, 0x40, 8, 0x1, 1, 0, 0xFFFFFFFF, 0, 0, 0, 0, 0, .full⟩,
  ⟨0x40090108, 0x40, 8, 0x1, 1, 0, 0, 0, 0, 0, 0, 0, .full⟩,
  ⟨0x4009010C, 0x40, 8, 0x1, 1, 0, 0, 0, 0, 0, 0xFFFFFFFF, 0, .full⟩]

/-- The registers of block 0x09, part 1. -/
def regsEVR1 : List RegDesc := [
  ⟨0x40090120, 0x40, 8, 0x4, 8, 0, 0, 0, 0, 0, 0, 0, .full⟩]

/-- The registers of block 0x09. -/
def regsEVR : List RegDesc := regsEVR0 ++ regsEVR1

/-! ### Block 0x0A ARB: spec/12_dma_arbiter_semaphores.md -/

abbrev ARB_CTL : Nat := 0x400A0000
abbrev ARB_CTL_LOCK : Fld := ⟨ARB_CTL, 31, 1⟩

abbrev ARB_MASK : Nat := 0x400A0004
abbrev ARB_MASK_MASK : Fld := ⟨ARB_MASK, 0, 32⟩

abbrev ARB_RCFG (n : Nat) : Nat := 0x400A0100 + n * 0x4
abbrev ARB_RCFG_CLASS (n : Nat) : Fld := ⟨ARB_RCFG n, 0, 2⟩
abbrev ARB_RCFG_WAITMAX (n : Nat) : Fld := ⟨ARB_RCFG n, 16, 16⟩

abbrev ARB_RSTAT (n : Nat) : Nat := 0x400A0200 + n * 0x4
abbrev ARB_RSTAT_OVERDUE (n : Nat) : Fld := ⟨ARB_RSTAT n, 0, 16⟩
abbrev ARB_RSTAT_MAXWAIT (n : Nat) : Fld := ⟨ARB_RSTAT n, 16, 16⟩

abbrev ARB_SEM (n : Nat) : Nat := 0x400A1000 + n * 0x4
abbrev ARB_SEM_GOT (n : Nat) : Fld := ⟨ARB_SEM n, 31, 1⟩
abbrev ARB_SEM_ORPHAN (n : Nat) : Fld := ⟨ARB_SEM n, 30, 1⟩
abbrev ARB_SEM_HELD (n : Nat) : Fld := ⟨ARB_SEM n, 24, 1⟩
abbrev ARB_SEM_OWNER (n : Nat) : Fld := ⟨ARB_SEM n, 16, 5⟩
abbrev ARB_SEM_CLRORPH (n : Nat) : Fld := ⟨ARB_SEM n, 1, 1⟩
abbrev ARB_SEM_REL (n : Nat) : Fld := ⟨ARB_SEM n, 0, 1⟩

abbrev ARB_SEMH (n : Nat) : Nat := 0x400A1100 + n * 0x4
abbrev ARB_SEMH_BITS (n : Nat) : Fld := ⟨ARB_SEMH n, 0, 32⟩

abbrev ARB_SEMO (n : Nat) : Nat := 0x400A1108 + n * 0x4
abbrev ARB_SEMO_BITS (n : Nat) : Fld := ⟨ARB_SEMO n, 0, 32⟩

/-- The registers of block 0x0A. -/
def regsARB : List RegDesc := [
  ⟨0x400A0000, 0x1, 1, 0x1, 1, 0, 0, 0, 0, 0x80000000, 0, 0, .full⟩,
  ⟨0x400A0004, 0x1, 1, 0x1, 1, 0, 0xFFFFFFFF, 0, 0, 0, 0, 0, .none⟩,
  ⟨0x400A0100, 0x4, 32, 0x1, 1, 0, 0, 0xFFFF0003, 0, 0, 0, 0, .read⟩,
  ⟨0x400A0200, 0x4, 32, 0x1, 1, 0, 0, 0, 0, 0, 0, 0xFFFFFFFF, .full⟩,
  ⟨0x400A1000, 0x4, 64, 0x1, 1, 0, 0, 0, 0, 0, 0x3, 0, .full⟩,
  ⟨0x400A1100, 0x4, 2, 0x1, 1, 0, 0, 0, 0, 0, 0, 0, .full⟩,
  ⟨0x400A1108, 0x4, 2, 0x1, 1, 0, 0, 0, 0, 0, 0, 0, .full⟩]

/-! ### Block 0x0B DMA: spec/12_dma_arbiter_semaphores.md -/

abbrev DMA_INT : Nat := 0x400B0000
abbrev DMA_INT_CH : Fld := ⟨DMA_INT, 0, 16⟩

abbrev DMA_INTEN : Nat := 0x400B0004
abbrev DMA_INTEN_CH : Fld := ⟨DMA_INTEN, 0, 16⟩

abbrev DMA_CANINT : Nat := 0x400B0008
abbrev DMA_CANINT_BITS : Fld := ⟨DMA_CANINT, 0, 24⟩

abbrev DMA_CANINTEN : Nat := 0x400B000C
abbrev DMA_CANINTEN_BITS : Fld := ⟨DMA_CANINTEN, 0, 24⟩

abbrev DMA_CHCMD (n : Nat) : Nat := 0x400B0100 + n * 0x20
abbrev DMA_CHCMD_GO (n : Nat) : Fld := ⟨DMA_CHCMD n, 0, 1⟩
abbrev DMA_CHCMD_ABORT (n : Nat) : Fld := ⟨DMA_CHCMD n, 1, 1⟩

abbrev DMA_CHDESC (n : Nat) : Nat := 0x400B0104 + n * 0x20
abbrev DMA_CHDESC_ADDR (n : Nat) : Fld := ⟨DMA_CHDESC n, 5, 27⟩

abbrev DMA_CHSTAT (n : Nat) : Nat := 0x400B0108 + n * 0x20
abbrev DMA_CHSTAT_STATE (n : Nat) : Fld := ⟨DMA_CHSTAT n, 0, 3⟩
abbrev DMA_CHSTAT_STATUS (n : Nat) : Fld := ⟨DMA_CHSTAT n, 8, 8⟩

abbrev DMA_CHCUR (n : Nat) : Nat := 0x400B010C + n * 0x20
abbrev DMA_CHCUR_ADDR (n : Nat) : Fld := ⟨DMA_CHCUR n, 0, 32⟩

abbrev DMA_CHRES (n : Nat) : Nat := 0x400B0110 + n * 0x20
abbrev DMA_CHRES_RESID (n : Nat) : Fld := ⟨DMA_CHRES n, 0, 24⟩

abbrev DMA_CHLK (n : Nat) : Nat := 0x400B0114 + n * 0x20
abbrev DMA_CHLK_LOCKER (n : Nat) : Fld := ⟨DMA_CHLK n, 0, 10⟩
abbrev DMA_CHLK_LKEN (n : Nat) : Fld := ⟨DMA_CHLK n, 16, 1⟩
abbrev DMA_CHLK_VOID (n : Nat) : Fld := ⟨DMA_CHLK n, 17, 1⟩

abbrev DMA_CHBYT (n : Nat) : Nat := 0x400B0118 + n * 0x20
abbrev DMA_CHBYT_BYTES (n : Nat) : Fld := ⟨DMA_CHBYT n, 0, 32⟩

abbrev DMA_CRBASE (n k : Nat) : Nat := 0x400B0800 + n * 0x40 + k * 0x10
abbrev DMA_CRBASE_BASE (n k : Nat) : Fld := ⟨DMA_CRBASE n k, 5, 27⟩

abbrev DMA_CRCFG (n k : Nat) : Nat := 0x400B0804 + n * 0x40 + k * 0x10
abbrev DMA_CRCFG_LOG2 (n k : Nat) : Fld := ⟨DMA_CRCFG n k, 0, 4⟩
abbrev DMA_CRCFG_LOW (n k : Nat) : Fld := ⟨DMA_CRCFG n k, 8, 5⟩
abbrev DMA_CRCFG_HIGH (n k : Nat) : Fld := ⟨DMA_CRCFG n k, 16, 6⟩
abbrev DMA_CRCFG_EN (n k : Nat) : Fld := ⟨DMA_CRCFG n k, 31, 1⟩

abbrev DMA_CRHEAD (n k : Nat) : Nat := 0x400B0808 + n * 0x40 + k * 0x10
abbrev DMA_CRHEAD_HEAD (n k : Nat) : Fld := ⟨DMA_CRHEAD n k, 0, 12⟩
abbrev DMA_CRHEAD_FETCH (n k : Nat) : Fld := ⟨DMA_CRHEAD n k, 16, 12⟩

abbrev DMA_CRTAIL (n k : Nat) : Nat := 0x400B080C + n * 0x40 + k * 0x10
abbrev DMA_CRTAIL_TAIL (n k : Nat) : Fld := ⟨DMA_CRTAIL n k, 0, 12⟩

/-- The registers of block 0x0B, part 0. -/
def regsDMA0 : List RegDesc := [
  ⟨0x400B0000, 0x1, 1, 0x1, 1, 0, 0, 0, 0xFFFF, 0, 0, 0, .full⟩,
  ⟨0x400B0004, 0x1, 1, 0x1, 1, 0, 0xFFFF, 0, 0, 0, 0, 0, .full⟩,
  ⟨0x400B0008, 0x1, 1, 0x1, 1, 0, 0, 0, 0xFFFFFF, 0, 0, 0, .full⟩,
  ⟨0x400B000C, 0x1, 1, 0x1, 1, 0, 0xFFFFFF, 0, 0, 0, 0, 0, .full⟩,
  ⟨0x400B0100, 0x20, 16, 0x1, 1, 0, 0, 0, 0, 0, 0x3, 0, .full⟩,
  ⟨0x400B0104, 0x20, 16, 0x1, 1, 0, 0xFFFFFFE0, 0, 0, 0, 0, 0, .full⟩,
  ⟨0x400B0108, 0x20, 16, 0x1, 1, 0, 0, 0, 0, 0, 0, 0, .full⟩,
  ⟨0x400B010C, 0x20, 16, 0x1, 1, 0, 0, 0, 0, 0, 0, 0, .full⟩,
  ⟨0x400B0110, 0x20, 16, 0x1, 1, 0, 0, 0, 0, 0, 0, 0, .full⟩,
  ⟨0x400B0114, 0x20, 16, 0x1, 1, 0, 0x303FF, 0, 0, 0, 0, 0, .read⟩,
  ⟨0x400B0118, 0x20, 16, 0x1, 1, 0, 0, 0, 0, 0, 0, 0, .full⟩,
  ⟨0x400B0800, 0x40, 8, 0x10, 3, 0, 0xFFFFFFE0, 0, 0, 0, 0, 0, .full⟩,
  ⟨0x400B0804, 0x40, 8, 0x10, 3, 0x100F04, 0x803F1F0F, 0, 0, 0, 0, 0, .full⟩,
  ⟨0x400B0808, 0x40, 8, 0x10, 3, 0, 0, 0, 0, 0, 0, 0, .full⟩]

/-- The registers of block 0x0B, part 1. -/
def regsDMA1 : List RegDesc := [
  ⟨0x400B080C, 0x40, 8, 0x10, 3, 0, 0xFFF, 0, 0, 0, 0, 0, .full⟩]

/-- The registers of block 0x0B. -/
def regsDMA : List RegDesc := regsDMA0 ++ regsDMA1

/-! ### Block 0x0C MEM: spec/13_memory_integrity_and_spares.md -/

abbrev MEM_CTL : Nat := 0x400C0000
abbrev MEM_CTL_LOCK : Fld := ⟨MEM_CTL, 31, 1⟩
abbrev MEM_CTL_AUTORET : Fld := ⟨MEM_CTL, 8, 1⟩
abbrev MEM_CTL_MODE : Fld := ⟨MEM_CTL, 0, 5⟩

abbrev MEM_STAT : Nat := 0x400C0004
abbrev MEM_STAT_SELFTEST : Fld := ⟨MEM_STAT, 7, 1⟩
abbrev MEM_STAT_DRAM : Fld := ⟨MEM_STAT, 0, 2⟩

abbrev MEM_SPARE : Nat := 0x400C0008
abbrev MEM_SPARE_LSFREE : Fld := ⟨MEM_SPARE, 16, 9⟩
abbrev MEM_SPARE_DPFREE : Fld := ⟨MEM_SPARE, 0, 13⟩

abbrev MEM_LROW : Nat := 0x400C000C
abbrev MEM_LROW_FREE0 : Fld := ⟨MEM_LROW, 0, 7⟩
abbrev MEM_LROW_FREE1 : Fld := ⟨MEM_LROW, 8, 7⟩
abbrev MEM_LROW_FREE2 : Fld := ⟨MEM_LROW, 16, 7⟩
abbrev MEM_LROW_FREE3 : Fld := ⟨MEM_LROW, 24, 7⟩

abbrev MEM_SCRUB : Nat := 0x400C0010
abbrev MEM_SCRUB_PASSES : Fld := ⟨MEM_SCRUB, 16, 16⟩
abbrev MEM_SCRUB_DINT : Fld := ⟨MEM_SCRUB, 0, 16⟩

abbrev MEM_THR : Nat := 0x400C0014
abbrev MEM_THR_SECE : Fld := ⟨MEM_THR, 24, 8⟩
abbrev MEM_THR_RCE : Fld := ⟨MEM_THR, 16, 8⟩
abbrev MEM_THR_SCE : Fld := ⟨MEM_THR, 8, 8⟩
abbrev MEM_THR_PCE : Fld := ⟨MEM_THR, 0, 8⟩

abbrev MEM_LWEAR : Nat := 0x400C0018
abbrev MEM_LWEAR_LIMIT : Fld := ⟨MEM_LWEAR, 0, 8⟩

abbrev MEM_RCMD : Nat := 0x400C001C
abbrev MEM_RCMD_KIND : Fld := ⟨MEM_RCMD, 30, 2⟩
abbrev MEM_RCMD_LANE : Fld := ⟨MEM_RCMD, 28, 2⟩
abbrev MEM_RCMD_INDEX : Fld := ⟨MEM_RCMD, 0, 18⟩

abbrev MEM_UEA : Nat := 0x400C0020
abbrev MEM_UEA_ADDR : Fld := ⟨MEM_UEA, 0, 32⟩

abbrev MEM_UEI : Nat := 0x400C0024
abbrev MEM_UEI_MEM : Fld := ⟨MEM_UEI, 0, 3⟩
abbrev MEM_UEI_REQ : Fld := ⟨MEM_UEI, 8, 5⟩
abbrev MEM_UEI_VALID : Fld := ⟨MEM_UEI, 31, 1⟩

abbrev MEM_DCE : Nat := 0x400C0040
abbrev MEM_DCE_COUNT : Fld := ⟨MEM_DCE, 0, 32⟩

abbrev MEM_DUE : Nat := 0x400C0044
abbrev MEM_DUE_COUNT : Fld := ⟨MEM_DUE, 0, 32⟩

abbrev MEM_LCE (n : Nat) : Nat := 0x400C0048 + n * 0x4
abbrev MEM_LCE_COUNT (n : Nat) : Fld := ⟨MEM_LCE n, 0, 32⟩

abbrev MEM_LUE : Nat := 0x400C0058
abbrev MEM_LUE_COUNT : Fld := ⟨MEM_LUE, 0, 32⟩

abbrev MEM_CSCE : Nat := 0x400C005C
abbrev MEM_CSCE_COUNT : Fld := ⟨MEM_CSCE, 0, 32⟩

abbrev MEM_CSUE : Nat := 0x400C0060
abbrev MEM_CSUE_COUNT : Fld := ⟨MEM_CSUE, 0, 32⟩

abbrev MEM_LFCE : Nat := 0x400C0064
abbrev MEM_LFCE_COUNT : Fld := ⟨MEM_LFCE, 0, 32⟩

/-- The registers of block 0x0C, part 0. -/
def regsMEM0 : List RegDesc := [
  ⟨0x400C0000, 0x1, 1, 0x1, 1, 0x100, 0, 0x11F, 0, 0x80000000, 0, 0, .read⟩,
  ⟨0x400C0004, 0x1, 1, 0x1, 1, 0, 0, 0, 0, 0, 0, 0, .read⟩,
  ⟨0x400C0008, 0x1, 1, 0x1, 1, 0x1001000, 0, 0, 0, 0, 0, 0, .read⟩,
  ⟨0x400C000C, 0x1, 1, 0x1, 1, 0x40404040, 0, 0, 0, 0, 0, 0, .read⟩,
  ⟨0x400C0010, 0x1, 1, 0x1, 1, 0x200, 0, 0xFFFF, 0, 0, 0, 0, .read⟩,
  ⟨0x400C0014, 0x1, 1, 0x1, 1, 0x4040204, 0, 0xFFFFFFFF, 0, 0, 0, 0, .read⟩,
  ⟨0x400C0018, 0x1, 1, 0x1, 1, 0x80, 0, 0xFF, 0, 0, 0, 0, .read⟩,
  ⟨0x400C001C, 0x1, 1, 0x1, 1, 0, 0, 0, 0, 0, 0xF003FFFF, 0, .read⟩,
  ⟨0x400C0020, 0x1, 1, 0x1, 1, 0, 0, 0, 0, 0, 0, 0, .read⟩,
  ⟨0x400C0024, 0x1, 1, 0x1, 1, 0, 0, 0, 0, 0, 0, 0x80000000, .read⟩,
  ⟨0x400C0040, 0x1, 1, 0x1, 1, 0, 0, 0, 0, 0, 0, 0xFFFFFFFF, .read⟩,
  ⟨0x400C0044, 0x1, 1, 0x1, 1, 0, 0, 0, 0, 0, 0, 0xFFFFFFFF, .read⟩,
  ⟨0x400C0048, 0x4, 4, 0x1, 1, 0, 0, 0, 0, 0, 0, 0xFFFFFFFF, .read⟩,
  ⟨0x400C0058, 0x1, 1, 0x1, 1, 0, 0, 0, 0, 0, 0, 0xFFFFFFFF, .read⟩]

/-- The registers of block 0x0C, part 1. -/
def regsMEM1 : List RegDesc := [
  ⟨0x400C005C, 0x1, 1, 0x1, 1, 0, 0, 0, 0, 0, 0, 0xFFFFFFFF, .read⟩,
  ⟨0x400C0060, 0x1, 1, 0x1, 1, 0, 0, 0, 0, 0, 0, 0xFFFFFFFF, .read⟩,
  ⟨0x400C0064, 0x1, 1, 0x1, 1, 0, 0, 0, 0, 0, 0, 0xFFFFFFFF, .read⟩]

/-- The registers of block 0x0C. -/
def regsMEM : List RegDesc := regsMEM0 ++ regsMEM1

/-! ### Block 0x0D NET: spec/11_ethernet_ports.md -/

abbrev NET_CTL (n : Nat) : Nat := 0x400D0000 + n * 0x4000
abbrev NET_CTL_LOCK (n : Nat) : Fld := ⟨NET_CTL n, 31, 1⟩
abbrev NET_CTL_PROMISC (n : Nat) : Fld := ⟨NET_CTL n, 8, 1⟩
abbrev NET_CTL_BCAST (n : Nat) : Fld := ⟨NET_CTL n, 7, 1⟩
abbrev NET_CTL_MCHASH (n : Nat) : Fld := ⟨NET_CTL n, 6, 1⟩
abbrev NET_CTL_TXPEN (n : Nat) : Fld := ⟨NET_CTL n, 5, 1⟩
abbrev NET_CTL_RXPEN (n : Nat) : Fld := ⟨NET_CTL n, 4, 1⟩
abbrev NET_CTL_RXEN (n : Nat) : Fld := ⟨NET_CTL n, 1, 1⟩
abbrev NET_CTL_TXEN (n : Nat) : Fld := ⟨NET_CTL n, 0, 1⟩

abbrev NET_ADV (n : Nat) : Nat := 0x400D0004 + n * 0x4000
abbrev NET_ADV_ASMDIR (n : Nat) : Fld := ⟨NET_ADV n, 6, 1⟩
abbrev NET_ADV_PAUSE (n : Nat) : Fld := ⟨NET_ADV n, 5, 1⟩
abbrev NET_ADV_FD1000 (n : Nat) : Fld := ⟨NET_ADV n, 2, 1⟩
abbrev NET_ADV_FD100 (n : Nat) : Fld := ⟨NET_ADV n, 1, 1⟩
abbrev NET_ADV_FD10 (n : Nat) : Fld := ⟨NET_ADV n, 0, 1⟩

abbrev NET_LINK (n : Nat) : Nat := 0x400D0008 + n * 0x4000
abbrev NET_LINK_PTX (n : Nat) : Fld := ⟨NET_LINK n, 7, 1⟩
abbrev NET_LINK_PRX (n : Nat) : Fld := ⟨NET_LINK n, 6, 1⟩
abbrev NET_LINK_SPEED (n : Nat) : Fld := ⟨NET_LINK n, 4, 2⟩
abbrev NET_LINK_STATE (n : Nat) : Fld := ⟨NET_LINK n, 0, 2⟩

abbrev NET_CMD (n : Nat) : Nat := 0x400D000C + n * 0x4000
abbrev NET_CMD_RXRST (n : Nat) : Fld := ⟨NET_CMD n, 2, 1⟩
abbrev NET_CMD_TXRST (n : Nat) : Fld := ⟨NET_CMD n, 1, 1⟩
abbrev NET_CMD_RENEG (n : Nat) : Fld := ⟨NET_CMD n, 0, 1⟩

abbrev NET_MACL (n : Nat) : Nat := 0x400D0010 + n * 0x4000
abbrev NET_MACL_ADDR (n : Nat) : Fld := ⟨NET_MACL n, 0, 32⟩

abbrev NET_MACH (n : Nat) : Nat := 0x400D0014 + n * 0x4000
abbrev NET_MACH_ADDR (n : Nat) : Fld := ⟨NET_MACH n, 0, 16⟩

abbrev NET_HASHL (n : Nat) : Nat := 0x400D0018 + n * 0x4000
abbrev NET_HASHL_BITS (n : Nat) : Fld := ⟨NET_HASHL n, 0, 32⟩

abbrev NET_HASHH (n : Nat) : Nat := 0x400D001C + n * 0x4000
abbrev NET_HASHH_BITS (n : Nat) : Fld := ⟨NET_HASHH n, 0, 32⟩

abbrev NET_TXBASE (n : Nat) : Nat := 0x400D0020 + n * 0x4000
abbrev NET_TXBASE_BASE (n : Nat) : Fld := ⟨NET_TXBASE n, 5, 27⟩

abbrev NET_TXCFG (n : Nat) : Nat := 0x400D0024 + n * 0x4000
abbrev NET_TXCFG_LOG2 (n : Nat) : Fld := ⟨NET_TXCFG n, 0, 4⟩

abbrev NET_TXHEAD (n : Nat) : Nat := 0x400D0028 + n * 0x4000
abbrev NET_TXHEAD_IDX (n : Nat) : Fld := ⟨NET_TXHEAD n, 0, 12⟩

abbrev NET_TXTAIL (n : Nat) : Nat := 0x400D002C + n * 0x4000
abbrev NET_TXTAIL_IDX (n : Nat) : Fld := ⟨NET_TXTAIL n, 0, 12⟩

abbrev NET_RXBASE (n : Nat) : Nat := 0x400D0030 + n * 0x4000
abbrev NET_RXBASE_BASE (n : Nat) : Fld := ⟨NET_RXBASE n, 5, 27⟩

abbrev NET_RXCFG (n : Nat) : Nat := 0x400D0034 + n * 0x4000
abbrev NET_RXCFG_LOG2 (n : Nat) : Fld := ⟨NET_RXCFG n, 0, 4⟩
abbrev NET_RXCFG_BSZ (n : Nat) : Fld := ⟨NET_RXCFG n, 8, 6⟩

abbrev NET_RXHEAD (n : Nat) : Nat := 0x400D0038 + n * 0x4000
abbrev NET_RXHEAD_IDX (n : Nat) : Fld := ⟨NET_RXHEAD n, 0, 12⟩

abbrev NET_RXTAIL (n : Nat) : Nat := 0x400D003C + n * 0x4000
abbrev NET_RXTAIL_IDX (n : Nat) : Fld := ⟨NET_RXTAIL n, 0, 12⟩

abbrev NET_PAUSE (n : Nat) : Nat := 0x400D0040 + n * 0x4000
abbrev NET_PAUSE_XON (n : Nat) : Fld := ⟨NET_PAUSE n, 24, 6⟩
abbrev NET_PAUSE_XOFF (n : Nat) : Fld := ⟨NET_PAUSE n, 16, 6⟩
abbrev NET_PAUSE_QUANTA (n : Nat) : Fld := ⟨NET_PAUSE n, 0, 16⟩

abbrev NET_MDIO (n : Nat) : Nat := 0x400D0044 + n * 0x4000
abbrev NET_MDIO_BUSY (n : Nat) : Fld := ⟨NET_MDIO n, 31, 1⟩
abbrev NET_MDIO_GO (n : Nat) : Fld := ⟨NET_MDIO n, 30, 1⟩
abbrev NET_MDIO_REG (n : Nat) : Fld := ⟨NET_MDIO n, 16, 5⟩
abbrev NET_MDIO_DATA (n : Nat) : Fld := ⟨NET_MDIO n, 0, 16⟩

abbrev NET_INT (n : Nat) : Nat := 0x400D0048 + n * 0x4000
abbrev NET_INT_NOBUF (n : Nat) : Fld := ⟨NET_INT n, 3, 1⟩
abbrev NET_INT_LINK (n : Nat) : Fld := ⟨NET_INT n, 2, 1⟩
abbrev NET_INT_RXDONE (n : Nat) : Fld := ⟨NET_INT n, 1, 1⟩
abbrev NET_INT_TXDONE (n : Nat) : Fld := ⟨NET_INT n, 0, 1⟩

abbrev NET_RXOK (n : Nat) : Nat := 0x400D0080 + n * 0x4000
abbrev NET_RXOK_COUNT (n : Nat) : Fld := ⟨NET_RXOK n, 0, 32⟩

abbrev NET_TXOK (n : Nat) : Nat := 0x400D0084 + n * 0x4000
abbrev NET_TXOK_COUNT (n : Nat) : Fld := ⟨NET_TXOK n, 0, 32⟩

abbrev NET_RUNT (n : Nat) : Nat := 0x400D0088 + n * 0x4000
abbrev NET_RUNT_COUNT (n : Nat) : Fld := ⟨NET_RUNT n, 0, 32⟩

abbrev NET_OVSZ (n : Nat) : Nat := 0x400D008C + n * 0x4000
abbrev NET_OVSZ_COUNT (n : Nat) : Fld := ⟨NET_OVSZ n, 0, 32⟩

abbrev NET_RXERR (n : Nat) : Nat := 0x400D0090 + n * 0x4000
abbrev NET_RXERR_COUNT (n : Nat) : Fld := ⟨NET_RXERR n, 0, 32⟩

abbrev NET_RXOVF (n : Nat) : Nat := 0x400D0094 + n * 0x4000
abbrev NET_RXOVF_COUNT (n : Nat) : Fld := ⟨NET_RXOVF n, 0, 32⟩

abbrev NET_RXNOBUF (n : Nat) : Nat := 0x400D0098 + n * 0x4000
abbrev NET_RXNOBUF_COUNT (n : Nat) : Fld := ⟨NET_RXNOBUF n, 0, 32⟩

abbrev NET_FILT (n : Nat) : Nat := 0x400D009C + n * 0x4000
abbrev NET_FILT_COUNT (n : Nat) : Fld := ⟨NET_FILT n, 0, 32⟩

abbrev NET_FOREIGN (n : Nat) : Nat := 0x400D00A0 + n * 0x4000
abbrev NET_FOREIGN_COUNT (n : Nat) : Fld := ⟨NET_FOREIGN n, 0, 32⟩

abbrev NET_PAUSERX (n : Nat) : Nat := 0x400D00A4 + n * 0x4000
abbrev NET_PAUSERX_COUNT (n : Nat) : Fld := ⟨NET_PAUSERX n, 0, 32⟩

abbrev NET_PAUSETX (n : Nat) : Nat := 0x400D00A8 + n * 0x4000
abbrev NET_PAUSETX_COUNT (n : Nat) : Fld := ⟨NET_PAUSETX n, 0, 32⟩

abbrev NET_CTLDROP (n : Nat) : Nat := 0x400D00AC + n * 0x4000
abbrev NET_CTLDROP_COUNT (n : Nat) : Fld := ⟨NET_CTLDROP n, 0, 32⟩

abbrev NET_TXDERR (n : Nat) : Nat := 0x400D00B0 + n * 0x4000
abbrev NET_TXDERR_COUNT (n : Nat) : Fld := ⟨NET_TXDERR n, 0, 32⟩

/-- The registers of block 0x0D, part 0. -/
def regsNET0 : List RegDesc := [
  ⟨0x400D0000, 0x4000, 3, 0x1, 1, 0x90, 0x1C3, 0x30, 0, 0x80000000, 0, 0, .full⟩,
  ⟨0x400D0004, 0x4000, 3, 0x1, 1, 0x27, 0, 0x67, 0, 0, 0, 0, .full⟩,
  ⟨0x400D0008, 0x4000, 3, 0x1, 1, 0, 0, 0, 0, 0, 0, 0, .full⟩,
  ⟨0x400D000C, 0x4000, 3, 0x1, 1, 0, 0, 0, 0, 0, 0x7, 0, .full⟩,
  ⟨0x400D0010, 0x4000, 3, 0x1, 1, 0, 0, 0xFFFFFFFF, 0, 0, 0, 0, .full⟩,
  ⟨0x400D0014, 0x4000, 3, 0x1, 1, 0, 0, 0xFFFF, 0, 0, 0, 0, .full⟩,
  ⟨0x400D0018, 0x4000, 3, 0x1, 1, 0, 0xFFFFFFFF, 0, 0, 0, 0, 0, .full⟩,
  ⟨0x400D001C, 0x4000, 3, 0x1, 1, 0, 0xFFFFFFFF, 0, 0, 0, 0, 0, .full⟩,
  ⟨0x400D0020, 0x4000, 2, 0x1, 1, 0, 0xFFFFFFE0, 0, 0, 0, 0, 0, .full⟩,
  ⟨0x400D0024, 0x4000, 2, 0x1, 1, 0x4, 0xF, 0, 0, 0, 0, 0, .full⟩,
  ⟨0x400D0028, 0x4000, 2, 0x1, 1, 0, 0, 0, 0, 0, 0, 0, .full⟩,
  ⟨0x400D002C, 0x4000, 2, 0x1, 1, 0, 0xFFF, 0, 0, 0, 0, 0, .full⟩,
  ⟨0x400D0030, 0x4000, 2, 0x1, 1, 0, 0xFFFFFFE0, 0, 0, 0, 0, 0, .full⟩,
  ⟨0x400D0034, 0x4000, 2, 0x1, 1, 0x3004, 0x3F0F, 0, 0, 0, 0, 0, .full⟩]

/-- The registers of block 0x0D, part 1. -/
def regsNET1 : List RegDesc := [
  ⟨0x400D0038, 0x4000, 2, 0x1, 1, 0, 0, 0, 0, 0, 0, 0, .full⟩,
  ⟨0x400D003C, 0x4000, 2, 0x1, 1, 0, 0xFFF, 0, 0, 0, 0, 0, .full⟩,
  ⟨0x400D0040, 0x4000, 3, 0x1, 1, 0x818FFFF, 0, 0x3F3FFFFF, 0, 0, 0, 0, .full⟩,
  ⟨0x400D0044, 0x4000, 3, 0x1, 1, 0, 0x1F0000, 0, 0, 0, 0x40000000, 0, .full⟩,
  ⟨0x400D0048, 0x4000, 3, 0x1, 1, 0, 0, 0, 0xF, 0, 0, 0, .full⟩,
  ⟨0x400D0080, 0x4000, 3, 0x1, 1, 0, 0, 0, 0, 0, 0, 0, .full⟩,
  ⟨0x400D0084, 0x4000, 3, 0x1, 1, 0, 0, 0, 0, 0, 0, 0, .full⟩,
  ⟨0x400D0088, 0x4000, 3, 0x1, 1, 0, 0, 0, 0, 0, 0, 0xFFFFFFFF, .full⟩,
  ⟨0x400D008C, 0x4000, 3, 0x1, 1, 0, 0, 0, 0, 0, 0, 0xFFFFFFFF, .full⟩,
  ⟨0x400D0090, 0x4000, 3, 0x1, 1, 0, 0, 0, 0, 0, 0, 0xFFFFFFFF, .full⟩,
  ⟨0x400D0094, 0x4000, 3, 0x1, 1, 0, 0, 0, 0, 0, 0, 0xFFFFFFFF, .full⟩,
  ⟨0x400D0098, 0x4000, 3, 0x1, 1, 0, 0, 0, 0, 0, 0, 0xFFFFFFFF, .full⟩,
  ⟨0x400D009C, 0x4000, 3, 0x1, 1, 0, 0, 0, 0, 0, 0, 0xFFFFFFFF, .full⟩,
  ⟨0x400D00A0, 0x4000, 3, 0x1, 1, 0, 0, 0, 0, 0, 0, 0xFFFFFFFF, .full⟩]

/-- The registers of block 0x0D, part 2. -/
def regsNET2 : List RegDesc := [
  ⟨0x400D00A4, 0x4000, 3, 0x1, 1, 0, 0, 0, 0, 0, 0, 0xFFFFFFFF, .full⟩,
  ⟨0x400D00A8, 0x4000, 3, 0x1, 1, 0, 0, 0, 0, 0, 0, 0xFFFFFFFF, .full⟩,
  ⟨0x400D00AC, 0x4000, 3, 0x1, 1, 0, 0, 0, 0, 0, 0, 0xFFFFFFFF, .full⟩,
  ⟨0x400D00B0, 0x4000, 3, 0x1, 1, 0, 0, 0, 0, 0, 0, 0xFFFFFFFF, .full⟩]

/-- The registers of block 0x0D. -/
def regsNET : List RegDesc := regsNET0 ++ regsNET1 ++ regsNET2

/-! ### Block 0x0E CAN: spec/10_can_fd_controllers.md -/

abbrev CAN_CTL (n : Nat) : Nat := 0x400E0000 + n * 0x1000
abbrev CAN_CTL_LOCK (n : Nat) : Fld := ⟨CAN_CTL n, 31, 1⟩
abbrev CAN_CTL_MODE (n : Nat) : Fld := ⟨CAN_CTL n, 8, 2⟩
abbrev CAN_CTL_AUTOREC (n : Nat) : Fld := ⟨CAN_CTL n, 4, 1⟩

abbrev CAN_RATE (n : Nat) : Nat := 0x400E0004 + n * 0x1000
abbrev CAN_RATE_DRATE (n : Nat) : Fld := ⟨CAN_RATE n, 16, 16⟩
abbrev CAN_RATE_ARATE (n : Nat) : Fld := ⟨CAN_RATE n, 0, 16⟩

abbrev CAN_STAT (n : Nat) : Nat := 0x400E0008 + n * 0x1000
abbrev CAN_STAT_ROLE (n : Nat) : Fld := ⟨CAN_STAT n, 8, 2⟩
abbrev CAN_STAT_SPARED (n : Nat) : Fld := ⟨CAN_STAT n, 7, 1⟩
abbrev CAN_STAT_STATE (n : Nat) : Fld := ⟨CAN_STAT n, 0, 3⟩

abbrev CAN_ERR (n : Nat) : Nat := 0x400E000C + n * 0x1000
abbrev CAN_ERR_DPH (n : Nat) : Fld := ⟨CAN_ERR n, 19, 1⟩
abbrev CAN_ERR_LEC (n : Nat) : Fld := ⟨CAN_ERR n, 16, 3⟩
abbrev CAN_ERR_REC (n : Nat) : Fld := ⟨CAN_ERR n, 8, 8⟩
abbrev CAN_ERR_TEC (n : Nat) : Fld := ⟨CAN_ERR n, 0, 8⟩

abbrev CAN_BOFF (n : Nat) : Nat := 0x400E0010 + n * 0x1000
abbrev CAN_BOFF_COUNT (n : Nat) : Fld := ⟨CAN_BOFF n, 16, 16⟩
abbrev CAN_BOFF_HOLD (n : Nat) : Fld := ⟨CAN_BOFF n, 0, 8⟩

abbrev CAN_CMD (n : Nat) : Nat := 0x400E0014 + n * 0x1000
abbrev CAN_CMD_ABORT1 (n : Nat) : Fld := ⟨CAN_CMD n, 2, 1⟩
abbrev CAN_CMD_ABORT0 (n : Nat) : Fld := ⟨CAN_CMD n, 1, 1⟩
abbrev CAN_CMD_RECOVER (n : Nat) : Fld := ⟨CAN_CMD n, 0, 1⟩

abbrev CAN_TXQ (n : Nat) : Nat := 0x400E0018 + n * 0x1000
abbrev CAN_TXQ_ACTQ (n : Nat) : Fld := ⟨CAN_TXQ n, 17, 1⟩
abbrev CAN_TXQ_ACTIVE (n : Nat) : Fld := ⟨CAN_TXQ n, 16, 1⟩
abbrev CAN_TXQ_Q1FILL (n : Nat) : Fld := ⟨CAN_TXQ n, 8, 5⟩
abbrev CAN_TXQ_Q0FILL (n : Nat) : Fld := ⟨CAN_TXQ n, 0, 5⟩

abbrev CAN_RXCNT (n : Nat) : Nat := 0x400E001C + n * 0x1000
abbrev CAN_RXCNT_COUNT (n : Nat) : Fld := ⟨CAN_RXCNT n, 0, 32⟩

abbrev CAN_RXDROP (n : Nat) : Nat := 0x400E0020 + n * 0x1000
abbrev CAN_RXDROP_COUNT (n : Nat) : Fld := ⟨CAN_RXDROP n, 0, 32⟩

abbrev CAN_TXCNT (n : Nat) : Nat := 0x400E0024 + n * 0x1000
abbrev CAN_TXCNT_COUNT (n : Nat) : Fld := ⟨CAN_TXCNT n, 0, 32⟩

abbrev CAN_FOREIGN (n : Nat) : Nat := 0x400E0028 + n * 0x1000
abbrev CAN_FOREIGN_COUNT (n : Nat) : Fld := ⟨CAN_FOREIGN n, 0, 32⟩

abbrev CAN_ADCTL (n : Nat) : Nat := 0x400E0030 + n * 0x1000
abbrev CAN_ADCTL_GOACT (n : Nat) : Fld := ⟨CAN_ADCTL n, 16, 1⟩
abbrev CAN_ADCTL_TMO (n : Nat) : Fld := ⟨CAN_ADCTL n, 8, 8⟩
abbrev CAN_ADCTL_LOCKN (n : Nat) : Fld := ⟨CAN_ADCTL n, 0, 4⟩

abbrev CAN_ADSTAT (n : Nat) : Nat := 0x400E0034 + n * 0x1000
abbrev CAN_ADSTAT_DLOCK (n : Nat) : Fld := ⟨CAN_ADSTAT n, 13, 1⟩
abbrev CAN_ADSTAT_DCAND (n : Nat) : Fld := ⟨CAN_ADSTAT n, 8, 4⟩
abbrev CAN_ADSTAT_ACAND (n : Nat) : Fld := ⟨CAN_ADSTAT n, 4, 4⟩
abbrev CAN_ADSTAT_STATE (n : Nat) : Fld := ⟨CAN_ADSTAT n, 0, 2⟩

abbrev CAN_SPMAP : Nat := 0x400E8040
abbrev CAN_SPMAP_SPFAIL : Fld := ⟨CAN_SPMAP, 5, 1⟩
abbrev CAN_SPMAP_USED : Fld := ⟨CAN_SPMAP, 4, 1⟩
abbrev CAN_SPMAP_SEG : Fld := ⟨CAN_SPMAP, 0, 4⟩

abbrev CAN_SPCMD : Nat := 0x400E8044
abbrev CAN_SPCMD_GO : Fld := ⟨CAN_SPCMD, 7, 1⟩
abbrev CAN_SPCMD_SEG : Fld := ⟨CAN_SPCMD, 0, 3⟩

/-- The registers of block 0x0E, part 0. -/
def regsCAN0 : List RegDesc := [
  ⟨0x400E0000, 0x1000, 9, 0x1, 1, 0x10, 0x300, 0x10, 0, 0x80000000, 0, 0, .full⟩,
  ⟨0x400E0004, 0x1000, 9, 0x1, 1, 0, 0, 0, 0, 0, 0, 0, .full⟩,
  ⟨0x400E0008, 0x1000, 9, 0x1, 1, 0, 0, 0, 0, 0, 0, 0, .full⟩,
  ⟨0x400E000C, 0x1000, 9, 0x1, 1, 0, 0, 0, 0, 0, 0, 0xF0000, .full⟩,
  ⟨0x400E0010, 0x1000, 9, 0x1, 1, 0xA, 0, 0xFF, 0, 0, 0, 0, .full⟩,
  ⟨0x400E0014, 0x1000, 9, 0x1, 1, 0, 0, 0, 0, 0, 0x7, 0, .full⟩,
  ⟨0x400E0018, 0x1000, 9, 0x1, 1, 0, 0, 0, 0, 0, 0, 0, .full⟩,
  ⟨0x400E001C, 0x1000, 9, 0x1, 1, 0, 0, 0, 0, 0, 0, 0, .full⟩,
  ⟨0x400E0020, 0x1000, 9, 0x1, 1, 0, 0, 0, 0, 0, 0, 0xFFFFFFFF, .full⟩,
  ⟨0x400E0024, 0x1000, 9, 0x1, 1, 0, 0, 0, 0, 0, 0, 0, .full⟩,
  ⟨0x400E0028, 0x1000, 9, 0x1, 1, 0, 0, 0, 0, 0, 0, 0, .full⟩,
  ⟨0x400E0030, 0x1000, 9, 0x1, 1, 0xA03, 0x1FF0F, 0, 0, 0, 0, 0, .full⟩,
  ⟨0x400E0034, 0x1000, 9, 0x1, 1, 0, 0, 0, 0, 0, 0, 0, .full⟩,
  ⟨0x400E8040, 0x1, 1, 0x1, 1, 0, 0, 0, 0, 0, 0, 0, .full⟩]

/-- The registers of block 0x0E, part 1. -/
def regsCAN1 : List RegDesc := [
  ⟨0x400E8044, 0x1, 1, 0x1, 1, 0, 0, 0, 0, 0, 0x87, 0, .none⟩]

/-- The registers of block 0x0E. -/
def regsCAN : List RegDesc := regsCAN0 ++ regsCAN1

/-! ### Block 0x0F HIT: spec/09_hitil_station_exchange.md -/

abbrev HIT_CTL : Nat := 0x400F0000
abbrev HIT_CTL_LOCK : Fld := ⟨HIT_CTL, 31, 1⟩
abbrev HIT_CTL_LOSTN : Fld := ⟨HIT_CTL, 12, 4⟩
abbrev HIT_CTL_AUTH : Fld := ⟨HIT_CTL, 1, 1⟩
abbrev HIT_CTL_RUN : Fld := ⟨HIT_CTL, 0, 1⟩

abbrev HIT_ETYPE : Nat := 0x400F0004
abbrev HIT_ETYPE_ETYPE : Fld := ⟨HIT_ETYPE, 0, 16⟩

abbrev HIT_STAT : Nat := 0x400F0008
abbrev HIT_STAT_ONLINE : Fld := ⟨HIT_STAT, 16, 11⟩
abbrev HIT_STAT_LINKOK : Fld := ⟨HIT_STAT, 13, 1⟩
abbrev HIT_STAT_KEYOK : Fld := ⟨HIT_STAT, 12, 1⟩
abbrev HIT_STAT_CONFIG : Fld := ⟨HIT_STAT, 0, 11⟩

abbrev HIT_LATE : Nat := 0x400F0010
abbrev HIT_LATE_COUNT : Fld := ⟨HIT_LATE, 0, 32⟩

abbrev HIT_TAGERR : Nat := 0x400F0014
abbrev HIT_TAGERR_COUNT : Fld := ⟨HIT_TAGERR, 0, 32⟩

abbrev HIT_FMTERR : Nat := 0x400F0018
abbrev HIT_FMTERR_COUNT : Fld := ⟨HIT_FMTERR, 0, 32⟩

abbrev HIT_UNKN : Nat := 0x400F001C
abbrev HIT_UNKN_COUNT : Fld := ⟨HIT_UNKN, 0, 32⟩

abbrev HIT_SSEL : Nat := 0x400F0020
abbrev HIT_SSEL_INDEX : Fld := ⟨HIT_SSEL, 0, 11⟩

abbrev HIT_SSTAT : Nat := 0x400F0024
abbrev HIT_SSTAT_MISS : Fld := ⟨HIT_SSTAT, 24, 4⟩
abbrev HIT_SSTAT_JOINS : Fld := ⟨HIT_SSTAT, 8, 8⟩
abbrev HIT_SSTAT_FSTATE : Fld := ⟨HIT_SSTAT, 4, 1⟩
abbrev HIT_SSTAT_STATE : Fld := ⟨HIT_SSTAT, 0, 3⟩

abbrev HIT_SMISS : Nat := 0x400F0028
abbrev HIT_SMISS_COUNT : Fld := ⟨HIT_SMISS, 0, 32⟩

abbrev HIT_SLAST : Nat := 0x400F002C
abbrev HIT_SLAST_CYCLE : Fld := ⟨HIT_SLAST, 0, 32⟩

abbrev HIT_NETL : Nat := 0x400F0040
abbrev HIT_NETL_OUTAU : Fld := ⟨HIT_NETL, 16, 16⟩
abbrev HIT_NETL_INAU : Fld := ⟨HIT_NETL, 0, 16⟩

abbrev HIT_CANL (n : Nat) : Nat := 0x400F0044 + n * 0x4
abbrev HIT_CANL_OUTAU (n : Nat) : Fld := ⟨HIT_CANL n, 16, 16⟩
abbrev HIT_CANL_INAU (n : Nat) : Fld := ⟨HIT_CANL n, 0, 16⟩

/-- The registers of block 0x0F. -/
def regsHIT : List RegDesc := [
  ⟨0x400F0000, 0x1, 1, 0x1, 1, 0x3002, 0x1, 0xF002, 0, 0x80000000, 0, 0, .read⟩,
  ⟨0x400F0004, 0x1, 1, 0x1, 1, 0x88B5, 0, 0xFFFF, 0, 0, 0, 0, .read⟩,
  ⟨0x400F0008, 0x1, 1, 0x1, 1, 0, 0, 0, 0, 0, 0, 0, .read⟩,
  ⟨0x400F0010, 0x1, 1, 0x1, 1, 0, 0, 0, 0, 0, 0, 0, .read⟩,
  ⟨0x400F0014, 0x1, 1, 0x1, 1, 0, 0, 0, 0, 0, 0, 0, .read⟩,
  ⟨0x400F0018, 0x1, 1, 0x1, 1, 0, 0, 0, 0, 0, 0, 0, .read⟩,
  ⟨0x400F001C, 0x1, 1, 0x1, 1, 0, 0, 0, 0, 0, 0, 0, .read⟩,
  ⟨0x400F0020, 0x1, 1, 0x1, 1, 0, 0x7FF, 0, 0, 0, 0, 0, .read⟩,
  ⟨0x400F0024, 0x1, 1, 0x1, 1, 0, 0, 0, 0, 0, 0, 0, .read⟩,
  ⟨0x400F0028, 0x1, 1, 0x1, 1, 0, 0, 0, 0, 0, 0, 0, .read⟩,
  ⟨0x400F002C, 0x1, 1, 0x1, 1, 0, 0, 0, 0, 0, 0, 0, .read⟩,
  ⟨0x400F0040, 0x1, 1, 0x1, 1, 0, 0, 0, 0, 0, 0, 0, .read⟩,
  ⟨0x400F0044, 0x4, 8, 0x1, 1, 0, 0, 0, 0, 0, 0, 0, .read⟩]

/-! ### Block 0x10 FAB: spec/08_structure_image_and_fabric.md -/

abbrev FAB_CTL : Nat := 0x40100000
abbrev FAB_CTL_LOCK : Fld := ⟨FAB_CTL, 31, 1⟩
abbrev FAB_CTL_TESTEN : Fld := ⟨FAB_CTL, 1, 1⟩
abbrev FAB_CTL_SPAREN : Fld := ⟨FAB_CTL, 0, 1⟩

abbrev FAB_STAT : Nat := 0x40100004
abbrev FAB_STAT_TESTACT : Fld := ⟨FAB_STAT, 16, 1⟩
abbrev FAB_STAT_SPFREE : Fld := ⟨FAB_STAT, 8, 4⟩
abbrev FAB_STAT_STATE : Fld := ⟨FAB_STAT, 0, 2⟩

abbrev FAB_SCRUB : Nat := 0x40100008
abbrev FAB_SCRUB_PASSES : Fld := ⟨FAB_SCRUB, 16, 16⟩
abbrev FAB_SCRUB_CORR : Fld := ⟨FAB_SCRUB, 0, 16⟩

abbrev FAB_BANK : Nat := 0x4010000C
abbrev FAB_BANK_BFAIL : Fld := ⟨FAB_BANK, 16, 6⟩
abbrev FAB_BANK_VIO : Fld := ⟨FAB_BANK, 0, 12⟩

abbrev FAB_SPMAP (n : Nat) : Nat := 0x40100010 + n * 0x4
abbrev FAB_SPMAP_USED1 (n : Nat) : Fld := ⟨FAB_SPMAP n, 31, 1⟩
abbrev FAB_SPMAP_UC1 (n : Nat) : Fld := ⟨FAB_SPMAP n, 16, 8⟩
abbrev FAB_SPMAP_USED0 (n : Nat) : Fld := ⟨FAB_SPMAP n, 15, 1⟩
abbrev FAB_SPMAP_UC0 (n : Nat) : Fld := ⟨FAB_SPMAP n, 0, 8⟩

abbrev FAB_CSEL : Nat := 0x40100020
abbrev FAB_CSEL_UC : Fld := ⟨FAB_CSEL, 0, 8⟩

abbrev FAB_CSTAT : Nat := 0x40100024
abbrev FAB_CSTAT_QUAL : Fld := ⟨FAB_CSTAT, 16, 16⟩
abbrev FAB_CSTAT_DRIVEN : Fld := ⟨FAB_CSTAT, 15, 1⟩
abbrev FAB_CSTAT_LEVEL : Fld := ⟨FAB_CSTAT, 14, 1⟩
abbrev FAB_CSTAT_PEND : Fld := ⟨FAB_CSTAT, 13, 1⟩
abbrev FAB_CSTAT_SPARE : Fld := ⟨FAB_CSTAT, 12, 1⟩
abbrev FAB_CSTAT_FUNC : Fld := ⟨FAB_CSTAT, 0, 4⟩

abbrev FAB_CVAL : Nat := 0x40100028
abbrev FAB_CVAL_VALUE : Fld := ⟨FAB_CVAL, 0, 32⟩

abbrev FAB_CAUX : Nat := 0x4010002C
abbrev FAB_CAUX_VALUE : Fld := ⟨FAB_CAUX, 0, 32⟩

abbrev FAB_DLSTAT (n : Nat) : Nat := 0x40100040 + n * 0x4
abbrev FAB_DLSTAT_DROPS (n : Nat) : Fld := ⟨FAB_DLSTAT n, 16, 16⟩
abbrev FAB_DLSTAT_FAILS (n : Nat) : Fld := ⟨FAB_DLSTAT n, 8, 8⟩
abbrev FAB_DLSTAT_QFILL (n : Nat) : Fld := ⟨FAB_DLSTAT n, 4, 4⟩
abbrev FAB_DLSTAT_STATE (n : Nat) : Fld := ⟨FAB_DLSTAT n, 0, 2⟩

/-- The registers of block 0x10. -/
def regsFAB : List RegDesc := [
  ⟨0x40100000, 0x1, 1, 0x1, 1, 0x1, 0, 0x3, 0, 0x80000000, 0, 0, .read⟩,
  ⟨0x40100004, 0x1, 1, 0x1, 1, 0x800, 0, 0, 0, 0, 0, 0, .read⟩,
  ⟨0x40100008, 0x1, 1, 0x1, 1, 0, 0, 0, 0, 0, 0, 0xFFFF, .read⟩,
  ⟨0x4010000C, 0x1, 1, 0x1, 1, 0, 0, 0, 0, 0, 0, 0, .read⟩,
  ⟨0x40100010, 0x4, 4, 0x1, 1, 0, 0, 0, 0, 0, 0, 0, .read⟩,
  ⟨0x40100020, 0x1, 1, 0x1, 1, 0, 0xFF, 0, 0, 0, 0, 0, .read⟩,
  ⟨0x40100024, 0x1, 1, 0x1, 1, 0, 0, 0, 0, 0, 0, 0, .read⟩,
  ⟨0x40100028, 0x1, 1, 0x1, 1, 0, 0, 0, 0, 0, 0, 0, .read⟩,
  ⟨0x4010002C, 0x1, 1, 0x1, 1, 0, 0, 0, 0, 0, 0, 0, .read⟩,
  ⟨0x40100040, 0x4, 16, 0x1, 1, 0, 0, 0, 0, 0, 0, 0, .read⟩]

/-! ### Block 0x11 MET: spec/07_metering.md -/

abbrev MET_CTL : Nat := 0x40110000
abbrev MET_CTL_LOCK : Fld := ⟨MET_CTL, 31, 1⟩
abbrev MET_CTL_FLUSHEN : Fld := ⟨MET_CTL, 8, 1⟩
abbrev MET_CTL_RUN : Fld := ⟨MET_CTL, 0, 1⟩

abbrev MET_STAT : Nat := 0x40110004
abbrev MET_STAT_TRIMSEQ : Fld := ⟨MET_STAT, 24, 8⟩
abbrev MET_STAT_FE : Fld := ⟨MET_STAT, 0, 2⟩

abbrev MET_BSEQ : Nat := 0x40110008
abbrev MET_BSEQ_BSEQ : Fld := ⟨MET_BSEQ, 0, 32⟩

abbrev MET_GAPS : Nat := 0x4011000C
abbrev MET_GAPS_COUNT : Fld := ⟨MET_GAPS, 0, 16⟩

abbrev MET_SAVE : Nat := 0x40110010
abbrev MET_SAVE_SEC : Fld := ⟨MET_SAVE, 0, 12⟩

abbrev MET_SSTAT : Nat := 0x40110014
abbrev MET_SSTAT_SKIPS : Fld := ⟨MET_SSTAT, 16, 16⟩
abbrev MET_SSTAT_FLINC : Fld := ⟨MET_SSTAT, 8, 1⟩
abbrev MET_SSTAT_SLOT : Fld := ⟨MET_SSTAT, 4, 1⟩
abbrev MET_SSTAT_KIND : Fld := ⟨MET_SSTAT, 0, 2⟩

abbrev MET_SSEQ : Nat := 0x40110018
abbrev MET_SSEQ_SEQ : Fld := ⟨MET_SSEQ, 0, 32⟩

abbrev MET_ARUP : Nat := 0x4011001C
abbrev MET_ARUP_HOLD : Fld := ⟨MET_ARUP, 0, 8⟩

abbrev MET_ARM0 : Nat := 0x40110020
abbrev MET_ARM0_MODES : Fld := ⟨MET_ARM0, 0, 32⟩

abbrev MET_ARM1 : Nat := 0x40110024
abbrev MET_ARM1_MODES : Fld := ⟨MET_ARM1, 0, 16⟩

abbrev MET_TCFG : Nat := 0x40110028
abbrev MET_TCFG_DT : Fld := ⟨MET_TCFG, 0, 8⟩

abbrev MET_TAPP : Nat := 0x4011002C
abbrev MET_TAPP_CAUSE : Fld := ⟨MET_TAPP, 30, 2⟩
abbrev MET_TAPP_TEMP : Fld := ⟨MET_TAPP, 0, 16⟩

abbrev MET_TCMD : Nat := 0x40110030
abbrev MET_TCMD_GO : Fld := ⟨MET_TCMD, 0, 1⟩

abbrev MET_TRIM (n : Nat) : Nat := 0x40110040 + n * 0x4
abbrev MET_TRIM_T (n : Nat) : Fld := ⟨MET_TRIM n, 0, 17⟩

abbrev MET_IRNG (n : Nat) : Nat := 0x40110180 + n * 0x4
abbrev MET_IRNG_HOLDCNT (n : Nat) : Fld := ⟨MET_IRNG n, 8, 8⟩
abbrev MET_IRNG_PGA (n : Nat) : Fld := ⟨MET_IRNG n, 2, 1⟩
abbrev MET_IRNG_RANGE (n : Nat) : Fld := ⟨MET_IRNG n, 0, 2⟩

abbrev MET_FRZL : Nat := 0x401101E0
abbrev MET_FRZL_TIME : Fld := ⟨MET_FRZL, 0, 32⟩

abbrev MET_FRZH : Nat := 0x401101E4
abbrev MET_FRZH_TIME : Fld := ⟨MET_FRZH, 0, 32⟩

/-- The registers of block 0x11, part 0. -/
def regsMET0 : List RegDesc := [
  ⟨0x40110000, 0x1, 1, 0x1, 1, 0x100, 0x1, 0x100, 0, 0x80000000, 0, 0, .read⟩,
  ⟨0x40110004, 0x1, 1, 0x1, 1, 0, 0, 0, 0, 0, 0, 0, .read⟩,
  ⟨0x40110008, 0x1, 1, 0x1, 1, 0, 0, 0, 0, 0, 0, 0, .read⟩,
  ⟨0x4011000C, 0x1, 1, 0x1, 1, 0, 0, 0, 0, 0, 0, 0, .read⟩,
  ⟨0x40110010, 0x1, 1, 0x1, 1, 0x3C, 0, 0xFFF, 0, 0, 0, 0, .read⟩,
  ⟨0x40110014, 0x1, 1, 0x1, 1, 0, 0, 0, 0, 0, 0, 0, .read⟩,
  ⟨0x40110018, 0x1, 1, 0x1, 1, 0, 0, 0, 0, 0, 0, 0, .read⟩,
  ⟨0x4011001C, 0x1, 1, 0x1, 1, 0x4, 0, 0xFF, 0, 0, 0, 0, .read⟩,
  ⟨0x40110020, 0x1, 1, 0x1, 1, 0, 0, 0xFFFFFFFF, 0, 0, 0, 0, .read⟩,
  ⟨0x40110024, 0x1, 1, 0x1, 1, 0, 0, 0xFFFF, 0, 0, 0, 0, .read⟩,
  ⟨0x40110028, 0x1, 1, 0x1, 1, 0xF, 0, 0xFF, 0, 0, 0, 0, .read⟩,
  ⟨0x4011002C, 0x1, 1, 0x1, 1, 0, 0, 0, 0, 0, 0, 0, .read⟩,
  ⟨0x40110030, 0x1, 1, 0x1, 1, 0, 0, 0, 0, 0, 0x1, 0, .read⟩,
  ⟨0x40110040, 0x4, 78, 0x1, 1, 0, 0x1FFFF, 0, 0, 0, 0, 0, .read⟩]

/-- The registers of block 0x11, part 1. -/
def regsMET1 : List RegDesc := [
  ⟨0x40110180, 0x4, 24, 0x1, 1, 0, 0, 0, 0, 0, 0, 0, .read⟩,
  ⟨0x401101E0, 0x1, 1, 0x1, 1, 0, 0, 0, 0, 0, 0, 0, .read⟩,
  ⟨0x401101E4, 0x1, 1, 0x1, 1, 0, 0, 0, 0, 0, 0, 0, .read⟩]

/-- The registers of block 0x11. -/
def regsMET : List RegDesc := regsMET0 ++ regsMET1

/-! ### Block 0x12 VOT: spec/03_lanes_and_voting.md -/

abbrev VOT_CTL : Nat := 0x40120000
abbrev VOT_CTL_LOCK : Fld := ⟨VOT_CTL, 31, 1⟩
abbrev VOT_CTL_RETN : Fld := ⟨VOT_CTL, 8, 4⟩
abbrev VOT_CTL_AUTO : Fld := ⟨VOT_CTL, 4, 1⟩

abbrev VOT_RWIN : Nat := 0x40120004
abbrev VOT_RWIN_HOURS : Fld := ⟨VOT_RWIN, 0, 8⟩

abbrev VOT_CUFF : Nat := 0x40120008
abbrev VOT_CUFF_REARMN : Fld := ⟨VOT_CUFF, 8, 4⟩
abbrev VOT_CUFF_HOLD : Fld := ⟨VOT_CUFF, 0, 8⟩

abbrev VOT_RCFG : Nat := 0x4012000C
abbrev VOT_RCFG_RATE : Fld := ⟨VOT_RCFG, 20, 2⟩
abbrev VOT_RCFG_ROUNDS : Fld := ⟨VOT_RCFG, 16, 4⟩
abbrev VOT_RCFG_FINMAX : Fld := ⟨VOT_RCFG, 0, 16⟩

abbrev VOT_PERMIT : Nat := 0x40120010
abbrev VOT_PERMIT_SOLO : Fld := ⟨VOT_PERMIT, 0, 1⟩

abbrev VOT_LCMD : Nat := 0x40120014
abbrev VOT_LCMD_LANE : Fld := ⟨VOT_LCMD, 8, 2⟩
abbrev VOT_LCMD_OP : Fld := ⟨VOT_LCMD, 0, 2⟩

abbrev VOT_STAT : Nat := 0x40120020
abbrev VOT_STAT_HOLDCNT : Fld := ⟨VOT_STAT, 24, 8⟩
abbrev VOT_STAT_CUFF : Fld := ⟨VOT_STAT, 16, 2⟩
abbrev VOT_STAT_AGREE : Fld := ⟨VOT_STAT, 12, 4⟩
abbrev VOT_STAT_VMASK : Fld := ⟨VOT_STAT, 8, 4⟩
abbrev VOT_STAT_SOLOUSE : Fld := ⟨VOT_STAT, 3, 1⟩
abbrev VOT_STAT_MODE : Fld := ⟨VOT_STAT, 0, 2⟩

abbrev VOT_VCYCL : Nat := 0x40120024
abbrev VOT_VCYCL_CYCLE : Fld := ⟨VOT_VCYCL, 0, 32⟩

abbrev VOT_VCYCH : Nat := 0x40120028
abbrev VOT_VCYCH_CYCLE : Fld := ⟨VOT_VCYCH, 0, 32⟩

abbrev VOT_MIS : Nat := 0x4012002C
abbrev VOT_MIS_REGION : Fld := ⟨VOT_MIS, 30, 2⟩
abbrev VOT_MIS_LANES : Fld := ⟨VOT_MIS, 24, 4⟩
abbrev VOT_MIS_WORD : Fld := ⟨VOT_MIS, 0, 18⟩

abbrev VOT_LSTAT (n : Nat) : Nat := 0x40124000 + n * 0x1000
abbrev VOT_LSTAT_DONOR (n : Nat) : Fld := ⟨VOT_LSTAT n, 16, 1⟩
abbrev VOT_LSTAT_ROUND (n : Nat) : Fld := ⟨VOT_LSTAT n, 12, 4⟩
abbrev VOT_LSTAT_WINCNT (n : Nat) : Fld := ⟨VOT_LSTAT n, 8, 4⟩
abbrev VOT_LSTAT_CAUSE (n : Nat) : Fld := ⟨VOT_LSTAT n, 4, 4⟩
abbrev VOT_LSTAT_STATE (n : Nat) : Fld := ⟨VOT_LSTAT n, 0, 3⟩

abbrev VOT_LDIRTY (n : Nat) : Nat := 0x40124004 + n * 0x1000
abbrev VOT_LDIRTY_COUNT (n : Nat) : Fld := ⟨VOT_LDIRTY n, 0, 18⟩

abbrev VOT_LREM (n : Nat) : Nat := 0x40124008 + n * 0x1000
abbrev VOT_LREM_COUNT (n : Nat) : Fld := ⟨VOT_LREM n, 0, 16⟩

abbrev VOT_LDIGL (n : Nat) : Nat := 0x4012400C + n * 0x1000
abbrev VOT_LDIGL_DIGEST (n : Nat) : Fld := ⟨VOT_LDIGL n, 0, 32⟩

abbrev VOT_LDIGH (n : Nat) : Nat := 0x40124010 + n * 0x1000
abbrev VOT_LDIGH_DIGEST (n : Nat) : Fld := ⟨VOT_LDIGH n, 0, 32⟩

/-- The registers of block 0x12, part 0. -/
def regsVOT0 : List RegDesc := [
  ⟨0x40120000, 0x1, 1, 0x1, 1, 0x310, 0, 0xF10, 0, 0x80000000, 0, 0, .read⟩,
  ⟨0x40120004, 0x1, 1, 0x1, 1, 0x18, 0, 0xFF, 0, 0, 0, 0, .read⟩,
  ⟨0x40120008, 0x1, 1, 0x1, 1, 0x208, 0xFFF, 0, 0, 0, 0, 0, .read⟩,
  ⟨0x4012000C, 0x1, 1, 0x1, 1, 0x181000, 0, 0x3FFFFF, 0, 0, 0, 0, .read⟩,
  ⟨0x40120010, 0x1, 1, 0x1, 1, 0, 0x1, 0, 0, 0, 0, 0, .read⟩,
  ⟨0x40120014, 0x1, 1, 0x1, 1, 0, 0, 0, 0, 0, 0x303, 0, .read⟩,
  ⟨0x40120020, 0x1, 1, 0x1, 1, 0x20003, 0, 0, 0, 0, 0, 0, .read⟩,
  ⟨0x40120024, 0x1, 1, 0x1, 1, 0, 0, 0, 0, 0, 0, 0, .read⟩,
  ⟨0x40120028, 0x1, 1, 0x1, 1, 0, 0, 0, 0, 0, 0, 0, .read⟩,
  ⟨0x4012002C, 0x1, 1, 0x1, 1, 0, 0, 0, 0, 0, 0, 0xCF03FFFF, .read⟩,
  ⟨0x40124000, 0x1000, 4, 0x1, 1, 0, 0, 0, 0, 0, 0, 0, .read⟩,
  ⟨0x40124004, 0x1000, 4, 0x1, 1, 0, 0, 0, 0, 0, 0, 0, .read⟩,
  ⟨0x40124008, 0x1000, 4, 0x1, 1, 0, 0, 0, 0, 0, 0, 0, .read⟩,
  ⟨0x4012400C, 0x1000, 4, 0x1, 1, 0, 0, 0, 0, 0, 0, 0, .read⟩]

/-- The registers of block 0x12, part 1. -/
def regsVOT1 : List RegDesc := [
  ⟨0x40124010, 0x1000, 4, 0x1, 1, 0, 0, 0, 0, 0, 0, 0, .read⟩]

/-- The registers of block 0x12. -/
def regsVOT : List RegDesc := regsVOT0 ++ regsVOT1

/-! ### Block 0x13 CYC: spec/04_cycle_engine.md -/

abbrev CYC_CTL : Nat := 0x40130000
abbrev CYC_CTL_LOCK : Fld := ⟨CYC_CTL, 31, 1⟩
abbrev CYC_CTL_HALTOUT : Fld := ⟨CYC_CTL, 8, 1⟩
abbrev CYC_CTL_OVRN : Fld := ⟨CYC_CTL, 0, 8⟩

abbrev CYC_FACT : Nat := 0x40130004
abbrev CYC_FACT_REAL : Fld := ⟨CYC_FACT, 7, 1⟩
abbrev CYC_FACT_STACK : Fld := ⟨CYC_FACT, 6, 1⟩
abbrev CYC_FACT_ILLEGAL : Fld := ⟨CYC_FACT, 5, 1⟩
abbrev CYC_FACT_OVERRUN : Fld := ⟨CYC_FACT, 4, 1⟩
abbrev CYC_FACT_WRITEIN : Fld := ⟨CYC_FACT, 3, 1⟩
abbrev CYC_FACT_INDEX : Fld := ⟨CYC_FACT, 2, 1⟩
abbrev CYC_FACT_DIV0 : Fld := ⟨CYC_FACT, 1, 1⟩

abbrev CYC_STAT : Nat := 0x40130008
abbrev CYC_STAT_HCAUSE : Fld := ⟨CYC_STAT, 20, 4⟩
abbrev CYC_STAT_OVRCNT : Fld := ⟨CYC_STAT, 8, 8⟩
abbrev CYC_STAT_STATE : Fld := ⟨CYC_STAT, 0, 2⟩

abbrev CYC_BUDG : Nat := 0x4013000C
abbrev CYC_BUDG_B : Fld := ⟨CYC_BUDG, 0, 32⟩

abbrev CYC_PALW : Nat := 0x40130010
abbrev CYC_PALW_PA : Fld := ⟨CYC_PALW, 0, 32⟩

abbrev CYC_USED : Nat := 0x40130014
abbrev CYC_USED_CLOCKS : Fld := ⟨CYC_USED, 0, 32⟩

abbrev CYC_PEAK : Nat := 0x40130018
abbrev CYC_PEAK_CLOCKS : Fld := ⟨CYC_PEAK, 0, 32⟩

abbrev CYC_FLT : Nat := 0x4013001C
abbrev CYC_FLT_VALID : Fld := ⟨CYC_FLT, 31, 1⟩
abbrev CYC_FLT_CLASS : Fld := ⟨CYC_FLT, 28, 3⟩
abbrev CYC_FLT_TASK : Fld := ⟨CYC_FLT, 24, 4⟩
abbrev CYC_FLT_OFFSET : Fld := ⟨CYC_FLT, 0, 20⟩

abbrev CYC_FLTCY : Nat := 0x40130020
abbrev CYC_FLTCY_CYCLE : Fld := ⟨CYC_FLTCY, 0, 32⟩

abbrev CYC_CHGMAX : Nat := 0x40130030
abbrev CYC_CHGMAX_MAX : Fld := ⟨CYC_CHGMAX, 0, 13⟩

abbrev CYC_CHGST : Nat := 0x40130034
abbrev CYC_CHGST_FILL : Fld := ⟨CYC_CHGST, 0, 13⟩

abbrev CYC_CAPS : Nat := 0x40130038
abbrev CYC_CAPS_SEQ : Fld := ⟨CYC_CAPS, 0, 32⟩

abbrev CYC_CAPC : Nat := 0x4013003C
abbrev CYC_CAPC_CYCLE : Fld := ⟨CYC_CAPC, 0, 32⟩

abbrev CYC_HSUBT : Nat := 0x40130040
abbrev CYC_HSUBT_INDEX : Fld := ⟨CYC_HSUBT, 0, 17⟩
abbrev CYC_HSUBT_KIND : Fld := ⟨CYC_HSUBT, 17, 2⟩

abbrev CYC_HSUBL : Nat := 0x40130044
abbrev CYC_HSUBL_VALUE : Fld := ⟨CYC_HSUBL, 0, 32⟩

abbrev CYC_HSUBH : Nat := 0x40130048
abbrev CYC_HSUBH_VALUE : Fld := ⟨CYC_HSUBH, 0, 32⟩

abbrev CYC_HSUBG : Nat := 0x4013004C
abbrev CYC_HSUBG_GO : Fld := ⟨CYC_HSUBG, 0, 1⟩

abbrev CYC_HSUBR : Nat := 0x40130050
abbrev CYC_HSUBR_CODE : Fld := ⟨CYC_HSUBR, 0, 16⟩

abbrev CYC_HSUBS : Nat := 0x40130054
abbrev CYC_HSUBS_SEQ : Fld := ⟨CYC_HSUBS, 0, 32⟩

abbrev CYC_MSUBT : Nat := 0x40130060
abbrev CYC_MSUBT_INDEX : Fld := ⟨CYC_MSUBT, 0, 17⟩
abbrev CYC_MSUBT_KIND : Fld := ⟨CYC_MSUBT, 17, 2⟩

abbrev CYC_MSUBL : Nat := 0x40130064
abbrev CYC_MSUBL_VALUE : Fld := ⟨CYC_MSUBL, 0, 32⟩

abbrev CYC_MSUBH : Nat := 0x40130068
abbrev CYC_MSUBH_VALUE : Fld := ⟨CYC_MSUBH, 0, 32⟩

abbrev CYC_MSUBG : Nat := 0x4013006C
abbrev CYC_MSUBG_GO : Fld := ⟨CYC_MSUBG, 0, 1⟩

abbrev CYC_MSUBR : Nat := 0x40130070
abbrev CYC_MSUBR_CODE : Fld := ⟨CYC_MSUBR, 0, 16⟩

abbrev CYC_MSUBS : Nat := 0x40130074
abbrev CYC_MSUBS_SEQ : Fld := ⟨CYC_MSUBS, 0, 32⟩

abbrev CYC_RSAVE : Nat := 0x40130080
abbrev CYC_RSAVE_DIG : Fld := ⟨CYC_RSAVE, 0, 8⟩

abbrev CYC_RSTAT : Nat := 0x40130084
abbrev CYC_RSTAT_SLOT : Fld := ⟨CYC_RSTAT, 16, 1⟩
abbrev CYC_RSTAT_SKIPS : Fld := ⟨CYC_RSTAT, 0, 16⟩

/-- The registers of block 0x13, part 0. -/
def regsCYC0 : List RegDesc := [
  ⟨0x40130000, 0x1, 1, 0x1, 1, 0x3, 0, 0x1FF, 0, 0x80000000, 0, 0, .full⟩,
  ⟨0x40130004, 0x1, 1, 0x1, 1, 0x60, 0, 0x9E, 0, 0, 0, 0, .full⟩,
  ⟨0x40130008, 0x1, 1, 0x1, 1, 0, 0, 0, 0, 0, 0, 0, .full⟩,
  ⟨0x4013000C, 0x1, 1, 0x1, 1, 0, 0, 0, 0, 0, 0, 0, .full⟩,
  ⟨0x40130010, 0x1, 1, 0x1, 1, 0, 0, 0, 0, 0, 0, 0, .full⟩,
  ⟨0x40130014, 0x1, 1, 0x1, 1, 0, 0, 0, 0, 0, 0, 0, .full⟩,
  ⟨0x40130018, 0x1, 1, 0x1, 1, 0, 0, 0, 0, 0, 0, 0xFFFFFFFF, .full⟩,
  ⟨0x4013001C, 0x1, 1, 0x1, 1, 0, 0, 0, 0, 0, 0, 0xFF0FFFFF, .full⟩,
  ⟨0x40130020, 0x1, 1, 0x1, 1, 0, 0, 0, 0, 0, 0, 0, .full⟩,
  ⟨0x40130030, 0x1, 1, 0x1, 1, 0x100, 0, 0x1FFF, 0, 0, 0, 0, .full⟩,
  ⟨0x40130034, 0x1, 1, 0x1, 1, 0, 0, 0, 0, 0, 0, 0, .full⟩,
  ⟨0x40130038, 0x1, 1, 0x1, 1, 0, 0, 0, 0, 0, 0, 0, .full⟩,
  ⟨0x4013003C, 0x1, 1, 0x1, 1, 0, 0, 0, 0, 0, 0, 0, .full⟩,
  ⟨0x40130040, 0x1, 1, 0x1, 1, 0, 0x7FFFF, 0, 0, 0, 0, 0, .full⟩]

/-- The registers of block 0x13, part 1. -/
def regsCYC1 : List RegDesc := [
  ⟨0x40130044, 0x1, 1, 0x1, 1, 0, 0xFFFFFFFF, 0, 0, 0, 0, 0, .full⟩,
  ⟨0x40130048, 0x1, 1, 0x1, 1, 0, 0xFFFFFFFF, 0, 0, 0, 0, 0, .full⟩,
  ⟨0x4013004C, 0x1, 1, 0x1, 1, 0, 0, 0, 0, 0, 0x1, 0, .full⟩,
  ⟨0x40130050, 0x1, 1, 0x1, 1, 0, 0, 0, 0, 0, 0, 0, .full⟩,
  ⟨0x40130054, 0x1, 1, 0x1, 1, 0, 0, 0, 0, 0, 0, 0, .full⟩,
  ⟨0x40130060, 0x1, 1, 0x1, 1, 0, 0x7FFFF, 0, 0, 0, 0, 0, .none⟩,
  ⟨0x40130064, 0x1, 1, 0x1, 1, 0, 0xFFFFFFFF, 0, 0, 0, 0, 0, .none⟩,
  ⟨0x40130068, 0x1, 1, 0x1, 1, 0, 0xFFFFFFFF, 0, 0, 0, 0, 0, .none⟩,
  ⟨0x4013006C, 0x1, 1, 0x1, 1, 0, 0, 0, 0, 0, 0x1, 0, .none⟩,
  ⟨0x40130070, 0x1, 1, 0x1, 1, 0, 0, 0, 0, 0, 0, 0, .none⟩,
  ⟨0x40130074, 0x1, 1, 0x1, 1, 0, 0, 0, 0, 0, 0, 0, .none⟩,
  ⟨0x40130080, 0x1, 1, 0x1, 1, 0x4, 0, 0xFF, 0, 0, 0, 0, .full⟩,
  ⟨0x40130084, 0x1, 1, 0x1, 1, 0, 0, 0, 0, 0, 0, 0, .full⟩]

/-- The registers of block 0x13. -/
def regsCYC : List RegDesc := regsCYC0 ++ regsCYC1

/-! ### Block 0x14 LOOP: spec/06_loop_engine.md -/

abbrev LOOP_CTL : Nat := 0x40140000
abbrev LOOP_CTL_LOCK : Fld := ⟨LOOP_CTL, 31, 1⟩
abbrev LOOP_CTL_EVREG : Fld := ⟨LOOP_CTL, 1, 1⟩
abbrev LOOP_CTL_EVMODE : Fld := ⟨LOOP_CTL, 0, 1⟩

abbrev LOOP_CFG : Nat := 0x40140004
abbrev LOOP_CFG_CFG : Fld := ⟨LOOP_CFG, 0, 14⟩

abbrev LOOP_CHG : Nat := 0x40140008
abbrev LOOP_CHG_CHARGE : Fld := ⟨LOOP_CHG, 0, 32⟩

abbrev LOOP_TRIPS : Nat := 0x4014000C
abbrev LOOP_TRIPS_PVBAD : Fld := ⟨LOOP_TRIPS, 16, 14⟩
abbrev LOOP_TRIPS_TRIP : Fld := ⟨LOOP_TRIPS, 0, 14⟩

abbrev LOOP_EVLOST : Nat := 0x40140010
abbrev LOOP_EVLOST_COUNT : Fld := ⟨LOOP_EVLOST, 0, 16⟩

abbrev LOOP_SSEL : Nat := 0x40140020
abbrev LOOP_SSEL_SLOT : Fld := ⟨LOOP_SSEL, 0, 13⟩

abbrev LOOP_SWIN (n : Nat) : Nat := 0x40140040 + n * 0x4
abbrev LOOP_SWIN_WORD (n : Nat) : Fld := ⟨LOOP_SWIN n, 0, 32⟩

abbrev LOOP_TRS (n : Nat) : Nat := 0x40140100 + n * 0x10
abbrev LOOP_TRS_TIDX (n : Nat) : Fld := ⟨LOOP_TRS n, 16, 12⟩
abbrev LOOP_TRS_WIDX (n : Nat) : Fld := ⟨LOOP_TRS n, 4, 12⟩
abbrev LOOP_TRS_STATE (n : Nat) : Fld := ⟨LOOP_TRS n, 0, 3⟩

abbrev LOOP_TRC (n : Nat) : Nat := 0x40140104 + n * 0x10
abbrev LOOP_TRC_CYCLE (n : Nat) : Fld := ⟨LOOP_TRC n, 0, 32⟩

abbrev LOOP_TRL (n : Nat) : Nat := 0x40140108 + n * 0x10
abbrev LOOP_TRL_LOCKER (n : Nat) : Fld := ⟨LOOP_TRL n, 16, 10⟩
abbrev LOOP_TRL_SLOT (n : Nat) : Fld := ⟨LOOP_TRL n, 0, 13⟩

abbrev LOOP_TRRD : Nat := 0x40140200
abbrev LOOP_TRRD_IDX : Fld := ⟨LOOP_TRRD, 16, 12⟩
abbrev LOOP_TRRD_CH : Fld := ⟨LOOP_TRRD, 0, 4⟩

abbrev LOOP_TRDAT : Nat := 0x40140204
abbrev LOOP_TRDAT_HI : Fld := ⟨LOOP_TRDAT, 16, 16⟩
abbrev LOOP_TRDAT_LO : Fld := ⟨LOOP_TRDAT, 0, 16⟩

/-- The registers of block 0x14. -/
def regsLOOP : List RegDesc := [
  ⟨0x40140000, 0x1, 1, 0x1, 1, 0, 0, 0x3, 0, 0x80000000, 0, 0, .full⟩,
  ⟨0x40140004, 0x1, 1, 0x1, 1, 0, 0, 0, 0, 0, 0, 0, .full⟩,
  ⟨0x40140008, 0x1, 1, 0x1, 1, 0, 0, 0, 0, 0, 0, 0, .full⟩,
  ⟨0x4014000C, 0x1, 1, 0x1, 1, 0, 0, 0, 0, 0, 0, 0, .full⟩,
  ⟨0x40140010, 0x1, 1, 0x1, 1, 0, 0, 0, 0, 0, 0, 0xFFFF, .full⟩,
  ⟨0x40140020, 0x1, 1, 0x1, 1, 0, 0x1FFF, 0, 0, 0, 0, 0, .full⟩,
  ⟨0x40140040, 0x4, 16, 0x1, 1, 0, 0, 0, 0, 0, 0, 0, .full⟩,
  ⟨0x40140100, 0x10, 16, 0x1, 1, 0, 0, 0, 0, 0, 0, 0, .full⟩,
  ⟨0x40140104, 0x10, 16, 0x1, 1, 0, 0, 0, 0, 0, 0, 0, .full⟩,
  ⟨0x40140108, 0x10, 16, 0x1, 1, 0, 0, 0, 0, 0, 0, 0, .full⟩,
  ⟨0x40140200, 0x1, 1, 0x1, 1, 0, 0xFFF000F, 0, 0, 0, 0, 0, .full⟩,
  ⟨0x40140204, 0x1, 1, 0x1, 1, 0, 0, 0, 0, 0, 0, 0, .full⟩]

/-! ### Block 0x15 LCK: spec/16_keys_tamper_lockers.md -/

abbrev LCK_CTL : Nat := 0x40150000
abbrev LCK_CTL_LOCK : Fld := ⟨LCK_CTL, 31, 1⟩

abbrev LCK_PBIND (n : Nat) : Nat := 0x40150100 + n * 0x20
abbrev LCK_PBIND_VALID (n : Nat) : Fld := ⟨LCK_PBIND n, 31, 1⟩
abbrev LCK_PBIND_WRITE (n : Nat) : Fld := ⟨LCK_PBIND n, 16, 1⟩
abbrev LCK_PBIND_LOCKER (n : Nat) : Fld := ⟨LCK_PBIND n, 0, 10⟩

abbrev LCK_PEXP (n : Nat) : Nat := 0x40150104 + n * 0x20
abbrev LCK_PEXP_SEC (n : Nat) : Fld := ⟨LCK_PEXP n, 0, 32⟩

abbrev LCK_PSTAT (n : Nat) : Nat := 0x40150108 + n * 0x20
abbrev LCK_PSTAT_WREF (n : Nat) : Fld := ⟨LCK_PSTAT n, 16, 16⟩
abbrev LCK_PSTAT_RREF (n : Nat) : Fld := ⟨LCK_PSTAT n, 0, 16⟩

abbrev LCK_PSEQ (n : Nat) : Nat := 0x4015010C + n * 0x20
abbrev LCK_PSEQ_SEQ (n : Nat) : Fld := ⟨LCK_PSEQ n, 0, 32⟩

abbrev LCK_PCODE (n : Nat) : Nat := 0x40150110 + n * 0x20
abbrev LCK_PCODE_CODE (n : Nat) : Fld := ⟨LCK_PCODE n, 0, 16⟩

abbrev LCK_RNGA (n : Nat) : Nat := 0x40150400 + n * 0x8
abbrev LCK_RNGA_BASE (n : Nat) : Fld := ⟨LCK_RNGA n, 16, 16⟩
abbrev LCK_RNGA_EN (n : Nat) : Fld := ⟨LCK_RNGA n, 15, 1⟩
abbrev LCK_RNGA_LOCKER (n : Nat) : Fld := ⟨LCK_RNGA n, 0, 10⟩

abbrev LCK_RNGS (n : Nat) : Nat := 0x40150404 + n * 0x8
abbrev LCK_RNGS_SIZE (n : Nat) : Fld := ⟨LCK_RNGS n, 0, 14⟩

/-- The registers of block 0x15. -/
def regsLCK : List RegDesc := [
  ⟨0x40150000, 0x1, 1, 0x1, 1, 0, 0, 0, 0, 0x80000000, 0, 0, .read⟩,
  ⟨0x40150100, 0x20, 16, 0x1, 1, 0, 0x800103FF, 0, 0, 0, 0, 0, .read⟩,
  ⟨0x40150104, 0x20, 16, 0x1, 1, 0, 0xFFFFFFFF, 0, 0, 0, 0, 0, .read⟩,
  ⟨0x40150108, 0x20, 16, 0x1, 1, 0, 0, 0, 0, 0, 0, 0xFFFFFFFF, .read⟩,
  ⟨0x4015010C, 0x20, 16, 0x1, 1, 0, 0, 0, 0, 0, 0, 0, .read⟩,
  ⟨0x40150110, 0x20, 16, 0x1, 1, 0, 0, 0, 0, 0, 0, 0, .read⟩,
  ⟨0x40150400, 0x8, 64, 0x1, 1, 0, 0xFFFF83FF, 0, 0, 0, 0, 0, .read⟩,
  ⟨0x40150404, 0x8, 64, 0x1, 1, 0, 0x3FFF, 0, 0, 0, 0, 0, .read⟩]

/-! ### Block 0x16 MGT: spec/18_management_and_event_recorder.md -/

abbrev MGT_CTL : Nat := 0x40160000
abbrev MGT_CTL_LOCK : Fld := ⟨MGT_CTL, 31, 1⟩

abbrev MGT_STAT : Nat := 0x40160004
abbrev MGT_STAT_FWRUN : Fld := ⟨MGT_STAT, 31, 1⟩

abbrev MGT_WDT : Nat := 0x40160008
abbrev MGT_WDT_TMO : Fld := ⟨MGT_WDT, 0, 16⟩

abbrev MGT_WDKICK : Nat := 0x4016000C
abbrev MGT_WDKICK_KEY : Fld := ⟨MGT_WDKICK, 0, 16⟩

abbrev MGT_HCMD : Nat := 0x40160010
abbrev MGT_HCMD_GO : Fld := ⟨MGT_HCMD, 31, 1⟩
abbrev MGT_HCMD_OP : Fld := ⟨MGT_HCMD, 0, 8⟩

abbrev MGT_HRES : Nat := 0x40160014
abbrev MGT_HRES_DONE : Fld := ⟨MGT_HRES, 31, 1⟩
abbrev MGT_HRES_BUSY : Fld := ⟨MGT_HRES, 30, 1⟩
abbrev MGT_HRES_CODE : Fld := ⟨MGT_HRES, 0, 16⟩

abbrev MGT_FINT : Nat := 0x40160018
abbrev MGT_FINT_FAULT : Fld := ⟨MGT_FINT, 0, 1⟩

abbrev MGT_FINTEN : Nat := 0x4016001C
abbrev MGT_FINTEN_FAULT : Fld := ⟨MGT_FINTEN, 0, 1⟩

abbrev MGT_SEN (n : Nat) : Nat := 0x40160040 + n * 0x4
abbrev MGT_SEN_STATE (n : Nat) : Fld := ⟨MGT_SEN n, 30, 2⟩
abbrev MGT_SEN_VALUE (n : Nat) : Fld := ⟨MGT_SEN n, 0, 16⟩

abbrev MGT_SLIM (n : Nat) : Nat := 0x40160080 + n * 0x4
abbrev MGT_SLIM_FAULT (n : Nat) : Fld := ⟨MGT_SLIM n, 16, 16⟩
abbrev MGT_SLIM_WARN (n : Nat) : Fld := ⟨MGT_SLIM n, 0, 16⟩

/-- The registers of block 0x16. -/
def regsMGT : List RegDesc := [
  ⟨0x40160000, 0x1, 1, 0x1, 1, 0, 0, 0, 0, 0x80000000, 0, 0, .full⟩,
  ⟨0x40160004, 0x1, 1, 0x1, 1, 0, 0, 0, 0, 0, 0, 0, .full⟩,
  ⟨0x40160008, 0x1, 1, 0x1, 1, 0x1F4, 0, 0xFFFF, 0, 0, 0, 0, .none⟩,
  ⟨0x4016000C, 0x1, 1, 0x1, 1, 0, 0, 0, 0, 0, 0xFFFF, 0, .none⟩,
  ⟨0x40160010, 0x1, 1, 0x1, 1, 0, 0, 0, 0, 0, 0x800000FF, 0, .full⟩,
  ⟨0x40160014, 0x1, 1, 0x1, 1, 0, 0, 0, 0, 0, 0, 0, .full⟩,
  ⟨0x40160018, 0x1, 1, 0x1, 1, 0, 0, 0, 0x1, 0, 0, 0, .full⟩,
  ⟨0x4016001C, 0x1, 1, 0x1, 1, 0, 0x1, 0, 0, 0, 0, 0, .full⟩,
  ⟨0x40160040, 0x4, 14, 0x1, 1, 0, 0, 0, 0, 0, 0, 0, .full⟩,
  ⟨0x40160080, 0x4, 13, 0x1, 1, 0x32001E, 0, 0xFFFFFFFF, 0, 0, 0, 0, .none⟩]

/-! ### Block 0x17 PCI: spec/01_architecture.md -/

abbrev PCI_DWB : Nat := 0x40170040
abbrev PCI_DWB_BASE : Fld := ⟨PCI_DWB, 26, 6⟩
abbrev PCI_DWB_EN : Fld := ⟨PCI_DWB, 0, 1⟩

abbrev PCI_MSIX (n : Nat) : Nat := 0x40178000 + n * 0x4
abbrev PCI_MSIX_WORD (n : Nat) : Fld := ⟨PCI_MSIX n, 0, 32⟩

abbrev PCI_PBA (n : Nat) : Nat := 0x40179000 + n * 0x4
abbrev PCI_PBA_BITS (n : Nat) : Fld := ⟨PCI_PBA n, 0, 32⟩

/-- The registers of block 0x17. -/
def regsPCI : List RegDesc := [
  ⟨0x40170040, 0x1, 1, 0x1, 1, 0, 0xFC000001, 0, 0, 0, 0, 0, .full⟩,
  ⟨0x40178000, 0x4, 128, 0x1, 1, 0, 0xFFFFFFFF, 0, 0, 0, 0, 0, .full⟩,
  ⟨0x40179000, 0x4, 2, 0x1, 1, 0, 0, 0, 0, 0, 0, 0, .full⟩]

/-- The registers of block `b`; none outside the table of R31. -/
def blockRegs (b : Nat) : List RegDesc :=
  match b with
  | 1 => regsSYS
  | 2 => regsCLK
  | 3 => regsPWR
  | 4 => regsANG
  | 5 => regsRTC
  | 6 => regsCEL
  | 7 => regsKEY
  | 8 => regsUPD
  | 9 => regsEVR
  | 10 => regsARB
  | 11 => regsDMA
  | 12 => regsMEM
  | 13 => regsNET
  | 14 => regsCAN
  | 15 => regsHIT
  | 16 => regsFAB
  | 17 => regsMET
  | 18 => regsVOT
  | 19 => regsCYC
  | 20 => regsLOOP
  | 21 => regsLCK
  | 22 => regsMGT
  | 23 => regsPCI
  | _ => []

/-- The register at a module address, where the spec defines one. -/
def regAt (a : Nat) : Option RegDesc :=
  (blockRegs ((a - 0x40000000) / 0x10000)).find? fun r => r.covers a

/-- The reset values that differ from their array's: NET2 (R313), the arbiter's classes (R341), the CAN ring 0 (R338), the
sensor limits (R463). -/
def resetOverride : List (Nat × Word) := [
  (NET_CTL 2, 0x80#32), (NET_ADV 2, 0x7#32),
  (MGT_SLIM 0, 0x04E2044C#32), (MGT_SLIM 1, 0x04E2044C#32), (MGT_SLIM 2, 0x04E2044C#32), (MGT_SLIM 3, 0x04E2044C#32),
  (MGT_SLIM 4, 0x03B60352#32),
  (DMA_CRCFG 0 0, 0x00010004#32), (DMA_CRCFG 1 0, 0x00010004#32), (DMA_CRCFG 2 0, 0x00010004#32), (DMA_CRCFG 3 0, 0x00010004#32), (DMA_CRCFG 4 0, 0x00010004#32), (DMA_CRCFG 5 0, 0x00010004#32), (DMA_CRCFG 6 0, 0x00010004#32), (DMA_CRCFG 7 0, 0x00010004#32),
  (ARB_RCFG 2, 0x08000001#32), (ARB_RCFG 7, 0x20000003#32), (ARB_RCFG 8, 0x08000001#32), (ARB_RCFG 9, 0x08000001#32), (ARB_RCFG 10, 0x08000001#32), (ARB_RCFG 11, 0x10000002#32), (ARB_RCFG 12, 0x10000002#32), (ARB_RCFG 15, 0x20000003#32), (ARB_RCFG 16, 0x10000002#32), (ARB_RCFG 17, 0x10000002#32), (ARB_RCFG 18, 0x10000002#32), (ARB_RCFG 19, 0x10000002#32), (ARB_RCFG 20, 0x10000002#32), (ARB_RCFG 21, 0x10000002#32), (ARB_RCFG 22, 0x10000002#32), (ARB_RCFG 23, 0x10000002#32), (ARB_RCFG 24, 0x10000002#32), (ARB_RCFG 25, 0x10000002#32), (ARB_RCFG 26, 0x20000003#32), (ARB_RCFG 27, 0x20000003#32), (ARB_RCFG 28, 0x20000003#32), (ARB_RCFG 29, 0x20000003#32), (ARB_RCFG 30, 0x20000003#32), (ARB_RCFG 31, 0x20000003#32)]

/-- What a register reads as that nothing has written since reset: its reset value. -/
def regReset (a : Nat) : Word :=
  match resetOverride.find? fun c => c.1 == a with
  | some c => c.2
  | none =>
    match regAt a with
    | some r => BitVec.ofNat 32 r.reset
    | none => 0#32

end Sys2Proof.Machine
end

