-- ==== Sys2Proof/Machine/Sparse.lean ====
section
/-!
DEFINITION. Sparse stores. A store is a list of (key, value) pairs with keys strictly rising and no pair that holds what
an unlisted key reads as, so that equal stores are equal data. One shape serves the register file, the memories and the
tables the part keeps by number.
-/
namespace Sys2Proof.Machine

/-- What key `k` reads as; an unlisted key reads as `d k`. -/
def sget {α : Type} (d : Nat → α) : List (Nat × α) → Nat → α
  | [], k => d k
  | (a, v) :: m, k => if a = k then v else sget d m k

/-- The store without key `k`. -/
def serase {α : Type} (m : List (Nat × α)) (k : Nat) : List (Nat × α) := m.filter fun c => c.1 != k

/-- The pair put in its place of a store that rises. -/
def sins {α : Type} (k : Nat) (v : α) : List (Nat × α) → List (Nat × α)
  | [] => [(k, v)]
  | (a, w) :: m => if k < a then (k, v) :: (a, w) :: m else (a, w) :: sins k v m

/-- Key `k` given the value `v`; a value that an unlisted key reads as takes the pair away. -/
def sset {α : Type} [DecidableEq α] (d : Nat → α) (m : List (Nat × α)) (k : Nat) (v : α) : List (Nat × α) :=
  if v = d k then serase m k else sins k v (serase m k)

/-- Every pair whose key lies in `[lo, hi)` taken away. -/
def sclear {α : Type} (m : List (Nat × α)) (lo hi : Nat) : List (Nat × α) :=
  m.filter fun c => c.1 < lo || hi ≤ c.1

/-- The pairs whose keys lie in `[lo, hi)`. -/
def srange {α : Type} (m : List (Nat × α)) (lo hi : Nat) : List (Nat × α) :=
  m.filter fun c => lo ≤ c.1 && c.1 < hi

/-- The canonical form: keys strictly rising, and no pair that an unlisted key would read as. -/
def swf {α : Type} [DecidableEq α] (d : Nat → α) : List (Nat × α) → Bool
  | [] => true
  | (a, v) :: m => decide (v ≠ d a) && m.all (fun c => decide (a < c.1)) && swf d m

/-! ## Memory -/

/-- What a byte that nothing has written reads as: 0 (DESIGN CHOICE, notes/assumptions/2.md). -/
def memDefault : Nat → Byte := fun _ => 0#8

/-- A memory's canonical form. -/
def Memory.wf (m : List Host.Cell) : Bool := swf memDefault m

/-- One byte. -/
def memByte (m : List Host.Cell) (a : Nat) : Byte := sget memDefault m a

/-- One byte written. -/
def memSetByte (m : List Host.Cell) (a : Nat) (v : Byte) : List Host.Cell := sset memDefault m a v

/-- `n` bytes from `a` up, little-endian (R8, spec/00_scope.md). -/
def memRead (m : List Host.Cell) (a : Nat) : Nat → Nat
  | 0 => 0
  | n + 1 => (memByte m a).toNat + 256 * memRead m (a + 1) n

/-- `n` bytes of `v`, little-endian, written from `a` up. -/
def memWrite (m : List Host.Cell) (a : Nat) : Nat → Nat → List Host.Cell
  | 0, _ => m
  | n + 1, v => memWrite (memSetByte m a (BitVec.ofNat 8 v)) (a + 1) n (v / 256)

/-- A row of bytes read. -/
def memBytes (m : List Host.Cell) (a n : Nat) : List Nat := (List.range n).map fun i => (memByte m (a + i)).toNat

/-- A row of bytes written. -/
def memPutBytes (m : List Host.Cell) (a : Nat) : List Nat → List Host.Cell
  | [] => m
  | b :: bs => memPutBytes (memSetByte m a (BitVec.ofNat 8 b)) (a + 1) bs

/-- The bytes `[lo, lo + n)` set to zero. -/
def memZero (m : List Host.Cell) (lo n : Nat) : List Host.Cell := sclear m lo (lo + n)

/-- `n` bytes copied from `src` to `dst`: every listed byte of the source takes the place of the target's. -/
def memCopy (m : List Host.Cell) (dst src n : Nat) : List Host.Cell :=
  (srange m src (src + n)).foldr (fun c acc => memSetByte acc (c.1 - src + dst) c.2) (memZero m dst n)

end Sys2Proof.Machine
end

