-- ==== Sys2Proof/Machine/Ops.lean ====
section
/-!
DEFINITION. The named operations over registers, memory, posts, time and lanes that the meanings are built from.
-/
namespace Sys2Proof.Machine

/-- A meaning that changes the part alone: the queue and the fuses stay. -/
def run (f : Sys → Sys) (s : State) : Host.Outcome State Fault Refusal := .next { s with sys := f s.sys }

/-! ## Registers -/

/-- The word of the register at address `a`. -/
def Sys.reg (s : Sys) (a : Nat) : Word := sget regReset s.regs a

/-- The register at address `a` given the word `v`. -/
def Sys.setReg (s : Sys) (a : Nat) (v : Word) : Sys := { s with regs := sset regReset s.regs a v }

/-- The bits `[lo, lo + width)` of a word set. -/
def fieldMask (lo width : Nat) : Word := BitVec.ofNat 32 ((2 ^ width - 1) <<< lo)

/-- A word with `v` in its bits `[lo, lo + width)`. -/
def putBits (w : Word) (lo width v : Nat) : Word :=
  (w &&& ~~~ (fieldMask lo width)) ||| ((BitVec.ofNat 32 v <<< lo) &&& fieldMask lo width)

/-- The value of a field. -/
def Sys.get (s : Sys) (f : Fld) : Nat := ((s.reg f.addr).extractLsb' f.lo f.width).toNat

/-- A one-bit field read as a truth value. -/
def Sys.on (s : Sys) (f : Fld) : Bool := s.get f != 0

/-- A field given the value `v`, modulo its width; the register's other bits stay. -/
def Sys.put (s : Sys) (f : Fld) (v : Nat) : Sys := s.setReg f.addr (putBits (s.reg f.addr) f.lo f.width v)

/-- A one-bit field given a truth value. -/
def Sys.putB (s : Sys) (f : Fld) (b : Bool) : Sys := s.put f (if b then 1 else 0)

/-- One more in a field that saturates. -/
def Sys.incSat (s : Sys) (f : Fld) : Sys := s.put f (Nat.min (s.get f + 1) (2 ^ f.width - 1))

/-- One more in a field that wraps. -/
def Sys.incWrap (s : Sys) (f : Fld) : Sys := s.put f (s.get f + 1)

/-- `k` more in a field that saturates. -/
def Sys.addSat (s : Sys) (f : Fld) (k : Nat) : Sys := s.put f (Nat.min (s.get f + k) (2 ^ f.width - 1))

/-- A bit of a field that holds one bit per item. -/
def Sys.bit (s : Sys) (f : Fld) (k : Nat) : Bool := (s.get f).testBit k

/-- A bit of such a field set or cleared. -/
def Sys.putBit (s : Sys) (f : Fld) (k : Nat) (b : Bool) : Sys := s.putB ⟨f.addr, f.lo + k, 1⟩ b

/-- A whole register as a number. -/
def Sys.word (s : Sys) (a : Nat) : Nat := (s.reg a).toNat

/-- A whole register given a number, modulo 2^32. -/
def Sys.setWord (s : Sys) (a v : Nat) : Sys := s.setReg a (BitVec.ofNat 32 v)

/-! ## Posts (R471, R472, spec/18_management_and_event_recorder.md) -/

/-- The values of an event's data packed from byte 0, little-endian, each in its number of bytes (R471). -/
def pack : List (Nat × Nat) → Nat
  | [] => 0
  | (v, n) :: rest => v % 256 ^ n + 256 ^ n * pack rest

/-- A count of items as R471 packs it: 4 bytes, saturating. -/
def count32 (v : Nat) : Nat × Nat := (Nat.min v 0xFFFFFFFF, 4)

/-- Domain `k` of R386 (spec/14_clocks_power_reset.md) is up. -/
def Sys.domUp (s : Sys) (k : Nat) : Bool := s.bit PWR_DOM_UP k

/-- Domain `k` answers across its crossings: it is up, and the resynchronisation that its rise began has ended (R387, R388). -/
def Sys.peerUp (s : Sys) (k : Nat) : Bool := s.domUp k && !(s.pwr.resync.any fun c => c.1 == k && s.fclk < c.2)

/-- A post by requester `req`; while the management domain is down it is discarded (R472). -/
def Sys.postBy (s : Sys) (req code locker data : Nat) : Sys :=
  if s.domUp 0 then { s with posts := s.posts ++ [⟨req, code, locker, data⟩] } else s

/-- A post by the firmware, requester 8, with packed values. -/
def Sys.post (s : Sys) (code locker : Nat) (vals : List (Nat × Nat)) : Sys := s.postBy 8 code locker (pack vals)

/-- A post under locker 0 with no data. -/
def Sys.note (s : Sys) (code : Nat) : Sys := s.post code 0 []

/-- A post made at most once in `period` fabric clocks for the same `key`. -/
def Sys.postLimited (s : Sys) (key period code locker : Nat) (vals : List (Nat × Nat)) : Sys :=
  match s.limits.find? fun c => c.1 == key with
  | some c =>
    if s.fclk < c.2 + period then s
    else { s.post code locker vals with limits := (key, s.fclk) :: s.limits.filter fun c => c.1 != key }
  | none => { s.post code locker vals with limits := (key, s.fclk) :: s.limits }

/-- Fabric clocks in a second (R15). -/
abbrev clocksPerSecond : Nat := 200000000

/-- A value the spec leaves open, drawn afresh. -/
def Sys.draw (s : Sys) : Nat × Sys := (Config.freeValue s.draws, { s with draws := s.draws + 1 })

/-- A value of the true random number generator, drawn afresh. -/
def Sys.drawRandom (s : Sys) : Nat × Sys := (Config.random s.draws, { s with draws := s.draws + 1 })

/-! ## Time (R41, R47, R48, spec/02_mains_angle_clock.md) -/

/-- ANG_STAT.STATE (R48). -/
abbrev angFree : Nat := 0
abbrev angAcquire : Nat := 1
abbrev angLocked : Nat := 2
abbrev angHoldover : Nat := 3

/-- The nominal frequency in Hz, Q16.16 (ANG_CTL.NOM). -/
def Sys.nominalF (s : Sys) : Nat := if s.on ANG_CTL_NOM then 0x3C0000 else 0x320000

/-- The frequency TIME runs at before correction (R48). -/
def Sys.runF (s : Sys) : Nat :=
  if s.get ANG_STAT_STATE = angFree then s.nominalF
  else if s.get ANG_STAT_STATE = angLocked then s.get ANG_FREQ_F
  else if s.on ANG_STAT_NOGOOD then s.nominalF
  else s.get ANG_FGOOD_FGOOD

/-- The 200 MHz clock runs and reaches the CTL domain, which is up: the PLL that MUXF takes has edges, and the gates are open
(R373, R376, R379). -/
def Sys.fabricRuns (s : Sys) : Bool :=
  s.domUp 1 && s.on CLK_GATE_CTL && !(s.bit CLK_STAT_SEL 1 && s.clk.missing.contains 1)

/-- What TIME gains on one fabric clock, in units of 2^-32 au (R41, R47); while the fabric clock is stopped TIME does not count (R379). R41 gives
the increment no rounding; it is rounded down (DESIGN CHOICE, notes/assumptions/115.md). -/
def Sys.rate (s : Sys) : Nat :=
  if s.on ANG_CTL_RUN && s.fabricRuns then s.runF * (32768 + s.ang.corr).toNat * 2 ^ 17 / clocksPerSecond else 0

/-- What the counters gain on `k` ticks of the crystal under compensation: a tick suppressed at each carry of the accumulator
when the crystal is fast, doubled when it is slow (R407). -/
def Rtc.gain (r : Rtc) (k : Nat) : Nat :=
  let carries := (r.acc + k * r.comp.natAbs) / 2 ^ 32
  if 0 < r.comp then k - carries else k + carries

/-- The RTC's counters `k` ticks of 1/32,768 s on (R401, spec/15_cellar_and_rtc.md); seconds wrap at 2^32. -/
def Rtc.tick (r : Rtc) (k : Nat) : Rtc :=
  let g := r.gain k
  let t := r.sec * 32768 + r.sub + g
  { r with
    sec := t / 32768 % 2 ^ 32
    sub := t % 32768
    wrapped := r.wrapped || decide (2 ^ 32 ≤ t / 32768)
    acc := (r.acc + k * r.comp.natAbs) % 2 ^ 32
    perCount := r.perCount + g }

/-- `n` fabric clocks pass: TIME, its fraction, the fabric clock count and the RTC count on. A fabric clock is 5 ns and
lasts 64/390,625 of a tick of the 32.768 kHz crystal. -/
def Sys.elapse (s : Sys) (n : Nat) : Sys :=
  let acc := s.ang.time * 2 ^ 32 + s.ang.frac + n * s.rate
  let ph := s.lfxo + 64 * n
  { s with
    fclk := s.fclk + n
    lfxo := ph % 390625
    ang := { s.ang with time := acc / 2 ^ 32 % 2 ^ 64, frac := acc % 2 ^ 32 }
    rtc := s.rtc.tick (ph / 390625) }

/-- The fabric clocks until TIME reaches `t`. -/
def Sys.clocksTo (s : Sys) (t : Nat) : Nat :=
  if s.rate = 0 then 0 else (t * 2 ^ 32 - (s.ang.time * 2 ^ 32 + s.ang.frac) + s.rate - 1) / s.rate

/-- Time passes until TIME is at least `t`: the instant of an event that the schedule sets at `t`. -/
def Sys.reach (s : Sys) (t : Nat) : Sys := if t ≤ s.ang.time then s else s.elapse (s.clocksTo t)

/-- TIME is at an instant of the schedule or counts toward it. -/
def Sys.arrives (s : Sys) (t : Nat) : Bool := t ≤ s.ang.time || s.rate != 0

/-- Length of a program cycle in au (R58). -/
def Sys.cycleLen (s : Sys) : Nat := s.ang.n * 32768

/-- A program cycle is running: the grid is set, the set is active and TIME counts. -/
def Sys.cycling (s : Sys) : Bool := s.ang.requested && s.prog.active && s.rate != 0

/-- What the cycle's Compute jobs take of CYC_FACT and CYC_CTL, held once PHG has come. -/
def Sys.latchPhg (s : Sys) : Sys :=
  if s.prog.latched || !s.cycling || !s.ang.begun || s.ang.time < s.ang.start + s.ang.phg then s
  else { s with prog := { s.prog with latched := true, fact := s.word CYC_FACT, ctl := s.word CYC_CTL } }

/-- MET_STAT.FE (spec/07_metering.md). -/
abbrev feOff : Nat := 0
abbrev feRun : Nat := 1
abbrev feFailed : Nat := 2
abbrev feFrozen : Nat := 3

/-- The front end does not emit the block in progress: it counts as begun, and the next block carries GAP (R197). -/
def Sys.dropBlock (s : Sys) : Sys :=
  if s.get MET_STAT_FE = feRun then
    { s.incSat MET_GAPS_COUNT with fe := { s.fe with bseq := (s.fe.bseq + 1) % 2 ^ 32, gap := true, notEmitted := s.fe.notEmitted + 1 } }
  else s

/-- A quotient whose rounding the spec leaves open. -/
def divOpen (num den : Nat) : Nat := num / den + (if num % den ≠ 0 && Config.roundUp num den then 1 else 0)

/-! ## Memory -/

/-- `n` bytes of a module address read, little-endian. -/
def Sys.rd (s : Sys) (a n : Nat) : Nat := memRead s.mem a n

/-- `n` bytes of a module address written. -/
def Sys.wr (s : Sys) (a n v : Nat) : Sys := { s with mem := memWrite s.mem a n v }

/-- R357 (spec/13_memory_integrity_and_spares.md): a write that covers a poisoned DRAM word whole clears its entry. -/
def Sys.heal (s : Sys) (a n : Nat) : Sys :=
  { s with mi := { s.mi with poison := s.mi.poison.filter fun g => g < a || a + n < g + 32 } }

/-- A row of bytes written at a module address. -/
def Sys.putRow (s : Sys) (a : Nat) (bs : List Nat) : Sys := Sys.heal { s with mem := memPutBytes s.mem a bs } a bs.length

/-- Bytes of a module address copied to another. -/
def Sys.copyRow (s : Sys) (dst src n : Nat) : Sys := Sys.heal { s with mem := memCopy s.mem dst src n } dst n

/-! ## Lanes (R65, R69, spec/03_lanes_and_voting.md) -/

abbrev laneReset : Nat := 0
abbrev laneReload : Nat := 1
abbrev lanePrecopy : Nat := 2
abbrev laneFinal : Nat := 3
abbrev laneShadow : Nat := 4
abbrev laneVoting : Nat := 5
abbrev laneShelved : Nat := 6
abbrev laneRetired : Nat := 7

/-- The four lanes in ascending number. -/
def allLanes : List (Fin 4) := [0, 1, 2, 3]

/-- VOT_LSTAT.STATE of a lane. -/
def Sys.laneState (s : Sys) (n : Fin 4) : Nat := s.get (VOT_LSTAT_STATE n.val)

/-- A lane in VOTING, counted in the vote (R69). -/
def Sys.votes (s : Sys) (n : Fin 4) : Bool := s.laneState n == laneVoting

/-- A lane that runs jobs: SHADOW or VOTING (R69). -/
def Sys.runs (s : Sys) (n : Fin 4) : Bool := s.laneState n == laneVoting || s.laneState n == laneShadow

/-- A lane that receives seams 1 and 3: FINAL, SHADOW or VOTING (R69). -/
def Sys.receives (s : Sys) (n : Fin 4) : Bool := s.runs n || s.laneState n == laneFinal

/-- The lanes in VOTING. -/
def Sys.voters (s : Sys) : List (Fin 4) := allLanes.filter fun n => s.votes n

/-- A lane's record. -/
def Sys.lane (s : Sys) (n : Fin 4) : Lane := s.lanes[n]

/-- A lane's record given. -/
def Sys.setLane (s : Sys) (n : Fin 4) (l : Lane) : Sys := { s with lanes := s.lanes.set n l }

/-- A lane's record changed. -/
def Sys.modLane (s : Sys) (n : Fin 4) (f : Lane → Lane) : Sys := s.setLane n (f (s.lane n))

/-- The module address of lane-local offset 0 (R27). -/
def laneBase (n : Fin 4) : Nat := 0x50000000 + n.val * 0x1000000

/-- The three parts of the state region (R65): lane-local offset and length. -/
def stateParts : List (Nat × Nat) := [(0x180000, 0x100000), (0x380000, 0x1A0000), (0x550000, 0x2B0000)]

/-- The lane-local offset lies in the state region. -/
def inStateRegion (off : Nat) : Bool :=
  (0x180000 ≤ off && off < 0x280000) || (0x380000 ≤ off && off < 0x520000) || (0x550000 ≤ off && off < 0x800000)

/-- What of `[off, off + k)` lies in the state region. -/
def statePart (off k : Nat) : List (Nat × Nat) :=
  (stateParts.map fun r => let lo := Nat.max off r.1; (lo, Nat.min (off + k) (r.1 + r.2) - lo)).filter fun r => r.2 != 0

/-- `k` bytes of a lane's SRAM read. -/
def Sys.lrd (s : Sys) (n : Fin 4) (off k : Nat) : Nat := s.rd (laneBase n + off) k

/-- A natural number put into an ascending list without repeats. -/
def insertAsc (x : Nat) : List Nat → List Nat
  | [] => [x]
  | y :: ys => if x < y then x :: y :: ys else if x = y then y :: ys else y :: insertAsc x ys

/-- The granules that `[off, off + k)` touches. -/
def granulesOf (off k : Nat) : List Nat :=
  if k = 0 then [] else (List.range ((off + k - 1) / 32 + 1 - off / 32)).map fun i => off / 32 + i

/-- A part of the donor's state region has been written: its granules are dirty (R88), and while the mirror runs the target takes the
bytes too (R89). -/
def Sys.noteWritten (r : Reintegration) (s : Sys) (x : Nat × Nat) : Sys :=
  let s1 := { s with vot := { s.vot with reint := s.vot.reint.map fun q => { q with dirty := (granulesOf x.1 x.2).foldl (fun d g => insertAsc g d) q.dirty } } }
  if r.mirror then { s1 with mem := memCopy s1.mem (laneBase r.target + x.1) (laneBase r.donor + x.1) x.2 } else s1

/-- What a write of `[off, off + k)` by the lane's own cores or engines brings to a reintegration that copies from the lane. -/
def Sys.lsync (s : Sys) (n : Fin 4) (off k : Nat) : Sys :=
  match s.vot.reint with
  | none => s
  | some r => if r.donor = n then (statePart off k).foldl (Sys.noteWritten r) s else s

/-- `k` bytes of a lane's SRAM written by the lane's own cores or engines. -/
def Sys.lwr (s : Sys) (n : Fin 4) (off k v : Nat) : Sys := (s.wr (laneBase n + off) k v).lsync n off k

/-- A job that the donor ran wrote parts of its state region whose layout is open. -/
def Sys.touchHidden (s : Sys) (n : Fin 4) : Sys :=
  match s.vot.reint with
  | none => s
  | some r => if r.donor = n then { s with vot := { s.vot with reint := some { r with hidden := true } } } else s

/-- A range of the structure that a lane's runtime copies within its own SRAM. -/
def Sys.lcopy (s : Sys) (n : Fin 4) (dst src k : Nat) : Sys :=
  Sys.lsync { s with mem := memCopy s.mem (laneBase n + dst) (laneBase n + src) k } n dst k

/-- What a read answers. -/
def Sys.answer (s : Sys) (v : Nat) : Sys :=
  { s with response := { value := v % 2 ^ 32, bytes := [], busError := false, unsupported := false, poisoned := false } }

/-- What a read of a row of bytes answers. -/
def Sys.answerBytes (s : Sys) (bs : List Nat) : Sys :=
  { s with response := { value := 0, bytes := bs, busError := false, unsupported := false, poisoned := false } }

/-! ## Collections keyed by number -/

/-- The value under a key, or the default. -/
def lookupD {α : Type} (d : α) (m : List (Nat × α)) (k : Nat) : α :=
  match m.find? fun c => c.1 == k with
  | some c => c.2
  | none => d

/-- The value under a key replaced. -/
def putKey {α : Type} (m : List (Nat × α)) (k : Nat) (v : α) : List (Nat × α) := (k, v) :: m.filter fun c => c.1 != k

/-- Element `k` of a list replaced. -/
def setNth {α : Type} : List α → Nat → α → List α
  | [], _, _ => []
  | _ :: xs, 0, v => v :: xs
  | x :: xs, k + 1, v => x :: setNth xs k v

/-- Element `k` of a list, or the default. -/
def nth {α : Type} (d : α) : List α → Nat → α
  | [], _ => d
  | x :: _, 0 => x
  | _ :: xs, k + 1 => nth d xs k

/-- The bits `[lo, lo + w)` of a number. -/
def bits (v lo w : Nat) : Nat := v / 2 ^ lo % 2 ^ w

/-! ## Absent peers (R387, spec/14_clocks_power_reset.md) -/

/-- MEM_STAT.DRAM: not started, RUN, FAILED. -/
abbrev dramRun : Nat := 1
abbrev dramFailed : Nat := 2

/-- The DRAM serves accesses. -/
def Sys.dramUp (s : Sys) : Bool := s.get MEM_STAT_DRAM == dramRun && s.domUp 10

/-- The domain on the way to the DRAM that is down, if one is; a failed DRAM counts as one (R361). -/
def Sys.dramGap (s : Sys) : Option Nat := if !s.peerUp 9 then some 9 else if !s.dramUp then some 10 else none

/-- `k` writes toward a domain that is down are discarded, counted, and reported at most once per second. -/
def Sys.dropWrites (s : Sys) (d k : Nat) : Sys :=
  let n := Nat.min (lookupD 0 s.pwr.drops d + k) 0xFFFF
  { s with pwr := { s.pwr with drops := putKey s.pwr.drops d n } }.postLimited (0x030A0000 + d) clocksPerSecond 0x030A 0 [(d, 1)]

/-- A write toward a domain that is down. -/
def Sys.dropWrite (s : Sys) (d : Nat) : Sys := s.dropWrites d 1

end Sys2Proof.Machine
end

