-- ==== Sys2Proof/Machine/Angle.lean ====
section
/-!
DEFINITION. The mains-angle clock (spec/02_mains_angle_clock.md): the detector's judgement of a half-cycle (R45, R510), the
frequency filter and phase correction (R46, R47), the state transitions (R49 to R54), the request of the first program cycle
(R58, R62), and the commands on the ANG block.
-/
namespace Sys2Proof.Machine

/-- The phase error wrapped to −32,768 to +32,767 (R47). -/
def wrapError (x : Int) : Int := (x + 32768) % 65536 - 32768

/-- fm in Hz, Q16.16: 8,000 over the interval between two crossings in samples, itself in units of 2^-16 (R45). R45 gives no rounding; the
quotient is rounded down (DESIGN CHOICE, notes/assumptions/115.md). -/
def measuredF (interval : Nat) : Nat := if interval = 0 then 0 else 8000 * 2 ^ 32 / interval

/-- fm lies from 45.0 to 65.0 Hz (R45). -/
def frequencyGood (fm : Nat) : Bool := 45 * 65536 ≤ fm && fm ≤ 65 * 65536

/-- R46: the change of F for a measured fm, limited by FSLEW. -/
def Sys.stepF (s : Sys) (fm : Nat) : Int :=
  let d := (Int.ofNat fm - Int.ofNat (s.get ANG_FREQ_F)) / 2 ^ s.get ANG_CTL_FK
  let lim := Int.ofNat (s.get ANG_SLEW_FSLEW)
  if d > lim then lim else if d < -lim then -lim else d

/-- R46: F and FGOOD after a good half-cycle. -/
def Sys.trackF (s : Sys) (fm : Nat) : Sys :=
  let f := unsint 32 (Int.ofNat (s.get ANG_FREQ_F) + s.stepF fm)
  (s.put ANG_FREQ_F f).put ANG_FGOOD_FGOOD f

/-- R47: the correction c of the next half-cycle for a phase error. -/
def Sys.correction (s : Sys) (e : Int) : Int :=
  let c := Nat.min (e.natAbs / 2 ^ s.get ANG_CTL_PK) (s.get ANG_SLEW_PMAX * 32)
  if e < 0 then -(Int.ofNat c) else Int.ofNat c

/-- The correction c put in force. -/
def Sys.setCorr (s : Sys) (c : Int) : Sys := { s with ang := { s.ang with corr := c } }

/-- R52: HOLDOVER entered with a cause; the event is 0x0407 for cause 6 (R55). Any correction in progress runs to the next
half-cycle boundary (R53). -/
def Sys.enterHoldover (s : Sys) (cause : Nat) : Sys :=
  let s1 := ((((s.put ANG_STAT_STATE angHoldover).put ANG_STAT_HCAUSE cause).put ANG_STAT_SLEWING 0).put ANG_STAT_GOODCNT 0)
  let s2 := { s1 with ang := { s1.ang with lockRun := 0, lowRun := 0, badRun := 0, bigRun := 0 } }
  if cause = 6 then s2.note 0x0407 else s2.post 0x0402 0 [(cause, 1)]

/-- R58: the first program cycle is requested: CORG is the first TIME at or after the request with TIME[15:0] = 0. -/
def Sys.requestCycles (s : Sys) : Sys :=
  let c := (s.ang.time + 65535) / 65536 * 65536
  { s with ang := { s.ang with requested := true, corg := c, cycle := 0, start := c, first := true } }

/-- The start-up sequence waits for the clock before the first program cycle (R62, R448). -/
def Sys.waitingForLock (s : Sys) : Bool := s.prog.active && !s.ang.requested && !s.ang.waitOver

/-- R51: LOCKED declared, with 0x0401 at the first lock since RUN was set and 0x0409 at each later one; the start-up wait
ends (R62). -/
def Sys.declareLocked (s : Sys) : Sys :=
  let s1 := (s.put ANG_STAT_STATE angLocked).put ANG_STAT_SLEWING 0
  let s2 := s1.note (if s.ang.everLocked then 0x0409 else 0x0401)
  let s3 := { s2 with ang := { s2.ang with everLocked := true, lockRun := 0 } }
  if s3.waitingForLock then s3.requestCycles else s3

/-- R51: the count of consecutive good half-cycles within 256 au, and the lock at the eighth. -/
def Sys.countLock (s : Sys) (e : Int) : Sys :=
  let k := if e.natAbs ≤ 256 then s.ang.lockRun + 1 else 0
  let s1 := { s with ang := { s.ang with lockRun := k } }
  if k ≥ 8 then s1.declareLocked else s1

/-- R50: TIME stepped forward by the phase error, modulo 65,536, on one clock; the front end does not emit the block in
progress, also where the step is of 0 au. -/
def Sys.phaseStep (s : Sys) (e : Int) : Sys :=
  let d := (e % 65536).toNat
  let s1 := { s with ang := { s.ang with time := (s.ang.time + d) % 2 ^ 64, expect := s.ang.expect + d } }
  s1.dropBlock

/-- R50, R51, R54: the reference qualifies. In ACQUIRE before the first program cycle is requested TIME steps; otherwise a
correction starts. In HOLDOVER 0x0403 carries the first e. The qualifying measurement counts toward the lock by its own e. -/
def Sys.qualify (s : Sys) (e : Int) : Sys :=
  let s1 := s.put ANG_STAT_SLEWING 1
  if s.get ANG_STAT_STATE = angHoldover then
    ((s1.post 0x0403 0 [(unsint 16 e, 2)]).setCorr (s.correction e)).countLock e
  else if s.ang.requested then (s1.setCorr (s.correction e)).countLock e
  else (s1.phaseStep e).countLock e

/-- The transitions of a clock that is LOCKED (R52): the lowest-numbered cause true at this evaluation, or the correction that every
measurement brings (R47). `missing` says that the half-cycle ended without a crossing or with one outside its window. -/
def Sys.lockedStep (s : Sys) (missing : Bool) (e : Int) : Sys :=
  if s.ang.lowRun ≥ 2 then s.enterHoldover 1
  else if missing then s.enterHoldover 2
  else if s.ang.badRun ≥ 2 then s.enterHoldover 3
  else if s.ang.bigRun ≥ 4 then s.enterHoldover 4
  else if s.on ANG_CTL_HOFS then s.enterHoldover 5
  else s.setCorr (s.correction e)

/-- R49: a half-cycle that is not good, outside LOCKED. `cause` is that half-cycle's (R52). -/
def Sys.badStep (s : Sys) (cause : Nat) : Sys :=
  if s.get ANG_STAT_STATE = angAcquire then
    if s.on ANG_STAT_NOGOOD then (s.put ANG_STAT_STATE angFree).put ANG_STAT_SLEWING 0 else s.enterHoldover cause
  else
    let s1 := s.put ANG_STAT_SLEWING 0
    { s1 with ang := { s1.ang with lockRun := 0 } }

/-- R49, R51: a good half-cycle outside LOCKED: FREE turns to ACQUIRE, a correction goes on, or the reference qualifies
after QUAL good half-cycles. The half-cycle that turns FREE to ACQUIRE is the first of them (DEDUCED, notes/assumptions/117.md). -/
def Sys.goodStep (s : Sys) (e : Int) : Sys :=
  let s1 := if s.get ANG_STAT_STATE = angFree then s.put ANG_STAT_STATE angAcquire else s
  if s1.on ANG_STAT_SLEWING then (s1.setCorr (s1.correction e)).countLock e
  else if s1.get ANG_CTL_QUAL ≤ s1.get ANG_STAT_GOODCNT then s1.qualify e
  else s1

/-- The state transitions at the end of a half-cycle (R49). While HOFS is 1 a clock in HOLDOVER stays there without qualifying. -/
def Sys.halfCycle (s : Sys) (good missing : Bool) (cause : Nat) (e : Int) : Sys :=
  if s.on ANG_CTL_HOFS && s.get ANG_STAT_STATE = angHoldover then s
  else if s.get ANG_STAT_STATE = angLocked then s.lockedStep missing e
  else if good then s.goodStep e
  else s.badStep cause

/-- The counts that a half-cycle leaves: GOODCNT and NOGOOD (R49), and the runs that R52 judges. -/
def Sys.countHalf (s : Sys) (good low bad : Bool) (e : Int) : Sys :=
  let s1 := if good then (s.incSat ANG_STAT_GOODCNT).put ANG_STAT_NOGOOD 0 else s.put ANG_STAT_GOODCNT 0
  { s1 with ang := { s1.ang with
      lowRun := if low then s.ang.lowRun + 1 else 0
      badRun := if bad then s.ang.badRun + 1 else 0
      bigRun := if good && e.natAbs > 8192 then s.ang.bigRun + 1 else 0 } }

/-- How far the reference channel's fractional delay D shifts θm, in au (R44): D/1,024 samples of 1/16,000 s at the tracked frequency. How the
quotient is rounded is open (notes/assumptions/116.md). -/
def Sys.refShift (s : Sys) : Int :=
  let d := nth 0 s.fe.delays (s.get ANG_CTL_REFCH)
  let q := Int.ofNat (divOpen (d.natAbs * s.get ANG_FREQ_F) 16384000)
  if d < 0 then -q else q

/-- R45: a zero crossing, `clocks` fabric clocks after the last event: the measurement, the judgement of the half-cycle, the
update of F, the phase error, and the transitions. Before a metering configuration is loaded there is no nominal voltage, and no half-cycle
is low (DESIGN CHOICE, notes/assumptions/118.md). -/
def Sys.zeroCrossing (s0 : Sys) (clocks : Nat) (rising : Bool) (interval rms : Nat) : Sys :=
  let s := s0.elapse clocks
  if !s.on ANG_CTL_RUN then s
  else
    let fm := measuredF interval
    let low := rms * 100 < s.get ANG_VMIN_PCT * nth 0 s.fe.unom (s.get ANG_CTL_REFCH)
    let late := s.ang.crossed && (s.ang.time > s.ang.expect + 40960 || s.ang.time + 40960 < s.ang.expect)
    let bad := !frequencyGood fm
    let good := !low && !late && !bad
    let theta := if rising then 0 else 32768
    let e := wrapError (Int.ofNat theta - s.refShift + Int.ofNat (s.get ANG_OFS_OFS) - Int.ofNat (s.ang.time % 65536))
    let s1 := s.put ANG_PERR_E (unsint 16 e)
    let s2 := if good then s1.trackF fm else s1
    let s3 := s2.countHalf good low bad e
    let s4 := { s3 with ang := { s3.ang with crossed := true, expect := s.ang.time + 32768 } }
    s4.halfCycle good late (if low then 1 else if late then 2 else 3) e

/-- R510: the crossing is declared missing 40,960 au after its expected instant; the half-cycle is not good. -/
def Sys.crossingMissing (s0 : Sys) : Sys :=
  if !s0.on ANG_CTL_RUN || !s0.ang.crossed || !s0.arrives (s0.ang.expect + 40960) then s0
  else
    let s := s0.reach (s0.ang.expect + 40960)
    let s1 := s.countHalf false false false 0
    let s2 := { s1 with ang := { s1.ang with expect := s.ang.expect + 32768 } }
    s2.halfCycle false true 2 0

def execZeroCrossing (clocks : Nat) (rising : Bool) (interval rms : Nat) (s : State) : Host.Outcome State Fault Refusal :=
  run (fun y => y.zeroCrossing clocks rising interval rms) s

def execCrossingMissing (s : State) : Host.Outcome State Fault Refusal := run Sys.crossingMissing s

/-- R53: a correction in progress ends at the next TIME half-cycle boundary. -/
def Sys.correctionEnd (s : Sys) : Sys :=
  if s.ang.corr = 0 || !s.arrives ((s.ang.time / 32768 + 1) * 32768) then s else (s.reach ((s.ang.time / 32768 + 1) * 32768)).setCorr 0

def execCorrectionEnd (s : State) : Host.Outcome State Fault Refusal := run Sys.correctionEnd s

/-- R41, R49: RUN set. TIME is 0 when RUN is first set after a cold start; HCAUSE reads 0 until the next holdover. -/
def Sys.runSet (s : Sys) : Sys :=
  if s.on ANG_CTL_RUN then s
  else
    let s1 := ((s.put ANG_CTL_RUN 1).put ANG_STAT_HCAUSE 0).put ANG_STAT_GOODCNT 0
    { s1 with ang := { s1.ang with
        time := if s.ang.ran then s.ang.time else 0
        frac := if s.ang.ran then s.ang.frac else 0
        corr := 0, ran := true, everLocked := false, crossed := false, lowRun := 0, badRun := 0, bigRun := 0, lockRun := 0 } }

def execAngRunSet (s : State) : Host.Outcome State Fault Refusal := run Sys.runSet s

/-- R49: RUN cleared: FREE, and TIME holds. -/
def Sys.runClear (s : Sys) : Sys :=
  let s1 := (((s.put ANG_CTL_RUN 0).put ANG_STAT_STATE angFree).put ANG_STAT_SLEWING 0).put ANG_STAT_GOODCNT 0
  { s1 with ang := { s1.ang with corr := 0, lockRun := 0 } }

def execAngRunClear (s : State) : Host.Outcome State Fault Refusal := run Sys.runClear s

/-- The qualification of the reference starts anew from zero good half-cycles; a correction before lock stops (DEDUCED,
notes/assumptions/119.md). -/
def Sys.requalify (s : Sys) : Sys :=
  let s1 := (s.put ANG_STAT_SLEWING 0).put ANG_STAT_GOODCNT 0
  { s1 with ang := { s1.ang with lockRun := 0 } }

/-- R52, cause 5: HOFS set takes a LOCKED clock to HOLDOVER; one already in HOLDOVER stops its correction and keeps its cause; in FREE and
ACQUIRE the table of R49 has no transition for it. -/
def Sys.hofsSet (s : Sys) : Sys :=
  let s1 := s.put ANG_CTL_HOFS 1
  if !s.on ANG_CTL_RUN then s1
  else if s.get ANG_STAT_STATE = angHoldover then s1.requalify
  else if s.get ANG_STAT_STATE = angLocked then s1.enterHoldover 5
  else s1

def execHofsSet (s : State) : Host.Outcome State Fault Refusal := run Sys.hofsSet s

/-- R49: HOFS cleared: in HOLDOVER the reference starts to qualify from zero good half-cycles. -/
def Sys.hofsClear (s : Sys) : Sys :=
  let s1 := s.put ANG_CTL_HOFS 0
  if s.on ANG_CTL_HOFS && s.get ANG_STAT_STATE = angHoldover then s1.requalify else s1

def execHofsClear (s : State) : Host.Outcome State Fault Refusal := run Sys.hofsClear s

/-- R52, cause 7: the clock takes a reference channel. A LOCKED clock enters HOLDOVER; any other keeps its state (R49), and the new reference
qualifies from zero good half-cycles. -/
def Sys.refchTake (s : Sys) (ch : Nat) : Sys :=
  let s1 := s.put ANG_CTL_REFCH ch
  if !s.on ANG_CTL_RUN then s1
  else if s.get ANG_STAT_STATE = angLocked then s1.enterHoldover 7
  else s1.requalify

/-- A write of REFCH: after LOCK the field keeps its value, and a write that would change it posts 0x0111 (R11). Channels 6 and 7 are
refused with 0x0405. -/
def Sys.refchWrite (s : Sys) (channel : Nat) : Sys :=
  let ch := channel % 8
  if s.on ANG_CTL_LOCK then (if ch = s.get ANG_CTL_REFCH then s else s.note 0x0111)
  else if ch > 5 then s.note 0x0405
  else s.refchTake ch

def execRefchWrite (channel : Nat) (s : State) : Host.Outcome State Fault Refusal := run (fun y => y.refchWrite channel) s

/-- R63 and ANG_SNAP: TIME and the RTC latched on the same 32.768 kHz edge, the next one. -/
def Sys.angSnap (s0 : Sys) : Sys :=
  let s := s0.elapse ((390625 - s0.lfxo + 63) / 64)
  (((s.setWord ANG_SNTL s.ang.time).setWord ANG_SNTH (s.ang.time / 2 ^ 32)).setWord ANG_SNRS s.rtc.sec).setWord ANG_SNRF s.rtc.sub

def execAngSnap (s : State) : Host.Outcome State Fault Refusal := run Sys.angSnap s

/-- ANG_TIMEL: a read returns TIME[31:0] and latches TIME[63:32] into ANG_TIMEH. -/
def Sys.timelRead (s : Sys) : Sys := (s.setWord ANG_TIMEH (s.ang.time / 2 ^ 32)).answer s.ang.time

def execAngTimelRead (_who : Agent) (s : State) : Host.Outcome State Fault Refusal := run Sys.timelRead s

/-- 2.000 s of TIME at the nominal frequency (R62). -/
def Sys.lockWait (s : Sys) : Nat := if s.on ANG_CTL_NOM then 7864320 else 6553600

/-- R62: the wait for the first lock ends when TIME reaches 2.000 s at the nominal frequency, which it does not while it does not count. -/
def Sys.lockWaitExpired (s0 : Sys) : Sys :=
  if !s0.waitingForLock || !s0.arrives s0.lockWait then s0
  else
    let s := s0.reach s0.lockWait
    let s1 := { s with ang := { s.ang with waitOver := true } }
    (s1.note 0x0408).requestCycles

def execLockWaitExpired (s : State) : Host.Outcome State Fault Refusal := run Sys.lockWaitExpired s

end Sys2Proof.Machine
end

