-- ==== Sys2Proof/Machine/Calendar.lean ====
section
/-!
DEFINITION. The calendar (R402, spec/15_cellar_and_rtc.md): the Gregorian date and the time of day of a count of seconds
from 2000-01-01 00:00:00. CAL (R164), RTC_CAL0 and RTC_CAL1 use it.
-/
namespace Sys2Proof.Machine

/-- The leap-year rule. -/
def leapYear (y : Nat) : Bool := (y % 4 == 0 && y % 100 != 0) || y % 400 == 0

def yearDays (y : Nat) : Nat := if leapYear y then 366 else 365

/-- The year that day `d` from the first day of year `y` falls in, and the day within it, looked for in `fuel` years. -/
def findYear : Nat → Nat → Nat → Nat × Nat
  | 0, y, d => (y, d)
  | fuel + 1, y, d => if d < yearDays y then (y, d) else findYear fuel (y + 1) (d - yearDays y)

/-- The month that day `d` of a year falls in and the day of the month, both from 1. -/
def findMonth : List Nat → Nat → Nat → Nat × Nat
  | [], m, d => (m, d + 1)
  | len :: rest, m, d => if d < len then (m, d + 1) else findMonth rest (m + 1) (d - len)

def monthDays (leap : Bool) : List Nat := [31, if leap then 29 else 28, 31, 30, 31, 30, 31, 31, 30, 31, 30, 31]

/-- A date and time of day: year, month, day of month, weekday (1 Monday to 7 Sunday), day of year, second of day. -/
structure Civil where
  year : Nat
  month : Nat
  day : Nat
  weekday : Nat
  yearDay : Nat
  second : Nat
deriving DecidableEq, Repr

/-- The weekday of a day number: day 0 is a Saturday. -/
def weekdayOf (d : Nat) : Nat := (d + 5) % 7 + 1

/-- The date of a count of seconds. 400 years are 146,097 days. -/
def civilOf (sec : Nat) : Civil :=
  let d := sec / 86400
  let yd := findYear 400 (2000 + d / 146097 * 400) (d % 146097)
  let md := findMonth (monthDays (leapYear yd.1)) 1 yd.2
  ⟨yd.1, md.1, md.2, weekdayOf d, yd.2 + 1, sec % 86400⟩

/-- The calendar field `k` of a DATE_TIME in units of 1/32,768 s (R164). -/
def calField (k date : Nat) : Nat :=
  let c := civilOf (date / 32768)
  match k with
  | 0 => c.year
  | 1 => c.month
  | 2 => c.day
  | 3 => c.second / 3600
  | 4 => c.second / 60 % 60
  | 5 => c.second % 60
  | 6 => date % 32768 * 1000 / 32768
  | 7 => c.weekday
  | 8 => c.yearDay
  | _ => c.second

end Sys2Proof.Machine
end

