-- ==== Sys2Proof/Machine/Real.lean ====
section
/-!
DEFINITION. REAL32 arithmetic: IEEE 754 binary32, round to nearest, ties to even, subnormals kept, every NaN result the
quiet NaN 0x7FC0_0000 (R147, spec/05_logic_instruction_set.md). A value is its 32 bits as a number; a finite result is
formed exactly as a fraction and rounded once.
-/
namespace Sys2Proof.Machine

/-- The integer square root, rounded down, of a number below 4^k. -/
def isqrtBits (v : Nat) : Nat → Nat
  | 0 => 0
  | k + 1 =>
    let r := 2 * isqrtBits (v / 4) k
    if (r + 1) * (r + 1) ≤ v then r + 1 else r

/-- The integer square root, rounded down, of a number below 2^160. -/
def isqrt (v : Nat) : Nat := isqrtBits v 80

/-- The quiet NaN. -/
abbrev realNaN : Nat := 0x7FC00000

/-- +infinity. -/
abbrev realInf : Nat := 0x7F800000

def realNeg (x : Nat) : Bool := x / 2 ^ 31 % 2 == 1
def realExp (x : Nat) : Nat := x / 2 ^ 23 % 256
def realFrac (x : Nat) : Nat := x % 2 ^ 23
def realIsNaN (x : Nat) : Bool := realExp x == 255 && realFrac x != 0
def realIsInf (x : Nat) : Bool := realExp x == 255 && realFrac x == 0
def realIsZero (x : Nat) : Bool := x % 2 ^ 31 == 0

/-- Neither NaN nor infinite. -/
def realFinite (x : Nat) : Bool := realExp x != 255

/-- The significand of a finite value: its magnitude is `realMant x * 2 ^ (realShift x) / 2 ^ 149`. -/
def realMant (x : Nat) : Nat := if realExp x = 0 then realFrac x else realFrac x + 2 ^ 23
def realShift (x : Nat) : Nat := if realExp x = 0 then 0 else realExp x - 1

/-- The magnitude of a finite value in units of 2^-149. -/
def realUnits (x : Nat) : Nat := realMant x * 2 ^ realShift x

/-- A finite value in units of 2^-149, signed. -/
def realInt (x : Nat) : Int := if realNeg x then -(Int.ofNat (realUnits x)) else Int.ofNat (realUnits x)

/-- The sign bit in place. -/
def realSign (neg : Bool) : Nat := if neg then 2 ^ 31 else 0

/-- num / den rounded to nearest, ties to even. -/
def divNearest (num den : Nat) : Nat :=
  let q := num / den
  let r := num % den
  if 2 * r > den then q + 1 else if 2 * r = den then q + q % 2 else q

/-- The binary32 value of the given sign nearest to `num / den` in units of 2^-149. -/
def realRound (neg : Bool) (num den : Nat) : Nat :=
  let q := num / den
  let e := Nat.log2 q - 23
  let m := divNearest num (den * 2 ^ e)
  let w := if e = 0 then m else e * 2 ^ 23 + m
  realSign neg + Nat.min w realInf

/-- A signed number of units of 2^-149 rounded; `neg` is the sign of a zero result. -/
def realOfUnits (neg : Bool) (v : Int) : Nat :=
  if v = 0 then realSign neg else realRound (decide (v < 0)) v.natAbs 1

/-- An integer converted. -/
def realOfInt (v : Int) : Nat := realOfUnits false (v * 2 ^ 149)

def realNegate (x : Nat) : Nat := if realNeg x then x % 2 ^ 31 else x % 2 ^ 32 + 2 ^ 31
def realAbs (x : Nat) : Nat := x % 2 ^ 31

def realAdd (x y : Nat) : Nat :=
  if realIsNaN x || realIsNaN y then realNaN
  else if realIsInf x then (if realIsInf y && realNeg x != realNeg y then realNaN else x)
  else if realIsInf y then y
  else realOfUnits (realNeg x && realNeg y) (realInt x + realInt y)

def realSub (x y : Nat) : Nat := if realIsNaN y then realNaN else realAdd x (realNegate y)

def realMul (x y : Nat) : Nat :=
  let neg := realNeg x != realNeg y
  if realIsNaN x || realIsNaN y then realNaN
  else if realIsInf x || realIsInf y then
    (if realIsZero x || realIsZero y then realNaN else realSign neg + realInf)
  else if realIsZero x || realIsZero y then realSign neg
  else realRound neg (realUnits x * realUnits y) (2 ^ 149)

def realDiv (x y : Nat) : Nat :=
  let neg := realNeg x != realNeg y
  if realIsNaN x || realIsNaN y then realNaN
  else if realIsInf x then (if realIsInf y then realNaN else realSign neg + realInf)
  else if realIsInf y then realSign neg
  else if realIsZero y then (if realIsZero x then realNaN else realSign neg + realInf)
  else if realIsZero x then realSign neg
  else realRound neg (realUnits x * 2 ^ 149) (realUnits y)

/-- The square root of v units of 2^-149 is that of v * 2^149 units; 64 more bits and a sticky bit round it right. -/
def realSqrt (x : Nat) : Nat :=
  if realIsNaN x then realNaN
  else if realIsZero x then x
  else if realNeg x then realNaN
  else if realIsInf x then x
  else
    let v := realUnits x * 2 ^ 149 * 4 ^ 64
    let r := isqrtBits v 300
    realRound false (2 * r + (if r * r = v then 0 else 1)) (2 ^ 65)

/-- a < b for values that are not NaN. -/
def realLt (x y : Nat) : Bool :=
  if realIsInf x then realNeg x && !(realIsInf y && realNeg y)
  else if realIsInf y then !realNeg y
  else decide (realInt x < realInt y)

/-- a = b for values that are not NaN; −0 equals +0. -/
def realEq (x y : Nat) : Bool := x % 2 ^ 32 == y % 2 ^ 32 || (realIsZero x && realIsZero y)

/-- Before in the order that puts −0 below +0 (R147, MIN and MAX). -/
def realBefore (x y : Nat) : Bool := realLt x y || (realIsZero x && realIsZero y && realNeg x && !realNeg y)

def realMin (x y : Nat) : Nat :=
  if realIsNaN x then (if realIsNaN y then realNaN else y) else if realIsNaN y then x
  else if realBefore y x then y else x

def realMax (x y : Nat) : Nat :=
  if realIsNaN x then (if realIsNaN y then realNaN else y) else if realIsNaN y then x
  else if realBefore x y then y else x

/-- The integer nearest to a finite value, ties to even (R148). -/
def realToInt (x : Nat) : Int :=
  let q := divNearest (realUnits x) (2 ^ 149)
  if realNeg x then -(Int.ofNat q) else Int.ofNat q

/-- A value times a power of two converted to the nearest integer, ties to even, limited to `[lo, hi]`; NaN gives 0. -/
def realToClamped (x : Nat) (scale : Nat) (lo hi : Int) : Int :=
  if realIsNaN x then 0
  else if realIsInf x then (if realNeg x then lo else hi)
  else
    let q := divNearest (realUnits x * scale) (2 ^ 149)
    let v := if realNeg x then -(Int.ofNat q) else Int.ofNat q
    if v < lo then lo else if v > hi then hi else v

end Sys2Proof.Machine
end

