-- ==== Sys2Proof/Machine/Operands.lean ====
section
/-!
DEFINITION. The operand forms of the logic image's instruction set (R136 to R141, spec/05_logic_instruction_set.md): the
types, the fields of the five formats read from an instruction word and written into one, the B operand, and the points and
quality words that instructions address (R103 to R109, R159, spec/04_cycle_engine.md).
-/
namespace Sys2Proof.Machine

/-! ## Types -/

/-- The width w of a type code (R136). -/
def typeWidth (t : Nat) : Nat := if t = 0 then 16 else if t = 3 then 64 else 32

/-- A result of type `t` as all 64 bits of a W register (R137). -/
def extend (t v : Nat) : Nat :=
  if t = 0 then unsint 64 (sint 16 v) else if t = 1 then unsint 64 (sint 32 v)
  else if t = 2 then v % 2 ^ 32 else v % 2 ^ 64

/-- A source of BOOL is TRUE when its low 32 bits are not all zero (R137). -/
def truth (v : Nat) : Bool := v % 2 ^ 32 != 0

end Sys2Proof.Machine

namespace Sys2Proof

/-! ## Instruction words (R138) -/

/-- Bits [31:26]. -/
def wordOpc (w : Nat) : Nat := Machine.bits w 26 6

def OpR.ofWord (w long : Nat) : OpR :=
  ⟨Machine.bits w 24 2, Fin.ofNat 8 (Machine.bits w 21 3), Fin.ofNat 8 (Machine.bits w 18 3), Machine.bits w 16 2, Machine.bits w 0 16, long⟩

def OpR.toWord (opc : Nat) (o : OpR) : Nat :=
  opc * 2 ^ 26 + o.t * 2 ^ 24 + o.d.val * 2 ^ 21 + o.a.val * 2 ^ 18 + o.f * 2 ^ 16 + o.b

def OpM.ofWord (w : Nat) : OpM :=
  ⟨Machine.bits w 24 2, Fin.ofNat 8 (Machine.bits w 21 3), Fin.ofNat 8 (Machine.bits w 18 3), Machine.bits w 17 1 == 1, Machine.bits w 0 17⟩

def OpM.toWord (opc : Nat) (o : OpM) : Nat :=
  opc * 2 ^ 26 + o.t * 2 ^ 24 + o.d.val * 2 ^ 21 + o.a.val * 2 ^ 18 + (if o.x then 2 ^ 17 else 0) + o.index

def OpK.ofWord (w : Nat) : OpK :=
  ⟨Machine.bits w 24 2, Fin.ofNat 8 (Machine.bits w 21 3), Fin.ofNat 8 (Machine.bits w 18 3), Machine.bits w 17 1 == 1, Machine.bits w 0 17⟩

def OpK.toWord (opc : Nat) (o : OpK) : Nat :=
  opc * 2 ^ 26 + o.t * 2 ^ 24 + o.d.val * 2 ^ 21 + o.a.val * 2 ^ 18 + (if o.reserved then 2 ^ 17 else 0) + o.ref

def OpJ.ofWord (w : Nat) : OpJ :=
  ⟨Machine.bits w 22 4, Fin.ofNat 8 (Machine.bits w 19 3), Machine.bits w 18 1 == 1, Machine.bits w 0 18⟩

def OpJ.toWord (opc : Nat) (o : OpJ) : Nat :=
  opc * 2 ^ 26 + o.cond * 2 ^ 22 + o.reg.val * 2 ^ 19 + (if o.reserved then 2 ^ 18 else 0) + o.target

def OpZ.ofWord (w : Nat) : OpZ := ⟨Machine.bits w 0 26⟩

def OpZ.toWord (opc : Nat) (o : OpZ) : Nat := opc * 2 ^ 26 + o.bits

/-- The extension words of a format R word (R140). -/
def OpR.ext (o : OpR) : Nat := if o.f = 3 then (if o.t = 3 then 2 else 1) else 0

/-- A second operand in a form that R140 allows. -/
def OpR.twoSource (o : OpR) : Bool := o.f != 2 && (o.f != 0 || o.b / 8 == 0)

/-- One source, taken from A (R140). -/
def OpR.oneSource (o : OpR) : Bool := o.f == 0 && o.b == 0

/-- A format M operand as R141 allows it: A is 0 when X is 0. -/
def OpM.formOk (o : OpM) : Bool := o.x || o.a == 0

/-- The surcharge of a format M word with X = 1 (R155). -/
def OpM.extra (o : OpM) : Nat := if o.x then 1 else 0

/-- REF of a timer: 14 bits in units of 32 bytes (R153). -/
def OpK.timerRef (o : OpK) : Bool := !o.reserved && o.ref < 2 ^ 14

/-- REF of a counter: 15 bits in units of 16 bytes (R153). -/
def OpK.counterRef (o : OpK) : Bool := !o.reserved && o.ref < 2 ^ 15

end Sys2Proof

namespace Sys2Proof.Machine

/-! ## The engine's registers (R133) -/

/-- W register `r` of a lane. -/
def Sys.w (s : Sys) (n : Fin 4) (r : Fin 8) : Nat := (s.lane n).engine.w[r].toNat

/-- A lane's engine changed. -/
def Sys.modEngine (s : Sys) (n : Fin 4) (f : Engine → Engine) : Sys :=
  s.modLane n fun l => { l with engine := f l.engine }

/-- All 64 bits of W register `r` written. -/
def Sys.setW (s : Sys) (n : Fin 4) (r : Fin 8) (v : Nat) : Sys :=
  s.modEngine n fun e => { e with w := e.w.set r (BitVec.ofNat 64 v) }

/-- The B operand (R140). -/
def Sys.opB (s : Sys) (n : Fin 4) (o : OpR) : Nat :=
  if o.f = 0 then s.w n (Fin.ofNat 8 o.b)
  else if o.f = 1 then (if o.t = 2 then o.b * 2 ^ 16 else unsint 64 (sint 16 o.b))
  else extend o.t o.long

/-- The index k of a format M instruction (R141). -/
def Sys.opK (s : Sys) (n : Fin 4) (o : OpM) : Nat := o.index + (if o.x then s.w n o.a % 2 ^ 32 else 0)

/-! ## The logic image's header and sections (R102, R103) -/

/-- The logic image in lane-local memory (R65). -/
abbrev logicBase : Nat := 0x80000

/-- A header field at byte `off` of the logic image. -/
def Sys.logic (s : Sys) (n : Fin 4) (off : Nat) : Nat := s.lrd n (logicBase + off) 4

/-- LENGTH / 4: the words of the logic image. -/
def Sys.logicTop (s : Sys) (n : Fin 4) : Nat := s.logic n 0x04 / 4

/-- VLEN. -/
def Sys.vlen (s : Sys) (n : Fin 4) : Nat := s.logic n 0x08

/-- The program variable area (R104). -/
abbrev varBase : Nat := 0x200000

/-- The point masters (R104). -/
abbrev masterBase : Nat := 0x180000

/-- The class of a point: 0 unused, 1 input, 2 output, 3 variable (R103). -/
def Sys.pointClass (s : Sys) (n : Fin 4) (p : Nat) : Nat :=
  bits (s.lrd n (logicBase + s.logic n 0x1C + p / 4) 1) (2 * (p % 4)) 2

/-- The quality source of a point (R103). -/
def Sys.pointSource (s : Sys) (n : Fin 4) (p : Nat) : Nat := s.lrd n (logicBase + s.logic n 0x20 + 2 * p) 2

/-- The offset of a source's quality word in the cycle context (R109). -/
def qualityOffset (src : Nat) : Nat := if src < 512 then 0x40 + 2 * src else 0x400 + 2 * (src - 512)

/-- The quality of a point (R108, R159). -/
def Sys.pointQuality (s : Sys) (n : Fin 4) (p : Nat) : Nat :=
  if s.pointClass n p = 1 then
    let src := s.pointSource n p
    if src = 0xFFFF then 0 else s.lrd n (0x530000 + qualityOffset src) 2
  else 0

/-- The value of a point (R159): the input image's word or the master; an unused point reads 0 (R106). -/
def Sys.pointValue (s : Sys) (n : Fin 4) (p : Nat) : Nat :=
  let c := s.pointClass n p
  if c = 0 then 0 else if c = 1 then s.lrd n (0x280000 + 4 * p) 4 else s.lrd n (masterBase + 4 * p) 4

/-- The master of a point. -/
def Sys.master (s : Sys) (n : Fin 4) (p : Nat) : Nat := s.lrd n (masterBase + 4 * p) 4

/-- The master of a point written. -/
def Sys.setMaster (s : Sys) (n : Fin 4) (p v : Nat) : Sys := s.lwr n (masterBase + 4 * p) 4 v

/-! ## The cycle context (R109, R115) -/

/-- CYCLE of the lane's cycle context. -/
def Sys.ctxCycle (s : Sys) (n : Fin 4) : Nat := s.lrd n 0x530000 8

/-- TIME of the lane's cycle context. -/
def Sys.ctxTime (s : Sys) (n : Fin 4) : Nat := s.lrd n 0x530008 8

/-- RTCOK. -/
def Sys.ctxRtcOk (s : Sys) (n : Fin 4) : Bool := (s.lrd n 0x530014 4).testBit 15

/-- DATE_TIME: 0 while RTCOK is 0. -/
def Sys.ctxDate (s : Sys) (n : Fin 4) : Nat :=
  if s.ctxRtcOk n then s.lrd n 0x530010 4 * 32768 + bits (s.lrd n 0x530014 4) 0 15 else 0

/-- Context item `k` of R165. -/
def Sys.ctxItem (s : Sys) (n : Fin 4) (k : Nat) : Nat :=
  match k with
  | 0 => s.ctxCycle n
  | 1 => s.ctxTime n
  | 2 => s.ctxDate n
  | 3 => bits (s.lrd n 0x530014 4) 15 1
  | 4 => bits (s.lrd n 0x530014 4) 16 1
  | 5 => bits (s.lrd n 0x530018 4) 0 2
  | _ => (s.lane n).engine.task

end Sys2Proof.Machine
end

