-- ==== Sys2Proof/Machine/Flags.lean ====
section
/-!
DEFINITION. What the engine computes (R142 to R151, spec/05_logic_instruction_set.md): the five flags, the conditions, and
for each arithmetic, logic, shift and bit operation its 64-bit result, its flags and the fault class it raises.
-/
namespace Sys2Proof.Machine

/-- The five flags (R133). -/
structure FlagSet where
  z : Bool
  n : Bool
  c : Bool
  v : Bool
  u : Bool
deriving DecidableEq, Repr

/-- What an operation leaves: the bits for D, the flags, and the fault class it raises, 0 for none. -/
structure AluOut where
  res : Nat
  fl : FlagSet
  cls : Nat
deriving DecidableEq, Repr

def Engine.flags (e : Engine) : FlagSet := ⟨e.z, e.n, e.c, e.v, e.u⟩

def Engine.setFlags (e : Engine) (f : FlagSet) : Engine := { e with z := f.z, n := f.n, c := f.c, v := f.v, u := f.u }

/-- The condition COND of R143. -/
def condHolds (cond : Nat) (f : FlagSet) : Bool :=
  match cond with
  | 0 => true
  | 1 => f.z
  | 2 => !f.z
  | 3 => f.n
  | 4 => !f.n && !f.u
  | 5 => !f.n && !f.z && !f.u
  | 6 => f.n || f.z
  | 7 => f.u
  | 8 => !f.u
  | 9 => f.c
  | 10 => !f.c
  | 11 => f.v
  | 12 => !f.v
  | _ => false

/-- Flags of an integer or 64-bit result of width `w` (R142). -/
def intFlags (w r : Nat) (c v : Bool) : FlagSet := ⟨r % 2 ^ w == 0, r.testBit (w - 1), c, v, false⟩

/-- An integer result of type `t` with its carry and overflow. -/
def intOut (t r : Nat) (c v : Bool) : AluOut := ⟨extend t r, intFlags (typeWidth t) r c v, 0⟩

/-- Flags of a REAL32 result; `fin` says that all operands are finite (R142). -/
def realFlags (r : Nat) (fin : Bool) : FlagSet :=
  ⟨realIsZero r, realNeg r && !realIsNaN r, false, fin && realIsInf r, realIsNaN r⟩

/-- A REAL32 result that raises class 7 when it is NaN or infinite from finite operands (R147). -/
def realOut (r : Nat) (fin : Bool) : AluOut := ⟨r, realFlags r fin, if fin && !realFinite r then 7 else 0⟩

/-- A REAL32 result that never raises class 7. -/
def realQuiet (r : Nat) (fin : Bool) : AluOut := ⟨r, realFlags r fin, 0⟩

/-- Both operands finite. -/
def bothFinite (a b : Nat) : Bool := realFinite a && realFinite b

/-- A value of width `w` as the engine compares it: signed, or unsigned for the 64-bit types (R144, R145). -/
def valueOf (t v : Nat) : Int := if t = 3 then Int.ofNat (v % 2 ^ 64) else sint (typeWidth t) v

/-- The integer fits in the signed values of width `w`. -/
def fitsSigned (w : Nat) (x : Int) : Bool := -(Int.ofNat (2 ^ (w - 1))) ≤ x && x < Int.ofNat (2 ^ (w - 1))

/-- The least value of the signed type of `t`'s width. -/
def leastOf (t v : Nat) : Bool := v % 2 ^ typeWidth t == 2 ^ (typeWidth t - 1)

/-! ## Arithmetic (R150) -/

def aluAdd (t a b : Nat) : AluOut :=
  let w := typeWidth t
  if t = 2 then realOut (realAdd (a % 2 ^ 32) (b % 2 ^ 32)) (bothFinite a b)
  else intOut t (a % 2 ^ w + b % 2 ^ w) (2 ^ w ≤ a % 2 ^ w + b % 2 ^ w) (!fitsSigned w (sint w a + sint w b))

def aluSub (t a b : Nat) : AluOut :=
  let w := typeWidth t
  if t = 2 then realOut (realSub (a % 2 ^ 32) (b % 2 ^ 32)) (bothFinite a b)
  else intOut t (a % 2 ^ w + 2 ^ w - b % 2 ^ w) (a % 2 ^ w < b % 2 ^ w) (!fitsSigned w (sint w a - sint w b))

def aluMul (t a b : Nat) : AluOut :=
  let w := typeWidth t
  if t = 2 then realOut (realMul (a % 2 ^ 32) (b % 2 ^ 32)) (bothFinite a b)
  else if t = 3 then intOut t (a % 2 ^ 64 * (b % 2 ^ 64)) (2 ^ 64 ≤ a % 2 ^ 64 * (b % 2 ^ 64)) false
  else intOut t (unsint w (sint w a * sint w b)) false (!fitsSigned w (sint w a * sint w b))

/-- A division or remainder by zero (R146). -/
def divByZero : AluOut := ⟨0, ⟨true, false, false, true, false⟩, 1⟩

def aluDiv (t a b : Nat) : AluOut :=
  let w := typeWidth t
  if t = 2 then realOut (realDiv (a % 2 ^ 32) (b % 2 ^ 32)) (bothFinite a b)
  else if b % 2 ^ w = 0 then divByZero
  else if t = 3 then intOut t (a % 2 ^ 64 / (b % 2 ^ 64)) false false
  else
    let q := Int.tdiv (sint w a) (sint w b)
    intOut t (unsint w q) false (!fitsSigned w q)

def aluMod (t a b : Nat) : AluOut :=
  let w := typeWidth t
  if b % 2 ^ w = 0 then divByZero
  else if t = 3 then intOut t (a % 2 ^ 64 % (b % 2 ^ 64)) false false
  else intOut t (unsint w (Int.tmod (sint w a) (sint w b))) false false

def aluNeg (t a : Nat) : AluOut :=
  let w := typeWidth t
  if t = 2 then realQuiet (realNegate (a % 2 ^ 32)) false
  else intOut t (2 ^ w - a % 2 ^ w) (a % 2 ^ w != 0) (leastOf t a)

def aluAbs (t a : Nat) : AluOut :=
  if t = 2 then realQuiet (realAbs (a % 2 ^ 32)) false
  else intOut t (unsint (typeWidth t) (Int.ofNat (sint (typeWidth t) a).natAbs)) false (leastOf t a)

/-- The smaller of two values of type `t`. -/
def pickMin (t a b : Nat) : Nat :=
  if t = 2 then realMin (a % 2 ^ 32) (b % 2 ^ 32) else if valueOf t b < valueOf t a then b else a

/-- The larger of two values of type `t`. -/
def pickMax (t a b : Nat) : Nat :=
  if t = 2 then realMax (a % 2 ^ 32) (b % 2 ^ 32) else if valueOf t a < valueOf t b then b else a

def aluMin (t a b : Nat) : AluOut :=
  if t = 2 then realQuiet (pickMin t a b) (bothFinite a b) else intOut t (pickMin t a b) false false

def aluMax (t a b : Nat) : AluOut :=
  if t = 2 then realQuiet (pickMax t a b) (bothFinite a b) else intOut t (pickMax t a b) false false

/-- MIN(MAX(x, lo), hi). -/
def aluClmp (t x lo hi : Nat) : AluOut :=
  let r := pickMin t (pickMax t x lo) hi
  if t = 2 then realQuiet r (realFinite x && bothFinite lo hi) else intOut t r false false

def aluSqrt (a : Nat) : AluOut := realOut (realSqrt (a % 2 ^ 32)) (realFinite a)

/-- The flags of CMP (R142). -/
def cmpFlags (t a b : Nat) : FlagSet :=
  let w := typeWidth t
  if t = 2 then
    if realIsNaN a || realIsNaN b then ⟨false, false, false, false, true⟩
    else ⟨realEq a b, realLt a b, false, false, false⟩
  else ⟨a % 2 ^ w == b % 2 ^ w, valueOf t a < valueOf t b, a % 2 ^ w < b % 2 ^ w, false, false⟩

/-! ## Logic, shifts and bits (R151) -/

def aluAnd (t a b : Nat) : AluOut := intOut t (a % 2 ^ 64 &&& b % 2 ^ 64) false false
def aluOr (t a b : Nat) : AluOut := intOut t (a % 2 ^ 64 ||| b % 2 ^ 64) false false
def aluXor (t a b : Nat) : AluOut := intOut t (a % 2 ^ 64 ^^^ b % 2 ^ 64) false false
def aluNot (t a : Nat) : AluOut := intOut t (2 ^ typeWidth t - 1 - a % 2 ^ typeWidth t) false false
def aluLnot (t a : Nat) : AluOut := intOut t (if a % 2 ^ typeWidth t = 0 then 1 else 0) false false

def aluShl (t a b : Nat) : AluOut :=
  let w := typeWidth t
  let k := b % 64
  intOut t (a % 2 ^ w * 2 ^ k) (k != 0 && k ≤ w && a.testBit (w - k)) false

def aluShr (t a b : Nat) : AluOut :=
  let w := typeWidth t
  let k := b % 64
  intOut t (a % 2 ^ w / 2 ^ k) (k != 0 && (a % 2 ^ w).testBit (k - 1)) false

def aluSar (t a b : Nat) : AluOut :=
  let w := typeWidth t
  let k := b % 64
  let neg := a.testBit (w - 1)
  if w ≤ k then intOut t (if neg then 2 ^ w - 1 else 0) neg false
  else intOut t (unsint w (sint w a / Int.ofNat (2 ^ k))) (k != 0 && a.testBit (k - 1)) false

def aluRol (t a b : Nat) : AluOut :=
  let w := typeWidth t
  let k := b % 64 % w
  let r := a % 2 ^ w * 2 ^ k % 2 ^ w + a % 2 ^ w / 2 ^ (w - k)
  if k = 0 then intOut t a false false else intOut t r (r.testBit 0) false

/-- The result of a bit operation on bit `b` of a value of width w; a bit number of w or more raises class 2 with the flags
left as they were. -/
def bitOut (t b out r : Nat) (old : FlagSet) : AluOut :=
  if typeWidth t ≤ b % 2 ^ typeWidth t then ⟨extend t out, old, 2⟩ else intOut t r false false

def aluBtst (t a b : Nat) (old : FlagSet) : AluOut :=
  bitOut t b 0 (if a.testBit (b % 2 ^ typeWidth t) then 1 else 0) old

def aluBset (t a b : Nat) (old : FlagSet) : AluOut :=
  let k := b % 2 ^ typeWidth t
  bitOut t b a (if a.testBit k then a else a + 2 ^ Nat.min k 64) old

def aluBclr (t a b : Nat) (old : FlagSet) : AluOut :=
  let k := b % 2 ^ typeWidth t
  bitOut t b a (if a.testBit k then a - 2 ^ Nat.min k 64 else a) old

/-! ## Conversion (R148) -/

/-- The limits of an integer type. -/
def lowest (t : Nat) : Int := if t = 3 then 0 else -(Int.ofNat (2 ^ (typeWidth t - 1)))
def highest (t : Nat) : Int := if t = 3 then Int.ofNat (2 ^ 64 - 1) else Int.ofNat (2 ^ (typeWidth t - 1)) - 1

/-- An integer put into type `t`, limited to its values; V says whether the limit acted. -/
def saturateInto (t : Nat) (x : Int) : AluOut :=
  let y := if x < lowest t then lowest t else if x > highest t then highest t else x
  let r := unsint 64 y
  ⟨extend t r, { intFlags (typeWidth t) r false (decide (y ≠ x)) with u := false }, 0⟩

/-- CVT from type `src` to type `t`. -/
def aluCvt (t src a : Nat) : AluOut :=
  if t = src then
    (if t = 2 then ⟨a % 2 ^ 32, { realFlags (a % 2 ^ 32) false with u := false }, 0⟩ else intOut t a false false)
  else if t = 2 then ⟨realOfInt (valueOf src a), realFlags (realOfInt (valueOf src a)) false, 0⟩
  else if src = 2 then
    if realIsNaN a then ⟨0, ⟨true, false, false, true, true⟩, 0⟩
    else if realIsInf a then
      let r := unsint 64 (if realNeg a then lowest t else highest t)
      ⟨extend t r, intFlags (typeWidth t) r false true, 0⟩
    else saturateInto t (realToInt a)
  else saturateInto t (valueOf src a)

end Sys2Proof.Machine
end

