-- ==== Sys2Proof/Machine/Isa.lean ====
section
/-!
DEFINITION. The instructions of the logic image (R133 to R165, spec/05_logic_instruction_set.md). Each is charged, checked and
executed by `Sys.insn`; a fault class acts by `Sys.raise` (R129, R130). `Sys.fetch` executes the word at PC.
-/
namespace Sys2Proof.Machine

/-! ## Fault classes (R129, R130) -/

/-- An event of a lane's runtime, kept with the lane until the firmware reads it after the vote (R461). -/
def Sys.lanePost (s : Sys) (n : Fin 4) (code : Nat) (vals : List (Nat × Nat)) : Sys :=
  s.modLane n fun l => { l with posts := l.posts ++ [⟨8, code, 0, pack vals⟩] }

/-- A lane's runtime status record changed. -/
def Sys.modRt (s : Sys) (n : Fin 4) (f : Runtime → Runtime) : Sys := s.modLane n fun l => { l with rt := f l.rt }

/-- HALT: the rest of the cycle's task sections is skipped (R130). -/
def Sys.halt (s : Sys) (n : Fin 4) (cause : Nat) : Sys :=
  ((s.modRt n fun r => { r with state := 2, hcause := cause }).modEngine n fun e => { e with ended := true }).lanePost n 0x1304 [(cause, 1)]

/-- The first fault since CYC_FLT was read is recorded, and 0x1302 posted for the first of its class. -/
def Sys.recordFault (s : Sys) (n : Fin 4) (cls off : Nat) : Sys :=
  let rt := (s.lane n).rt
  let task := (s.lane n).engine.task
  let s1 := if rt.fltValid then s else
    s.modRt n fun r => { r with fltValid := true, fltClass := cls, fltTask := task, fltOffset := off, fltCycle := s.ctxCycle n % 2 ^ 32 }
  if rt.fltPosted.contains cls then s1
  else (s1.modRt n fun r => { r with fltPosted := cls :: r.fltPosted }).lanePost n 0x1302 [(cls, 1), (task, 1), (off, 4)]

/-- Class 4: the task sections end for this cycle, 0x1303 is posted, and the overrun counts toward CYC_CTL.OVRN. -/
def Sys.overrun (s : Sys) (n : Fin 4) : Sys :=
  let k := Nat.min ((s.lane n).rt.overruns + 1) 255
  ((s.modRt n fun r => { r with overran := true, overruns := k }).modEngine n fun e => { e with ended := true }).lanePost n 0x1303 []

/-- The class's action is HALT: always for classes 5 and 6, else by its bit of CYC_FACT. -/
def Runtime.halts (r : Runtime) (cls : Nat) : Bool := cls == 5 || cls == 6 || r.fact.testBit cls

/-- The overrun limit CYC_CTL.OVRN is reached (R130). -/
def Runtime.limitReached (r : Runtime) : Bool := r.ctl % 256 != 0 && r.ctl % 256 ≤ r.overruns

/-- A fault of class `cls` at byte offset `off` of the logic image. -/
def Sys.raise (s : Sys) (n : Fin 4) (cls off : Nat) : Sys :=
  let s1 := s.recordFault n cls off
  let s2 := if cls = 4 then s1.overrun n else s1
  if (s2.lane n).rt.halts cls then s2.halt n 1
  else if cls = 4 && (s2.lane n).rt.limitReached then s2.halt n 2
  else s2

/-! ## One instruction (R114, R134, R139, R155) -/

/-- An instruction that costs `cost` with `ext` extension words: an overrun when the charge would pass the program allowance;
else it is charged, and raises class 5 with no other effect when its form is not legal or its extension words lie beyond
LENGTH; else PC passes over it and `body` acts, answering the class it raises, 0 for none. -/
def Sys.insn (s : Sys) (n : Fin 4) (cost ext : Nat) (legal : Bool) (body : Sys → Sys × Nat) : Sys :=
  let e := (s.lane n).engine
  let off := 4 * e.pc
  if e.clocks + cost > s.prog.allowance then s.raise n 4 off
  else
    let s1 := s.modEngine n fun e => { e with clocks := e.clocks + cost }
    if !legal || (ext != 0 && s.logicTop n ≤ e.pc + ext) then s1.raise n 5 off
    else
      let r := body (s1.modEngine n fun e => { e with pc := e.pc + 1 + ext })
      if r.2 = 0 then r.1 else r.1.raise n r.2 off

/-- A charge by type: INT16, INT32, REAL32, 64-bit (R150). -/
def byType (t a b c d : Nat) : Nat := if t = 0 then a else if t = 1 then b else if t = 2 then c else d

/-- The charge of an instruction whose table gives no cost for some values of T: with one of those a word is charged 1 clock (R155). -/
def costFor (priced : Bool) (cost : Nat) : Nat := if priced then cost else 1

/-- T other than REAL32 (R151). -/
def notReal (t : Nat) : Bool := t == 0 || t == 1 || t == 3

/-- INT16, INT32 or REAL32. -/
def notWide (t : Nat) : Bool := t == 0 || t == 1 || t == 2

/-- D and the flags written from what an operation computed. -/
def Sys.writeAlu (s : Sys) (n : Fin 4) (d : Fin 8) (r : AluOut) : Sys × Nat :=
  ((s.setW n d r.res).modEngine n fun e => e.setFlags r.fl, r.cls)

/-- D written, the flags left. -/
def Sys.writeD (s : Sys) (n : Fin 4) (d : Fin 8) (v : Nat) : Sys × Nat := (s.setW n d v, 0)

/-- D := 0 and class 2: a read out of range. -/
def Sys.badRead (s : Sys) (n : Fin 4) (d : Fin 8) : Sys × Nat := (s.setW n d 0, 2)

/-- The flags of a lane's engine. -/
def Sys.flags (s : Sys) (n : Fin 4) : FlagSet := (s.lane n).engine.flags

/-- PC := TARGET for a branch that is taken; a TARGET at or beyond LENGTH / 4 raises class 5 (R152). -/
def Sys.jump (s : Sys) (n : Fin 4) (target : Nat) : Sys × Nat :=
  if s.logicTop n ≤ target then (s, 5) else (s.modEngine n fun e => { e with pc := target }, 0)

/-! ## Load, store and move (R149) -/

/-- A program variable word or word pair is in range (R141). -/
def Sys.varOk (s : Sys) (n : Fin 4) (t k : Nat) : Bool :=
  if t = 3 then k % 2 == 0 && (k + 2) * 4 ≤ s.vlen n else k * 4 < s.vlen n

def Sys.ldv (n : Fin 4) (o : OpM) (s : Sys) : Sys :=
  s.insn n (2 + o.extra + (if o.t = 3 then 1 else 0)) 0 o.formOk fun s =>
    let k := s.opK n o
    if s.varOk n o.t k then s.writeD n o.d (extend o.t (s.lrd n (varBase + 4 * k) (if o.t = 3 then 8 else 4))) else s.badRead n o.d

def Sys.stv (n : Fin 4) (o : OpM) (s : Sys) : Sys :=
  s.insn n (2 + o.extra + (if o.t = 3 then 1 else 0)) 0 o.formOk fun s =>
    let k := s.opK n o
    if s.varOk n o.t k then (s.lwr n (varBase + 4 * k) (if o.t = 3 then 8 else 4) (extend o.t (s.w n o.d)), 0) else (s, 2)

def Sys.ldp (n : Fin 4) (o : OpM) (s : Sys) : Sys :=
  s.insn n (3 + o.extra) 0 (notWide o.t && o.formOk) fun s =>
    let k := s.opK n o
    if k < 131072 then s.writeD n o.d (extend o.t (s.pointValue n k)) else s.badRead n o.d

def Sys.mov (n : Fin 4) (o : OpR) (s : Sys) : Sys :=
  s.insn n (1 + o.ext) o.ext (o.twoSource && o.a == 0) fun s => s.writeD n o.d (extend o.t (s.opB n o))

def Sys.ldx (n : Fin 4) (o : OpR) (s : Sys) : Sys :=
  s.insn n (2 + o.ext) o.ext (o.t == 3 && o.f == 1 && o.a == 0 && o.b ≤ 6) fun s => s.writeD n o.d (s.ctxItem n o.b)

def Sys.cvt (n : Fin 4) (o : OpR) (s : Sys) : Sys :=
  s.insn n (3 + o.ext) o.ext (o.f == 1 && o.b ≤ 3) fun s => s.writeAlu n o.d (aluCvt o.t o.b (s.w n o.a))

def Sys.nop (n : Fin 4) (o : OpZ) (s : Sys) : Sys := s.insn n 1 0 (o.bits == 0) fun s => (s, 0)

/-! ## Arithmetic (R150) -/

def Sys.addI (n : Fin 4) (o : OpR) (s : Sys) : Sys :=
  s.insn n (byType o.t 1 1 3 1 + o.ext) o.ext (o.twoSource) fun s => s.writeAlu n o.d (aluAdd o.t (s.w n o.a) (s.opB n o))

def Sys.subI (n : Fin 4) (o : OpR) (s : Sys) : Sys :=
  s.insn n (byType o.t 1 1 3 1 + o.ext) o.ext (o.twoSource) fun s => s.writeAlu n o.d (aluSub o.t (s.w n o.a) (s.opB n o))

def Sys.mulI (n : Fin 4) (o : OpR) (s : Sys) : Sys :=
  s.insn n (byType o.t 1 2 3 4 + o.ext) o.ext (o.twoSource) fun s => s.writeAlu n o.d (aluMul o.t (s.w n o.a) (s.opB n o))

def Sys.divI (n : Fin 4) (o : OpR) (s : Sys) : Sys :=
  s.insn n (byType o.t 10 18 14 34 + o.ext) o.ext (o.twoSource) fun s => s.writeAlu n o.d (aluDiv o.t (s.w n o.a) (s.opB n o))

def Sys.modI (n : Fin 4) (o : OpR) (s : Sys) : Sys :=
  s.insn n (costFor (notReal o.t) (byType o.t 10 18 1 34 + o.ext)) o.ext (notReal o.t && o.twoSource) fun s => s.writeAlu n o.d (aluMod o.t (s.w n o.a) (s.opB n o))

def Sys.negI (n : Fin 4) (o : OpR) (s : Sys) : Sys :=
  s.insn n (1 + o.ext) o.ext (o.oneSource) fun s => s.writeAlu n o.d (aluNeg o.t (s.w n o.a))

def Sys.absI (n : Fin 4) (o : OpR) (s : Sys) : Sys :=
  s.insn n (costFor (notWide o.t) (1 + o.ext)) o.ext (notWide o.t && o.oneSource) fun s => s.writeAlu n o.d (aluAbs o.t (s.w n o.a))

def Sys.minI (n : Fin 4) (o : OpR) (s : Sys) : Sys :=
  s.insn n (byType o.t 1 1 3 1 + o.ext) o.ext (o.twoSource) fun s => s.writeAlu n o.d (aluMin o.t (s.w n o.a) (s.opB n o))

def Sys.maxI (n : Fin 4) (o : OpR) (s : Sys) : Sys :=
  s.insn n (byType o.t 1 1 3 1 + o.ext) o.ext (o.twoSource) fun s => s.writeAlu n o.d (aluMax o.t (s.w n o.a) (s.opB n o))

def Sys.clmpI (n : Fin 4) (o : OpR) (s : Sys) : Sys :=
  s.insn n (byType o.t 2 2 4 2 + o.ext) o.ext (o.twoSource) fun s => s.writeAlu n o.d (aluClmp o.t (s.w n o.d) (s.w n o.a) (s.opB n o))

def Sys.sqrtI (n : Fin 4) (o : OpR) (s : Sys) : Sys :=
  s.insn n (costFor (o.t == 2) (16 + o.ext)) o.ext (o.t == 2 && o.oneSource) fun s => s.writeAlu n o.d (aluSqrt (s.w n o.a))

def Sys.cmpI (n : Fin 4) (o : OpR) (s : Sys) : Sys :=
  s.insn n (byType o.t 1 1 3 1 + o.ext) o.ext (o.twoSource && o.d == 0) fun s =>
    (s.modEngine n fun e => e.setFlags (cmpFlags o.t (s.w n o.a) (s.opB n o)), 0)

/-! ## Logic, shifts and bits (R151) -/

def Sys.andI (n : Fin 4) (o : OpR) (s : Sys) : Sys :=
  s.insn n (1 + o.ext) o.ext (notReal o.t && o.twoSource) fun s => s.writeAlu n o.d (aluAnd o.t (s.w n o.a) (s.opB n o))

def Sys.orI (n : Fin 4) (o : OpR) (s : Sys) : Sys :=
  s.insn n (1 + o.ext) o.ext (notReal o.t && o.twoSource) fun s => s.writeAlu n o.d (aluOr o.t (s.w n o.a) (s.opB n o))

def Sys.xorI (n : Fin 4) (o : OpR) (s : Sys) : Sys :=
  s.insn n (1 + o.ext) o.ext (notReal o.t && o.twoSource) fun s => s.writeAlu n o.d (aluXor o.t (s.w n o.a) (s.opB n o))

def Sys.notI (n : Fin 4) (o : OpR) (s : Sys) : Sys :=
  s.insn n (1 + o.ext) o.ext (notReal o.t && o.oneSource) fun s => s.writeAlu n o.d (aluNot o.t (s.w n o.a))

def Sys.lnotI (n : Fin 4) (o : OpR) (s : Sys) : Sys :=
  s.insn n (1 + o.ext) o.ext (notReal o.t && o.oneSource) fun s => s.writeAlu n o.d (aluLnot o.t (s.w n o.a))

def Sys.shlI (n : Fin 4) (o : OpR) (s : Sys) : Sys :=
  s.insn n (1 + o.ext) o.ext (notReal o.t && o.twoSource) fun s => s.writeAlu n o.d (aluShl o.t (s.w n o.a) (s.opB n o))

def Sys.shrI (n : Fin 4) (o : OpR) (s : Sys) : Sys :=
  s.insn n (1 + o.ext) o.ext (notReal o.t && o.twoSource) fun s => s.writeAlu n o.d (aluShr o.t (s.w n o.a) (s.opB n o))

def Sys.sarI (n : Fin 4) (o : OpR) (s : Sys) : Sys :=
  s.insn n (1 + o.ext) o.ext (notReal o.t && o.twoSource) fun s => s.writeAlu n o.d (aluSar o.t (s.w n o.a) (s.opB n o))

def Sys.rolI (n : Fin 4) (o : OpR) (s : Sys) : Sys :=
  s.insn n (1 + o.ext) o.ext (notReal o.t && o.twoSource) fun s => s.writeAlu n o.d (aluRol o.t (s.w n o.a) (s.opB n o))

def Sys.btstI (n : Fin 4) (o : OpR) (s : Sys) : Sys :=
  s.insn n (1 + o.ext) o.ext (notReal o.t && o.twoSource) fun s => s.writeAlu n o.d (aluBtst o.t (s.w n o.a) (s.opB n o) (s.flags n))

def Sys.bsetI (n : Fin 4) (o : OpR) (s : Sys) : Sys :=
  s.insn n (1 + o.ext) o.ext (notReal o.t && o.twoSource) fun s => s.writeAlu n o.d (aluBset o.t (s.w n o.a) (s.opB n o) (s.flags n))

def Sys.bclrI (n : Fin 4) (o : OpR) (s : Sys) : Sys :=
  s.insn n (1 + o.ext) o.ext (notReal o.t && o.twoSource) fun s => s.writeAlu n o.d (aluBclr o.t (s.w n o.a) (s.opB n o) (s.flags n))

/-! ## Control (R152) -/

def Sys.setI (n : Fin 4) (o : OpJ) (s : Sys) : Sys :=
  s.insn n 1 0 (o.cond ≤ 12 && !o.reserved && o.target == 0) fun s =>
    s.writeD n o.reg (if condHolds o.cond (s.flags n) then 1 else 0)

def Sys.br (n : Fin 4) (o : OpJ) (s : Sys) : Sys :=
  s.insn n 2 0 (o.cond ≤ 12 && !o.reserved && o.reg == 0) fun s =>
    if condHolds o.cond (s.flags n) then s.jump n o.target else (s, 0)

def Sys.brt (n : Fin 4) (o : OpJ) (s : Sys) : Sys :=
  s.insn n 2 0 (o.cond == 0 && !o.reserved) fun s => if truth (s.w n o.reg) then s.jump n o.target else (s, 0)

def Sys.brf (n : Fin 4) (o : OpJ) (s : Sys) : Sys :=
  s.insn n 2 0 (o.cond == 0 && !o.reserved) fun s => if truth (s.w n o.reg) then (s, 0) else s.jump n o.target

/-- A call with 16 entries on the stack raises class 6; the return index is the word after the CALL. -/
def Sys.call (n : Fin 4) (o : OpJ) (s : Sys) : Sys :=
  s.insn n 3 0 (o.cond == 0 && !o.reserved && o.reg == 0) fun s =>
    if 16 ≤ (s.lane n).engine.stack.length then (s, 6)
    else if s.logicTop n ≤ o.target then (s, 5)
    else (s.modEngine n fun e => { e with stack := e.pc :: e.stack, pc := o.target }, 0)

def Sys.ret (n : Fin 4) (o : OpZ) (s : Sys) : Sys :=
  s.insn n 3 0 (o.bits == 0) fun s =>
    match (s.lane n).engine.stack with
    | [] => (s, 6)
    | p :: rest => (s.modEngine n fun e => { e with stack := rest, pc := p }, 0)

def Sys.endTask (n : Fin 4) (o : OpZ) (s : Sys) : Sys :=
  s.insn n 1 0 (o.bits == 0) fun s => (s.modEngine n fun e => { e with stack := [], ended := true }, 0)

/-! ## Function blocks (R153, R156 to R158) -/

/-- A record of `size` bytes at index `ref` lies wholly within VLEN. -/
def Sys.recOk (s : Sys) (n : Fin 4) (size ref : Nat) : Bool := (ref + 1) * size ≤ s.vlen n

/-- A timer record (R116): START, PT, ET, IN, Q, RUN, and FLAGS as it was read. -/
structure TimerRec where
  start : Nat
  pt : Nat
  et : Nat
  inn : Bool
  q : Bool
  run : Bool
  word : Nat
deriving DecidableEq, Repr

def Sys.timer (s : Sys) (n : Fin 4) (a : Nat) : TimerRec :=
  let f := s.lrd n (a + 0x18) 4
  ⟨s.lrd n a 8, s.lrd n (a + 8) 8, s.lrd n (a + 0x10) 8, f.testBit 0, f.testBit 1, f.testBit 2, f⟩

/-- START, ET and FLAGS written; PT, RET and the reserved bits stay. -/
def Sys.setTimer (s : Sys) (n : Fin 4) (a : Nat) (r : TimerRec) : Sys :=
  ((s.lwr n a 8 r.start).lwr n (a + 0x10) 8 r.et).lwr n (a + 0x18) 4
    (r.word / 8 * 8 + (if r.inn then 1 else 0) + (if r.q then 2 else 0) + (if r.run then 4 else 0))

/-- The unsigned 64-bit difference of R156. -/
def elapsedSince (now start : Nat) : Nat := (now + 2 ^ 64 - start) % 2 ^ 64

def timerTon (inp : Bool) (now : Nat) (r : TimerRec) : TimerRec :=
  if inp then
    let start := if r.inn then r.start else now
    let e := elapsedSince now start
    { r with start := start, run := true, et := Nat.min e r.pt, q := decide (r.pt ≤ e), inn := inp }
  else { r with run := false, q := false, et := 0, inn := inp }

/-- A running timer of TOF or TP at `now`: Q and RUN fall when e reaches PT. -/
def timerRuns (now : Nat) (r : TimerRec) : TimerRec :=
  let e := elapsedSince now r.start
  if r.pt ≤ e then { r with et := Nat.min e r.pt, q := false, run := false } else { r with et := Nat.min e r.pt }

def timerTof (inp : Bool) (now : Nat) (r : TimerRec) : TimerRec :=
  if inp then { r with q := true, run := false, et := 0, inn := inp }
  else
    let r1 := if r.inn then { r with start := now, run := true } else r
    let r2 := if r1.run then timerRuns now r1 else r1
    { r2 with inn := inp }

def timerTp (inp : Bool) (now : Nat) (r : TimerRec) : TimerRec :=
  let r1 := if inp && !r.inn && !r.run then { r with start := now, run := true, q := true } else r
  let r2 := if r1.run then timerRuns now r1 else if inp then r1 else { r1 with et := 0 }
  { r2 with inn := inp }

def Sys.tmr (n : Fin 4) (o : OpK) (s : Sys) : Sys :=
  s.insn n 12 0 (notWide o.t && o.timerRef) fun s =>
    let a := varBase + 32 * o.ref
    let inp := truth (s.w n o.a)
    let now := s.ctxTime n
    let r := s.timer n a
    let r1 := if o.t = 0 then timerTon inp now r else if o.t = 1 then timerTof inp now r else timerTp inp now r
    if s.recOk n 32 o.ref then (s.setTimer n a r1).writeD n o.d (if r1.q then 1 else 0) else s.badRead n o.d

def Sys.tet (n : Fin 4) (o : OpK) (s : Sys) : Sys :=
  s.insn n 2 0 (o.t == 3 && o.timerRef && o.a == 0) fun s =>
    if s.recOk n 32 o.ref then s.writeD n o.d (s.timer n (varBase + 32 * o.ref)).et else s.badRead n o.d

/-- TRST keeps PT and RET; out of range it writes no register. -/
def Sys.trst (n : Fin 4) (o : OpK) (s : Sys) : Sys :=
  s.insn n 4 0 (o.t == 1 && o.timerRef && o.a == 0 && o.d == 0) fun s =>
    let a := varBase + 32 * o.ref
    if s.recOk n 32 o.ref then
      (s.setTimer n a { s.timer n a with start := 0, et := 0, inn := false, q := false, run := false }, 0)
    else (s, 2)

/-- A counter record (R157): CV, PV and FLAGS. -/
structure CounterRec where
  cv : Int
  pv : Int
  word : Nat
deriving DecidableEq, Repr

def Sys.counter (s : Sys) (n : Fin 4) (a : Nat) : CounterRec :=
  ⟨sint 32 (s.lrd n a 4), sint 32 (s.lrd n (a + 4) 4), s.lrd n (a + 8) 4⟩

/-- CV and FLAGS written. -/
def Sys.setCounter (s : Sys) (n : Fin 4) (a : Nat) (r : CounterRec) : Sys :=
  (s.lwr n a 4 (unsint 32 r.cv)).lwr n (a + 8) 4 r.word

/-- A bit of a flags word given. -/
def flagBit (word k : Nat) (b : Bool) : Nat :=
  if word.testBit k = b then word else if b then word + 2 ^ k else word - 2 ^ k

/-- QU. -/
def CounterRec.up (r : CounterRec) : Nat := if r.pv ≤ r.cv then 1 else 0

/-- QD. -/
def CounterRec.down (r : CounterRec) : Nat := if r.cv ≤ 0 then 1 else 0

def countUp (cu : Bool) (r : CounterRec) : CounterRec :=
  let r1 := if r.word.testBit 2 then { r with word := flagBit r.word 2 false }
    else if cu && !r.word.testBit 0 && r.cv < 2 ^ 31 - 1 then { r with cv := r.cv + 1 } else r
  { r1 with word := flagBit r1.word 0 cu }

def countDown (cd : Bool) (r : CounterRec) : CounterRec :=
  let r1 := if r.word.testBit 3 then { r with word := flagBit r.word 3 false }
    else if cd && !r.word.testBit 1 && -(2 ^ 31) < r.cv then { r with cv := r.cv - 1 } else r
  { r1 with word := flagBit r1.word 1 cd }

def Sys.ctu (n : Fin 4) (o : OpK) (s : Sys) : Sys :=
  s.insn n 6 0 (o.t == 1 && o.counterRef) fun s =>
    let a := varBase + 16 * o.ref
    let r := countUp (truth (s.w n o.a)) (s.counter n a)
    if s.recOk n 16 o.ref then (s.setCounter n a r).writeD n o.d r.up else s.badRead n o.d

def Sys.ctd (n : Fin 4) (o : OpK) (s : Sys) : Sys :=
  s.insn n 6 0 (o.t == 1 && o.counterRef) fun s =>
    let a := varBase + 16 * o.ref
    let r := countDown (truth (s.w n o.a)) (s.counter n a)
    if s.recOk n 16 o.ref then (s.setCounter n a r).writeD n o.d r.down else s.badRead n o.d

def Sys.crst (n : Fin 4) (o : OpK) (s : Sys) : Sys :=
  s.insn n 4 0 (o.t == 1 && o.counterRef) fun s =>
    let a := varBase + 16 * o.ref
    let r := if truth (s.w n o.a) then { s.counter n a with cv := 0 } else s.counter n a
    if s.recOk n 16 o.ref then (s.setCounter n a r).writeD n o.d r.up else s.badRead n o.d

def Sys.cld (n : Fin 4) (o : OpK) (s : Sys) : Sys :=
  s.insn n 4 0 (o.t == 1 && o.counterRef) fun s =>
    let a := varBase + 16 * o.ref
    let r := if truth (s.w n o.a) then { s.counter n a with cv := (s.counter n a).pv } else s.counter n a
    if s.recOk n 16 o.ref then (s.setCounter n a r).writeD n o.d r.down else s.badRead n o.d

def Sys.ccv (n : Fin 4) (o : OpK) (s : Sys) : Sys :=
  s.insn n 2 0 (o.t == 1 && o.counterRef && o.a == 0) fun s =>
    if s.recOk n 16 o.ref then s.writeD n o.d (extend 1 (s.lrd n (varBase + 16 * o.ref) 4)) else s.badRead n o.d

/-- An edge record evaluated (R158): the edge reported and the record's new word. A record with NEW set reports none. -/
def edgeStep (rising inp : Bool) (word : Nat) : Bool × Nat :=
  let m := word.testBit 0
  let hit := if rising then inp && !m else !inp && m
  if word.testBit 1 then (false, flagBit (flagBit word 1 false) 0 inp) else (hit, flagBit word 0 inp)

def Sys.edge (n : Fin 4) (o : OpK) (rising : Bool) (s : Sys) : Sys × Nat :=
  let a := varBase + 4 * o.ref
  let r := edgeStep rising (truth (s.w n o.a)) (s.lrd n a 4)
  if s.recOk n 4 o.ref then (s.lwr n a 4 r.2).writeD n o.d (if r.1 then 1 else 0) else s.badRead n o.d

def Sys.redg (n : Fin 4) (o : OpK) (s : Sys) : Sys := s.insn n 3 0 (o.t == 1 && !o.reserved) (Sys.edge n o true)

def Sys.fedg (n : Fin 4) (o : OpK) (s : Sys) : Sys := s.insn n 3 0 (o.t == 1 && !o.reserved) (Sys.edge n o false)

/-! ## Quality, loops, output emit and calendar (R154, R159 to R165) -/

def Sys.qld (n : Fin 4) (o : OpM) (s : Sys) : Sys :=
  s.insn n (4 + o.extra) 0 (o.t == 1 && o.formOk) fun s =>
    let k := s.opK n o
    if k < 131072 then s.writeD n o.d (s.pointQuality n k) else s.badRead n o.d

/-- The quality bits that make a point not usable. -/
abbrev qualityMask : Nat := 0x00BF

def Sys.qok (n : Fin 4) (o : OpM) (s : Sys) : Sys :=
  s.insn n (4 + o.extra) 0 (o.t == 1 && o.formOk) fun s =>
    let k := s.opK n o
    if k < 131072 then s.writeD n o.d (if s.pointQuality n k &&& qualityMask = 0 then 1 else 0) else s.badRead n o.d

/-- The state record of a loop slot (R172). -/
def slotBase (slot : Nat) : Nat := 0x380000 + 64 * slot

/-- A directory entry (R167, R168). -/
def Sys.slotEntry (s : Sys) (n : Fin 4) (slot : Nat) : Nat := s.lrd n (0x592000 + 8 * slot) 8

/-- The active set configures the slot (R167). -/
def Sys.slotUsed (s : Sys) (n : Fin 4) (slot : Nat) : Bool := bits (s.slotEntry n slot) 17 2 != 0

/-- The type of a loop field (R160), or none where the table has none. -/
def loopFieldType (f : Nat) : Option Nat :=
  if f ≤ 3 || (7 ≤ f && f ≤ 9) then some 2 else if f ≤ 6 || f = 10 then some 1 else none

/-- LPWR may write the field. -/
def loopFieldWritable (f : Nat) : Bool := f == 0 || f == 3 || f == 4 || (7 ≤ f && f ≤ 9)

/-- Where a REAL32 field lies in the record (R172). -/
def loopFieldOffset (f : Nat) : Nat := if f ≤ 3 then 4 * f else 0x10 + 4 * (f - 7)

/-- A loop field's value (R160, R172). -/
def Sys.loopField (s : Sys) (n : Fin 4) (slot f : Nat) : Nat :=
  let ctl := s.lrd n (slotBase slot + 0x1C) 4
  if f = 4 then bits ctl 0 3 else if f = 5 then bits ctl 4 3 else if f = 6 then bits ctl 16 16
  else if f = 10 then bits ctl 8 3 else s.lrd n (slotBase slot + loopFieldOffset f) 4

def Sys.lprd (n : Fin 4) (o : OpK) (s : Sys) : Sys :=
  let f := o.ref / 8192
  let slot := o.ref % 8192
  s.insn n 4 0 (!o.reserved && o.a == 0 && loopFieldType f == some o.t) fun s =>
    if s.slotUsed n slot then s.writeD n o.d (s.loopField n slot f) else s.badRead n o.d

/-- LPWR refuses an MREQ outside 0 to 4 and a REAL32 that is not finite with class 2. -/
def Sys.lpwr (n : Fin 4) (o : OpK) (s : Sys) : Sys :=
  let f := o.ref / 8192
  let slot := o.ref % 8192
  s.insn n 6 0 (!o.reserved && o.d == 0 && loopFieldType f == some o.t && loopFieldWritable f) fun s =>
    let v := s.w n o.a % 2 ^ 32
    if !s.slotUsed n slot then (s, 2)
    else if f = 4 then
      let ctl := s.lrd n (slotBase slot + 0x1C) 4
      if v ≤ 4 then (s.lwr n (slotBase slot + 0x1C) 4 (ctl / 8 * 8 + v), 0) else (s, 2)
    else if realFinite v then (s.lwr n (slotBase slot + loopFieldOffset f) 4 v, 0) else (s, 2)

def Sys.stp (n : Fin 4) (o : OpM) (s : Sys) : Sys :=
  s.insn n (3 + o.extra) 0 (notWide o.t && o.formOk) fun s =>
    let k := s.opK n o
    if 131072 ≤ k then (s, 2)
    else if s.pointClass n k < 2 then (s, 3)
    else (s.setMaster n k (extend o.t (s.w n o.d)), 0)

/-- SWA (R161). -/
def Sys.swa (n : Fin 4) (o : OpK) (s : Sys) : Sys :=
  s.insn n 4 0 (o.t == 1 && !o.reserved) fun s =>
    if s.pointClass n o.ref = 2 then
      (s.setMaster n o.ref (s.w n o.a % 2 ^ 16 + (if truth (s.w n o.d) then 2 ^ 16 else 0) + 2 ^ 17), 0)
    else (s, 3)

/-- DLQ (R162). -/
def Sys.dlq (n : Fin 4) (o : OpK) (s : Sys) : Sys :=
  s.insn n 5 0 (notWide o.t && !o.reserved) fun s =>
    let seq := (bits (s.master n o.ref) 28 4 + 1) % 16
    let frame := s.w n o.a % (if o.t = 1 then 2 ^ 24 else 2 ^ 16)
    if s.pointClass n o.ref = 2 then
      (s.setMaster n o.ref (frame + o.t * 2 ^ 24 + seq * 2 ^ 28)).writeD n o.d seq
    else (s, 3)

/-- CAL (R164): U set and −1 written when W[A] is 0. -/
def Sys.cal (n : Fin 4) (o : OpR) (s : Sys) : Sys :=
  s.insn n (24 + o.ext) o.ext (o.t == 1 && o.f == 1 && o.b ≤ 9) fun s =>
    let v := s.w n o.a
    let r := if v = 0 then 2 ^ 64 - 1 else extend 1 (calField o.b v)
    ((s.setW n o.d r).modEngine n fun e => { e with u := v == 0 }, 0)

/-- A fetch beyond LENGTH or a word of no opcode: charged 1 clock, class 5 (R139, R155). -/
def Sys.illegal (n : Fin 4) (s : Sys) : Sys := s.insn n 1 0 false fun s => (s, 0)

/-! ## Fetch (R134, R138) -/

/-- The word `w`, with the extension words that follow it in `long`, executed. -/
def Sys.execWord (n : Fin 4) (w long : Nat) (s : Sys) : Sys :=
  match wordOpc w with
  | 0x01 => Sys.ldv n (OpM.ofWord w) s
  | 0x02 => Sys.stv n (OpM.ofWord w) s
  | 0x03 => Sys.ldp n (OpM.ofWord w) s
  | 0x04 => Sys.mov n (OpR.ofWord w long) s
  | 0x05 => Sys.ldx n (OpR.ofWord w long) s
  | 0x06 => Sys.cvt n (OpR.ofWord w long) s
  | 0x07 => Sys.nop n (OpZ.ofWord w) s
  | 0x08 => Sys.addI n (OpR.ofWord w long) s
  | 0x09 => Sys.subI n (OpR.ofWord w long) s
  | 0x0A => Sys.mulI n (OpR.ofWord w long) s
  | 0x0B => Sys.divI n (OpR.ofWord w long) s
  | 0x0C => Sys.modI n (OpR.ofWord w long) s
  | 0x0D => Sys.negI n (OpR.ofWord w long) s
  | 0x0E => Sys.absI n (OpR.ofWord w long) s
  | 0x0F => Sys.minI n (OpR.ofWord w long) s
  | 0x10 => Sys.maxI n (OpR.ofWord w long) s
  | 0x11 => Sys.clmpI n (OpR.ofWord w long) s
  | 0x12 => Sys.sqrtI n (OpR.ofWord w long) s
  | 0x13 => Sys.cmpI n (OpR.ofWord w long) s
  | 0x14 => Sys.andI n (OpR.ofWord w long) s
  | 0x15 => Sys.orI n (OpR.ofWord w long) s
  | 0x16 => Sys.xorI n (OpR.ofWord w long) s
  | 0x17 => Sys.notI n (OpR.ofWord w long) s
  | 0x18 => Sys.lnotI n (OpR.ofWord w long) s
  | 0x19 => Sys.shlI n (OpR.ofWord w long) s
  | 0x1A => Sys.shrI n (OpR.ofWord w long) s
  | 0x1B => Sys.sarI n (OpR.ofWord w long) s
  | 0x1C => Sys.rolI n (OpR.ofWord w long) s
  | 0x1D => Sys.btstI n (OpR.ofWord w long) s
  | 0x1E => Sys.bsetI n (OpR.ofWord w long) s
  | 0x1F => Sys.bclrI n (OpR.ofWord w long) s
  | 0x20 => Sys.setI n (OpJ.ofWord w) s
  | 0x21 => Sys.br n (OpJ.ofWord w) s
  | 0x22 => Sys.brt n (OpJ.ofWord w) s
  | 0x23 => Sys.brf n (OpJ.ofWord w) s
  | 0x24 => Sys.call n (OpJ.ofWord w) s
  | 0x25 => Sys.ret n (OpZ.ofWord w) s
  | 0x26 => Sys.endTask n (OpZ.ofWord w) s
  | 0x28 => Sys.tmr n (OpK.ofWord w) s
  | 0x29 => Sys.tet n (OpK.ofWord w) s
  | 0x2A => Sys.trst n (OpK.ofWord w) s
  | 0x2B => Sys.ctu n (OpK.ofWord w) s
  | 0x2C => Sys.ctd n (OpK.ofWord w) s
  | 0x2D => Sys.crst n (OpK.ofWord w) s
  | 0x2E => Sys.cld n (OpK.ofWord w) s
  | 0x2F => Sys.ccv n (OpK.ofWord w) s
  | 0x30 => Sys.redg n (OpK.ofWord w) s
  | 0x31 => Sys.fedg n (OpK.ofWord w) s
  | 0x32 => Sys.qld n (OpM.ofWord w) s
  | 0x33 => Sys.qok n (OpM.ofWord w) s
  | 0x34 => Sys.lprd n (OpK.ofWord w) s
  | 0x35 => Sys.lpwr n (OpK.ofWord w) s
  | 0x36 => Sys.stp n (OpM.ofWord w) s
  | 0x37 => Sys.swa n (OpK.ofWord w) s
  | 0x38 => Sys.dlq n (OpK.ofWord w) s
  | 0x39 => Sys.cal n (OpR.ofWord w long) s
  | _ => Sys.illegal n s

/-- The extension words of the format R word at PC: one sign-extended, or two with T = 0b11, low word first. -/
def Sys.longAt (s : Sys) (n : Fin 4) (w pc : Nat) : Nat :=
  s.lrd n (logicBase + 4 * (pc + 1)) (if bits w 24 2 = 3 then 8 else 4)

/-- The word at PC fetched and executed. -/
def Sys.fetch (n : Fin 4) (s : Sys) : Sys :=
  let pc := (s.lane n).engine.pc
  let w := s.lrd n (logicBase + 4 * pc) 4
  if s.logicTop n ≤ pc then Sys.illegal n s else Sys.execWord n w (s.longAt n w pc) s

/-- Instructions executed until the task section ends. Every instruction that does not end it is charged at least one clock,
so the allowance bounds their number. -/
def Sys.runTask (n : Fin 4) : Nat → Sys → Sys
  | 0, s => s
  | fuel + 1, s => if (s.lane n).engine.ended then s else Sys.runTask n fuel (Sys.fetch n s)

/-- A task section runs from its ENTRY with every register, flag and the stack clear (R133). -/
def Sys.task (s : Sys) (n : Fin 4) (k entry : Nat) : Sys :=
  let s1 := s.modEngine n fun e =>
    { e with w := Vector.replicate 8 0#64, z := false, n := false, c := false, v := false, u := false,
             pc := entry / 4, stack := [], task := k, ended := false }
  Sys.runTask n (s.prog.allowance + 1) s1

/-! ## The meanings -/

def execLdv (lane : Fin 4) (o : OpM) (s : State) : Host.Outcome State Fault Refusal := run (Sys.ldv lane o) s

def execStv (lane : Fin 4) (o : OpM) (s : State) : Host.Outcome State Fault Refusal := run (Sys.stv lane o) s

def execLdp (lane : Fin 4) (o : OpM) (s : State) : Host.Outcome State Fault Refusal := run (Sys.ldp lane o) s

def execMov (lane : Fin 4) (o : OpR) (s : State) : Host.Outcome State Fault Refusal := run (Sys.mov lane o) s

def execLdx (lane : Fin 4) (o : OpR) (s : State) : Host.Outcome State Fault Refusal := run (Sys.ldx lane o) s

def execCvt (lane : Fin 4) (o : OpR) (s : State) : Host.Outcome State Fault Refusal := run (Sys.cvt lane o) s

def execNop (lane : Fin 4) (o : OpZ) (s : State) : Host.Outcome State Fault Refusal := run (Sys.nop lane o) s

def execAdd (lane : Fin 4) (o : OpR) (s : State) : Host.Outcome State Fault Refusal := run (Sys.addI lane o) s

def execSub (lane : Fin 4) (o : OpR) (s : State) : Host.Outcome State Fault Refusal := run (Sys.subI lane o) s

def execMul (lane : Fin 4) (o : OpR) (s : State) : Host.Outcome State Fault Refusal := run (Sys.mulI lane o) s

def execDiv (lane : Fin 4) (o : OpR) (s : State) : Host.Outcome State Fault Refusal := run (Sys.divI lane o) s

def execMod (lane : Fin 4) (o : OpR) (s : State) : Host.Outcome State Fault Refusal := run (Sys.modI lane o) s

def execNeg (lane : Fin 4) (o : OpR) (s : State) : Host.Outcome State Fault Refusal := run (Sys.negI lane o) s

def execAbs (lane : Fin 4) (o : OpR) (s : State) : Host.Outcome State Fault Refusal := run (Sys.absI lane o) s

def execMin (lane : Fin 4) (o : OpR) (s : State) : Host.Outcome State Fault Refusal := run (Sys.minI lane o) s

def execMax (lane : Fin 4) (o : OpR) (s : State) : Host.Outcome State Fault Refusal := run (Sys.maxI lane o) s

def execClmp (lane : Fin 4) (o : OpR) (s : State) : Host.Outcome State Fault Refusal := run (Sys.clmpI lane o) s

def execSqrt (lane : Fin 4) (o : OpR) (s : State) : Host.Outcome State Fault Refusal := run (Sys.sqrtI lane o) s

def execCmp (lane : Fin 4) (o : OpR) (s : State) : Host.Outcome State Fault Refusal := run (Sys.cmpI lane o) s

def execAnd (lane : Fin 4) (o : OpR) (s : State) : Host.Outcome State Fault Refusal := run (Sys.andI lane o) s

def execOr (lane : Fin 4) (o : OpR) (s : State) : Host.Outcome State Fault Refusal := run (Sys.orI lane o) s

def execXor (lane : Fin 4) (o : OpR) (s : State) : Host.Outcome State Fault Refusal := run (Sys.xorI lane o) s

def execNot (lane : Fin 4) (o : OpR) (s : State) : Host.Outcome State Fault Refusal := run (Sys.notI lane o) s

def execLnot (lane : Fin 4) (o : OpR) (s : State) : Host.Outcome State Fault Refusal := run (Sys.lnotI lane o) s

def execShl (lane : Fin 4) (o : OpR) (s : State) : Host.Outcome State Fault Refusal := run (Sys.shlI lane o) s

def execShr (lane : Fin 4) (o : OpR) (s : State) : Host.Outcome State Fault Refusal := run (Sys.shrI lane o) s

def execSar (lane : Fin 4) (o : OpR) (s : State) : Host.Outcome State Fault Refusal := run (Sys.sarI lane o) s

def execRol (lane : Fin 4) (o : OpR) (s : State) : Host.Outcome State Fault Refusal := run (Sys.rolI lane o) s

def execBtst (lane : Fin 4) (o : OpR) (s : State) : Host.Outcome State Fault Refusal := run (Sys.btstI lane o) s

def execBset (lane : Fin 4) (o : OpR) (s : State) : Host.Outcome State Fault Refusal := run (Sys.bsetI lane o) s

def execBclr (lane : Fin 4) (o : OpR) (s : State) : Host.Outcome State Fault Refusal := run (Sys.bclrI lane o) s

def execSet (lane : Fin 4) (o : OpJ) (s : State) : Host.Outcome State Fault Refusal := run (Sys.setI lane o) s

def execBr (lane : Fin 4) (o : OpJ) (s : State) : Host.Outcome State Fault Refusal := run (Sys.br lane o) s

def execBrt (lane : Fin 4) (o : OpJ) (s : State) : Host.Outcome State Fault Refusal := run (Sys.brt lane o) s

def execBrf (lane : Fin 4) (o : OpJ) (s : State) : Host.Outcome State Fault Refusal := run (Sys.brf lane o) s

def execCall (lane : Fin 4) (o : OpJ) (s : State) : Host.Outcome State Fault Refusal := run (Sys.call lane o) s

def execRet (lane : Fin 4) (o : OpZ) (s : State) : Host.Outcome State Fault Refusal := run (Sys.ret lane o) s

def execEnd (lane : Fin 4) (o : OpZ) (s : State) : Host.Outcome State Fault Refusal := run (Sys.endTask lane o) s

def execTmr (lane : Fin 4) (o : OpK) (s : State) : Host.Outcome State Fault Refusal := run (Sys.tmr lane o) s

def execTet (lane : Fin 4) (o : OpK) (s : State) : Host.Outcome State Fault Refusal := run (Sys.tet lane o) s

def execTrst (lane : Fin 4) (o : OpK) (s : State) : Host.Outcome State Fault Refusal := run (Sys.trst lane o) s

def execCtu (lane : Fin 4) (o : OpK) (s : State) : Host.Outcome State Fault Refusal := run (Sys.ctu lane o) s

def execCtd (lane : Fin 4) (o : OpK) (s : State) : Host.Outcome State Fault Refusal := run (Sys.ctd lane o) s

def execCrst (lane : Fin 4) (o : OpK) (s : State) : Host.Outcome State Fault Refusal := run (Sys.crst lane o) s

def execCld (lane : Fin 4) (o : OpK) (s : State) : Host.Outcome State Fault Refusal := run (Sys.cld lane o) s

def execCcv (lane : Fin 4) (o : OpK) (s : State) : Host.Outcome State Fault Refusal := run (Sys.ccv lane o) s

def execRedg (lane : Fin 4) (o : OpK) (s : State) : Host.Outcome State Fault Refusal := run (Sys.redg lane o) s

def execFedg (lane : Fin 4) (o : OpK) (s : State) : Host.Outcome State Fault Refusal := run (Sys.fedg lane o) s

def execQld (lane : Fin 4) (o : OpM) (s : State) : Host.Outcome State Fault Refusal := run (Sys.qld lane o) s

def execQok (lane : Fin 4) (o : OpM) (s : State) : Host.Outcome State Fault Refusal := run (Sys.qok lane o) s

def execLprd (lane : Fin 4) (o : OpK) (s : State) : Host.Outcome State Fault Refusal := run (Sys.lprd lane o) s

def execLpwr (lane : Fin 4) (o : OpK) (s : State) : Host.Outcome State Fault Refusal := run (Sys.lpwr lane o) s

def execStp (lane : Fin 4) (o : OpM) (s : State) : Host.Outcome State Fault Refusal := run (Sys.stp lane o) s

def execSwa (lane : Fin 4) (o : OpK) (s : State) : Host.Outcome State Fault Refusal := run (Sys.swa lane o) s

def execDlq (lane : Fin 4) (o : OpK) (s : State) : Host.Outcome State Fault Refusal := run (Sys.dlq lane o) s

def execCal (lane : Fin 4) (o : OpR) (s : State) : Host.Outcome State Fault Refusal := run (Sys.cal lane o) s

def execIllegalInstruction (lane : Fin 4) (s : State) : Host.Outcome State Fault Refusal := run (Sys.illegal lane) s

end Sys2Proof.Machine
end

