-- ==== Sys2Proof/Machine/Meter.lean ====
section
/-!
DEFINITION. The metering datapath of a lane (spec/07_metering.md): the metering image (R206), the sample path (R209), the
half-cycle windows and what they close into (R210 to R215), apportionment (R216, R217), the snapshot with the pulse meters,
demand records and meter points (R219 to R224), and the flush job (R233).
-/
namespace Sys2Proof.Machine

/-! ## The metering image (R206) -/

/-- An element record. -/
structure Element where
  vch : Nat
  ich : Nat
  circ : Nat
  ke : Nat
deriving DecidableEq, Repr

/-- A metering image as the datapath reads it. -/
structure MeterImage where
  circCnt : Nat
  pulseCnt : Nat
  shareCnt : Nat
  mpCnt : Nat
  dint : Nat
  snapLen : Nat
  ewords : Nat
  pq : Nat
  wfen : Bool
  kv : List Nat
  unom : List Nat
  zhys : List Nat
  ki : List Nat
  ofs : List Int
  gain : List Nat
  delay : List Int
  elements : List Element
  circuits : List (Nat × Nat)
  pulses : List (Nat × Nat)
  shares : List (Nat × Nat)
deriving DecidableEq, Repr

/-- A metering image read from memory, at `a`. -/
def meterImage (m : List Host.Cell) (a : Nat) : MeterImage :=
  let g := fun off k => memRead m (a + off) k
  let each := fun (base stride cnt : Nat) (f : Nat → Nat) => (List.range cnt).map fun i => f (base + stride * i)
  let circCnt := g 0x2A 2
  let pulseCnt := g 0x2C 2
  let shareCnt := g 0x2E 2
  { circCnt := circCnt, pulseCnt := pulseCnt, shareCnt := shareCnt, mpCnt := g 0x30 2, dint := g 0x32 2, snapLen := g 0x34 4,
    ewords := g 0x38 4, pq := g 0x3C 4, wfen := (g 0x40 4).testBit 0,
    kv := each 0x80 16 6 fun o => g o 4, unom := each 0x80 16 6 fun o => g (o + 4) 4, zhys := each 0x80 16 6 fun o => g (o + 8) 4,
    ki := each 0xE0 8 24 fun o => g o 4,
    ofs := (List.range 78).map fun k => sint 32 (g (0x1A0 + 32 * k) 4),
    gain := each 0x1A0 32 78 fun o => g (o + 4) 4,
    delay := (List.range 78).map fun k => sint 16 (g (0x1A8 + 32 * k) 2),
    elements := (List.range (g 0x28 2)).map fun i =>
      let w := g (0xB60 + 16 * i) 4
      ⟨bits w 0 3, bits w 3 5, bits w 8 5, g (0xB68 + 16 * i) 8⟩,
    circuits := (List.range circCnt).map fun i => (bits (g (0xCE0 + 8 * i) 4) 0 11, bits (g (0xCE0 + 8 * i) 4) 16 11),
    pulses := (List.range pulseCnt).map fun i => (bits (g (0xDA0 + 16 * i) 4) 0 17, g (0xDA8 + 16 * i) 8),
    shares := (List.range shareCnt).map fun i => (bits (g (0x11A0 + 4 * i) 4) 0 10, bits (g (0x11A0 + 4 * i) 4) 16 16) }

/-- Where the demand, pulse and share parts of the energy region begin, and where it ends (R223). -/
def MeterImage.demandAt (c : MeterImage) : Nat := 64 * c.circCnt
def MeterImage.pulseAt (c : MeterImage) : Nat := 112 * c.circCnt
def MeterImage.shareAt (c : MeterImage) : Nat := 112 * c.circCnt + 16 * c.pulseCnt
def MeterImage.energyEnd (c : MeterImage) : Nat := 112 * c.circCnt + 16 * c.pulseCnt + 24 * c.shareCnt

/-- A lane's metering image (R208). -/
def Sys.laneMeter (s : Sys) (n : Fin 4) : MeterImage := meterImage s.mem (laneBase n + 0x5A4000)

/-! ## The sample path (R209) -/

/-- (x + 2^(k-1)) >> k. -/
def shiftRound (x : Int) (k : Nat) : Int := (x + 2 ^ (k - 1)) / 2 ^ k

def sat32 (x : Int) : Int := if x < -(2 ^ 31) then -(2 ^ 31) else if x > 2 ^ 31 - 1 then 2 ^ 31 - 1 else x

/-- num / den to nearest, ties away from zero. -/
def roundAway (num : Int) (den : Nat) : Int :=
  let q := (2 * num.natAbs + den) / (2 * den)
  if num < 0 then -(Int.ofNat q) else Int.ofNat q

/-- The four Lagrange taps at F / 1,024, times 16,384. -/
def taps (f : Int) : List Int :=
  let d := 1024
  let scale := fun (num : Int) (k : Nat) => roundAway (16384 * num) (k * 1024 ^ 3)
  [scale (-(f * (f - d) * (f - 2 * d))) 6, scale ((f + d) * (f - d) * (f - 2 * d)) 2, scale (-((f + d) * f * (f - 2 * d))) 2,
   scale ((f + d) * f * (f - d)) 6]

/-- The word of raw sample `back` before the newest for column `col`; before the restart it is open. -/
def Datapath.rawWord (d : Datapath) (angle col back : Nat) : Nat :=
  match d.raw[back]? with
  | some g => nth 0 g.words col
  | none => unsint 32 (Config.before angle col back)

/-- The column of path k in a sample group: V0 to V5, then a low and a high word for each current (R197, R203). -/
def pathColumn (k : Nat) : Nat := if k < 6 then k else 6 + 2 * ((k - 6) / 3) + (if (k - 6) % 3 = 0 then 0 else 1)

/-- An integer kept in 64 bits, two's complement. -/
def wrap64 (x : Int) : Int := sint 64 (unsint 64 x)

/-- Stage 1 of path `k` on a sample word, its product kept in 64 bits. -/
def MeterImage.stage1 (c : MeterImage) (k word : Nat) : Int :=
  sat32 (wrap64 ((sint 24 word - nth 0 c.ofs k) * nth 0 c.gain k + 2 ^ 23) / 2 ^ 24)

/-- The output of path `k` for the raw sample 8 before the newest. -/
def Datapath.pathOut (d : Datapath) (c : MeterImage) (angle k : Nat) : Int :=
  let dl := nth 0 c.delay k
  let p := -dl / 1024
  let f := -dl % 1024
  let col := pathColumn k
  let at_ := fun (t : Int) => c.stage1 k (d.rawWord angle col (8 - (p + t)).toNat)
  let cs := taps f
  sat32 (shiftRound (nth 0 cs 0 * at_ (-1) + nth 0 cs 1 * at_ 0 + nth 0 cs 2 * at_ 1 + nth 0 cs 3 * at_ 2) 14)

/-- Stage 3: the path of current `m` that feeds the output: 0 low, 1 high at ×8, 2 high at ×64. -/
def Datapath.pathOf (d : Datapath) (angle m : Nat) : Nat :=
  let w := fun back => d.rawWord angle (7 + 2 * m) back
  let hg := (w 8).testBit 25
  let ok := (List.range 16).all fun i => (w (i + 1)).testBit 26 && (w (i + 1)).testBit 25 == hg
  if (w 8).testBit 27 && ok then (if hg then 2 else 1) else 0

/-! ## Sums of a window (R210) -/

/-- v90 of voltage channel `v`: its output a quarter cycle back (R210). The newest output comes first in `vout`. -/
def Datapath.quarter (d : Datapath) (angle da v : Nat) : Int :=
  let qd := divOpen (2 ^ 40) (Nat.max da 1)
  let back := (qd + 1023) / 1024
  let f : Int := (back * 1024 - qd : Nat)
  let at_ := fun (i : Nat) =>
    match d.vout[i]? with
    | some vs => nth 0 vs v
    | none => Config.before angle (100 + v) i
  at_ back + shiftRound ((at_ (back - 1) - at_ back) * f) 10

/-- The list with `f` applied at each index. -/
def mapIx {α β : Type} (f : Nat → α → β) : Nat → List α → List β
  | _, [] => []
  | k, x :: xs => f k x :: mapIx f (k + 1) xs

/-- (x × y) >> 8. -/
def term8 (x y : Int) : Int := x * y / 256

/-- An output added to the open window's sums, which are kept in 64 bits. `vs` and `is` are the voltage and current outputs, `paths` the current paths
they come from, `ovl` the channels overloaded at this sample. -/
def Datapath.accumulate (d : Datapath) (c : MeterImage) (angle da : Nat) (vs is : List Int) (paths : List Nat) (ovl : List Bool) : Datapath :=
  { d with
    outputs := d.outputs + 1
    sv2 := mapIx (fun k x => (x + (term8 (nth 0 vs k) (nth 0 vs k)).toNat) % 2 ^ 64) 0 d.sv2
    si2 := mapIx (fun k x => (x + (term8 (nth 0 is k) (nth 0 is k)).toNat) % 2 ^ 64) 0 d.si2
    sp := mapIx (fun k x => let e := nth ⟨0, 0, 0, 0⟩ c.elements k; wrap64 (x + term8 (nth 0 vs e.vch) (nth 0 is e.ich))) 0 d.sp
    sq := mapIx (fun k x => let e := nth ⟨0, 0, 0, 0⟩ c.elements k; wrap64 (x + term8 (d.quarter angle da e.vch) (nth 0 is e.ich))) 0 d.sq
    high := mapIx (fun k x => if nth 0 paths k = 0 then x else x + 1) 0 d.high
    ovl := mapIx (fun k x => x || nth false ovl k) 0 d.ovl }

/-- A window opened. -/
def Datapath.openWindow (d : Datapath) (c : MeterImage) (h : Nat) : Datapath :=
  { d with
    waiting := false, window := h, outputs := 0
    sv2 := List.replicate 6 0, si2 := List.replicate 24 0, sp := c.elements.map fun _ => 0, sq := c.elements.map fun _ => 0
    high := List.replicate 24 0, ovl := List.replicate 30 false }

/-! ## The live image (R221, R223) -/

def Datapath.rd (d : Datapath) (a k : Nat) : Nat := memRead d.live a k
def Datapath.wr (d : Datapath) (a k v : Nat) : Datapath := { d with live := memWrite d.live a k v }

/-- An event of a channel in the live list: 64 in a cycle, the rest counted (R226). -/
def Datapath.event (d : Datapath) (code ch : Nat) (vals : List (Nat × Nat)) : Datapath :=
  if 64 ≤ d.events.length then { d with lost := d.lost + 1 }
  else { d with events := d.events ++ [⟨code, ch, pack ((ch, 1) :: vals)⟩] }

/-! ## Closing a window (R211, R214, R215, R217) -/

/-- What an element gives in a window: ΔE, ΔQ, ΔS, P, Q and S. -/
structure WindowOut where
  e : Int
  q : Int
  a : Int
  p : Int
  r : Int
  s : Int
deriving DecidableEq, Repr

def WindowOut.add (x y : WindowOut) : WindowOut := ⟨x.e + y.e, x.q + y.q, x.a + y.a, x.p + y.p, x.r + y.r, x.s + y.s⟩

/-- A Δ as mW, mvar or mVA over n outputs. -/
def powerOf (delta : Int) (n : Nat) : Int := Int.tdiv (delta * 57600000) (Int.ofNat (n * 2 ^ 32))

/-- The values of an element (R211). -/
def windowOut (el : Element) (n sv2 si2 : Nat) (sp sq : Int) : WindowOut :=
  let e := shiftRound (sp * el.ke) 64
  let q := shiftRound (sq * el.ke) 64
  let a := shiftRound (isqrt (sv2 * si2) * el.ke) 64
  ⟨e, q, a, powerOf e n, powerOf q n, powerOf a n⟩

/-- PF: P / S in Q15, 0 when S is 0. -/
def powerFactor (o : WindowOut) : Int :=
  if o.s = 0 then 0
  else
    let v := Int.tdiv (o.p * 32768) o.s
    if v < -32768 then -32768 else if v > 32767 then 32767 else v

/-- Element record `k` of the live image. -/
def Datapath.elementRecord (d : Datapath) (k n : Nat) (o : WindowOut) : Datapath :=
  d.wr (0x10400 + 32 * k) 28 (pack [(unsint 32 o.p, 4), (unsint 32 o.r, 4), (unsint 32 o.s, 4), (unsint 32 (powerFactor o), 4),
    (unsint 64 o.e, 8), (n, 4)])

/-- A register of a circuit: its 64-bit count at `cnt` and its residue at `res`, with a signed amount in 2^-32 units added.
It answers the increase of the count. -/
def Datapath.addRegister (d : Datapath) (cnt res : Nat) (delta : Int) : Datapath × Nat :=
  let c := d.rd cnt 8
  let r := d.rd res 4
  let t : Int := Int.ofNat (c * 2 ^ 32 + r) + delta
  let v := unsint 96 t
  ((d.wr cnt 8 (v / 2 ^ 32)).wr res 4 (v % 2 ^ 32), (v / 2 ^ 32 + 2 ^ 64 - c) % 2 ^ 64)

/-- An entry before another in the order of the largest remainder: the larger r first, then the lower index (R217). -/
def shareBefore (x y : Nat × Int) : Bool := y.2 < x.2 || (x.2 == y.2 && x.1 < y.1)

def insertShare (x : Nat × Int) : List (Nat × Int) → List (Nat × Int)
  | [] => [x]
  | y :: ys => if shareBefore x y then x :: y :: ys else y :: insertShare x ys

/-- The split of k over entries of the given weights and carries (R217): for each entry its signed increase
and its new carry. -/
def apportion (k : Nat) (ws : List Nat) (carries : List Int) : List (Int × Int) :=
  let w := ws.foldl (· + ·) 0
  if w = 0 then ws.map fun _ => (0, 0)
  else
    let q := mapIx (fun i x => Int.ofNat (k * x) + nth 0 carries i) 0 ws
    let a := q.map fun x => x / Int.ofNat w
    let r := mapIx (fun i x => x - nth 0 a i * Int.ofNat w) 0 q
    let left := (Int.ofNat k - a.foldl (· + ·) 0).toNat
    let order := (mapIx (fun i x => (i, x)) 0 r).foldl (fun acc x => insertShare x acc) []
    let extra := (order.take left).map fun x => x.1
    mapIx (fun i x =>
      if extra.contains i then (x + 1, nth 0 r i - Int.ofNat w) else (x, nth 0 r i)) 0 a

/-- The split of k written over a circuit's share entries: counts at +`cnt`, carries at +`carry` of each entry. -/
def Datapath.splitShares (d : Datapath) (c : MeterImage) (first cnt carry k : Nat) (n : Nat) : Datapath :=
  let at_ := fun i => c.shareAt + 24 * (first + i)
  let ws := (List.range n).map fun i => (nth (0, 0) c.shares (first + i)).2
  let cs := (List.range n).map fun i => sint 32 (d.rd (at_ i + carry) 4)
  (mapIx (fun i x => (i, x)) 0 (apportion k ws cs)).foldl
    (fun acc x => (acc.wr (at_ x.1 + cnt) 8 (unsint 64 (Int.ofNat (acc.rd (at_ x.1 + cnt) 8) + x.2.1))).wr (at_ x.1 + carry) 4 (unsint 32 x.2.2)) d

/-- A circuit's registers, shares and record at the close of window `h` (R215 to R217). -/
def Datapath.closeCircuit (d : Datapath) (c : MeterImage) (h k : Nat) (o : WindowOut) : Datapath :=
  let a := 64 * k
  let ai := d.addRegister a (a + 0x28) (if 0 ≤ o.e then o.e else 0)
  let ae := ai.1.addRegister (a + 8) (a + 0x2C) (if o.e < 0 then -o.e else 0)
  let as_ := ae.1.addRegister (a + 0x10) (a + 0x30) o.e
  let rq := as_.1.addRegister (a + 0x18) (a + 0x34) o.q
  let sa := rq.1.addRegister (a + 0x20) (a + 0x38) o.a
  let sh := nth (0, 0) c.circuits k
  let d1 := if sh.2 = 0 then sa.1
    else (sa.1.splitShares c sh.1 0 0x10 ai.2 sh.2).splitShares c sh.1 8 0x14 ae.2 sh.2
  d1.wr (0x10700 + 32 * k) 24 (pack [(unsint 32 o.p, 4), (unsint 32 o.r, 4), (unsint 32 o.s, 4), (if o.e < 0 then 1 else 0, 4), (h, 8)])

/-- URMS or IRMS over the last two windows. -/
def rmsOf (sq n prevSq prevN k : Nat) : Nat :=
  if n + prevN = 0 then 0 else isqrt (256 * (sq + prevSq) / (n + prevN)) * k / 2 ^ 32

/-- The state a voltage is in by the first matching row of R214: 0 NORMAL, 1 SAG, 2 SWELL, 3 INTERRUPTION. -/
def voltageRow (pq u unom : Nat) : Nat :=
  if u * 100 < bits pq 16 8 * unom then 3 else if u * 100 < bits pq 0 8 * unom then 1
  else if bits pq 8 8 * unom < u * 100 then 2 else 0

/-- R214: a state's leave condition holds. -/
def voltageLeaves (pq u unom st : Nat) : Bool :=
  if st = 3 then (bits pq 16 8 + bits pq 24 8) * unom ≤ u * 100
  else if st = 1 then (bits pq 0 8 + bits pq 24 8) * unom ≤ u * 100
  else if st = 2 then u * 100 ≤ (bits pq 8 8 - bits pq 24 8) * unom
  else false

/-- The row of a state, from the top: INTERRUPTION, SAG, SWELL, NORMAL. -/
def voltageRank (st : Nat) : Nat := if st = 3 then 0 else if st = 1 then 1 else if st = 2 then 2 else 3

/-- The state after a window. -/
def voltageNext (pq u unom st : Nat) : Nat :=
  let row := voltageRow pq u unom
  if voltageLeaves pq u unom st || voltageRank row < voltageRank st then row else st

/-- A voltage channel's record at the close of a window, with its events (R211, R214). STAT holds the windows in the state;
UMIN and UMAX are the extremes of URMS in it (DEDUCED, notes/assumptions/21.md). -/
def Datapath.closeVoltage (d : Datapath) (c : MeterImage) (k : Nat) : Datapath :=
  let a := 0x10000 + 32 * k
  let u := rmsOf (nth 0 d.sv2 k) d.outputs (nth 0 d.prevSv2 k) d.prevN (nth 0 c.kv k)
  let stat := d.rd (a + 12) 4
  let st := bits stat 0 2
  let new := voltageNext c.pq u (nth 0 c.unom k) st
  let wins := bits stat 16 16
  let d1 := if new = st then d
    else
      let extreme := if st = 0 then Config.normalExtreme k d.window else d.rd (a + (if st = 2 then 20 else 16)) 4
      (d.event 0x1105 k [(st, 1), (wins, 2), (extreme, 4)]).event 0x1104 k [(new, 1)]
  let ovl := nth false d.ovl k
  let cnt := if new = st then Nat.min (wins + 1) 65535 else 1
  let lo := if new = st && wins != 0 then Nat.min (d.rd (a + 16) 4) u else u
  let hi := if new = st && wins != 0 then Nat.max (d.rd (a + 20) 4) u else u
  let d2 := d1.wr a 4 u
  d2.wr (a + 12) 16 (pack [(new + (if stat.testBit 2 then 4 else 0) + (if ovl then 8 else 0) + 65536 * cnt, 4), (lo, 4), (hi, 4),
    (d.rd (a + 24) 4 + 1, 4)])

/-- A current channel's record at the close of a window: IRMS and the share of the high path. -/
def Datapath.closeCurrent (d : Datapath) (c : MeterImage) (m : Nat) : Datapath :=
  let a := 0x10100 + 32 * m
  let i := rmsOf (nth 0 d.si2 m) d.outputs (nth 0 d.prevSi2 m) d.prevN (nth 0 c.ki m)
  (d.wr a 4 i).wr (a + 5) 1 (nth 0 d.high m * 100 / Nat.max d.outputs 1)

/-- The overload events of a window, channels numbered as the metering sources. -/
def Datapath.closeOverloads (d : Datapath) : Datapath :=
  (List.range 30).foldl (fun acc ch => if nth false d.ovl ch then acc.event 0x1108 ch [] else acc) d

/-- The open window closed: channels, elements, circuits and shares. -/
def Datapath.closeWindow (d : Datapath) (c : MeterImage) : Datapath :=
  let outs := mapIx (fun k el =>
    windowOut el d.outputs (nth 0 d.sv2 el.vch) (nth 0 d.si2 el.ich) (nth 0 d.sp k) (nth 0 d.sq k)) 0 c.elements
  let d1 := (List.range 6).foldl (fun acc k => acc.closeVoltage c k) d
  let d2 := (List.range 24).foldl (fun acc m => acc.closeCurrent c m) d1
  let d3 := d2.closeOverloads
  let d4 := (mapIx (fun k o => (k, o)) 0 outs).foldl (fun acc x => acc.elementRecord x.1 d.outputs x.2) d3
  let sums := fun k => (mapIx (fun i el => (i, el)) 0 c.elements).foldl
    (fun acc x => if x.2.circ = k then acc.add (nth ⟨0, 0, 0, 0, 0, 0⟩ outs x.1) else acc) (⟨0, 0, 0, 0, 0, 0⟩ : WindowOut)
  let d5 := (List.range c.circCnt).foldl (fun acc k => acc.closeCircuit c d.window k (sums k)) d4
  { d5 with prevSv2 := d.sv2, prevSi2 := d.si2, prevN := d.outputs, closed := true }

/-! ## One output -/

/-- The crossing between the last two outputs as a fraction of a sample interval after the earlier one. -/
def crossFraction (v0 v1 : Int) : Nat × Nat := ((-v0).toNat, (v1 - v0).toNat)

/-- The crossing detectors of V0 to V5; one that has seen no output is timed from the output at hand. -/
def Datapath.detectors (d : Datapath) (angle : Nat) : List Crossing := (List.range 6).map fun i => nth ⟨false, none, angle, none⟩ d.cross i

/-- A voltage channel's crossing detector over one output (R213). -/
def Datapath.crossing (d : Datapath) (c : MeterImage) (angle k : Nat) (v : Int) : Datapath :=
  let xs := d.detectors angle
  let x := nth ⟨false, none, angle, none⟩ xs k
  let a := 0x10000 + 32 * k
  let hit := match x.prev with
    | some p => x.armed && decide (p.1 < 0) && decide (0 ≤ v)
    | none => false
  let stat := d.rd (a + 12) 4
  if hit then
    let p := x.prev.getD (0, 0)
    let f := crossFraction p.1 v
    let ang := p.2 + divOpen ((angle - p.2) * f.1) f.2
    let pos := ((d.count - 1) * f.2 + f.1, f.2)
    let d1 := d.wr (a + 4) 4 ang
    let d2 := match x.last with
      | some q =>
        let num := pos.1 * q.2 - q.1 * pos.2
        if num = 0 then d1 else d1.wr (a + 8) 4 (divOpen (16000 * 65536 * (pos.2 * q.2)) num)
      | none => d1
    let d3 := if stat.testBit 2 then (d2.wr (a + 12) 4 (flagBit stat 2 false)).event 0x1107 k [] else d2
    { d3 with cross := setNth xs k ⟨false, some pos, ang, some (v, angle)⟩ }
  else
    let armed := x.armed || decide (v < -(Int.ofNat (nth 0 c.zhys k)))
    let lost := !stat.testBit 2 && x.since + 81920 ≤ angle
    let d1 := if lost then (d.wr (a + 12) 4 (flagBit stat 2 true)).event 0x1106 k [] else d
    { d1 with cross := setNth xs k { x with armed := armed, prev := some (v, angle) } }

/-- The waveform ring (R223): an output of every channel at WFIDX. -/
def Datapath.waveform (d : Datapath) (ys : List Int) : Datapath :=
  let ix := d.rd 0x10A00 4
  let d1 := (mapIx (fun k y => (k, y)) 0 ys).foldl (fun acc x => acc.wr (0x14000 + 13824 * x.1 + 4 * ix) 4 (unsint 32 x.2)) d
  d1.wr 0x10A00 4 ((ix + 1) % 3456)

/-- The current records at an output: the path it came from, and the low-path overloads. -/
def Datapath.currentOut (d : Datapath) (m path : Nat) (ovl : Bool) : Datapath :=
  let a := 0x10100 + 32 * m
  let d1 := d.wr (a + 4) 1 path
  if ovl then d1.wr (a + 8) 4 (d.rd (a + 8) 4 + 1) else d1

/-- The output for the raw sample 8 before the newest, once there is one. `da` is the angle step of its block. Outputs before the first
window are discarded (R212): they feed only the quarter-cycle history. -/
def Datapath.output (d : Datapath) (c : MeterImage) (da : Nat) : Datapath :=
  match d.raw[8]? with
  | none => d
  | some g =>
    let angle := g.angle
    let vs := (List.range 6).map fun k => d.pathOut c angle k
    let paths := (List.range 24).map fun m => d.pathOf angle m
    let is := mapIx (fun m p => d.pathOut c angle (6 + 3 * m + p)) 0 paths
    let ovl := (List.range 30).map fun ch => (nth 0 g.words (if ch < 6 then ch else 6 + 2 * (ch - 6))).testBit 24
    let h := angle / 32768
    let d1 : Datapath := { d with vout := (vs :: d.vout).take 129, count := d.count + 1, after := some (d.after.getD h) }
    let d2 := if d1.waiting then (if d1.after.getD h < h then d1.openWindow c h else d1)
      else if d1.window < h then (d1.closeWindow c).openWindow c h else d1
    if d2.waiting then d2
    else
      let d3 := d2.accumulate c angle da vs is paths ovl
      let d4 := (mapIx (fun k v => (k, v)) 0 vs).foldl (fun acc x => acc.crossing c angle x.1 x.2) d3
      let d5 := (mapIx (fun m p => (m, p)) 0 paths).foldl (fun acc x => acc.currentOut x.1 x.2 (nth false ovl (6 + x.1))) d4
      if c.wfen then d5.waveform (vs ++ is) else d5

/-- A raw sample group taken into the delay line, with the output it completes. -/
def Datapath.sample (c : MeterImage) (da : Nat) (d : Datapath) (g : RawGroup) : Datapath :=
  ({ d with raw := (g :: d.raw).take 20 } : Datapath).output c da

/-- The datapath at a restart (R212): nothing in the delay line, no window open. -/
def Datapath.restart (d : Datapath) : Datapath :=
  { d with
    raw := [], vout := [], waiting := true, after := none, count := 0, outputs := 0
    prevSv2 := [], prevSi2 := [], prevN := 0, closed := false
    cross := d.cross.map fun x => { x with armed := false, last := none, prev := none } }

/-- The delay line drained, with taps beyond the last raw sample equal to it, and the open window closed (R227). -/
def Datapath.finish (d : Datapath) (c : MeterImage) (da : Nat) : Datapath :=
  match d.raw with
  | [] => d
  | g :: _ =>
    let d1 := (List.range 8).foldl (fun acc _ => acc.sample c da g) d
    if d1.waiting || d1.outputs = 0 then d1 else d1.closeWindow c

/-- A block's angle step, its sample groups and its GAP flag (R197). `m` is the memory that holds it at `a`. -/
def blockStep (m : List Host.Cell) (a : Nat) : Nat := memRead m (a + 0x10) 4

def blockGroups (m : List Host.Cell) (a : Nat) : List RawGroup :=
  (List.range 16).map fun k : Nat =>
    ⟨memRead m (a + 8) 8 + k * blockStep m a / 2 ^ 16, (List.range 54).map fun i => memRead m (a + 0x40 + 216 * k + 4 * i) 4⟩

def blockGap (m : List Host.Cell) (a : Nat) : Bool := (memRead m (a + 4) 4).testBit 0

/-- The datapath before the groups of a block: a block with GAP ends what went before it (R227). -/
def Datapath.openBlock (d : Datapath) (c : MeterImage) (m : List Host.Cell) (a : Nat) : Datapath :=
  if blockGap m a then (d.finish c (blockStep m a)).restart else d

/-- A sample block run through the datapath (R197, R227). -/
def Datapath.block (d : Datapath) (c : MeterImage) (m : List Host.Cell) (a : Nat) : Datapath :=
  (blockGroups m a).foldl (Datapath.sample c (blockStep m a)) (d.openBlock c m a)

/-- The window that the output of the next raw sample falls in. -/
def Datapath.nextWindow (d : Datapath) : Option Nat := d.raw[7]?.map fun g => g.angle / 32768

/-- The datapath stands at a window boundary for its next output: no window is open, or that output is of a later one. -/
def Datapath.atBoundary (d : Datapath) : Bool := d.waiting || d.nextWindow.any fun h => d.window < h

/-! ## The snapshot (R219, R220, R222, R224) -/

/-- The meter snapshot in a lane's memory (R221). -/
abbrev snapBase : Nat := 0x480000

/-- Cells of the live image, offset by `base`, put over a range of memory. -/
def overlay (m live : List Host.Cell) (base lo hi : Nat) : List Host.Cell :=
  (srange live lo hi).foldl (fun acc c => memSetByte acc (base + c.1) c.2) (sclear m (base + lo) (base + hi))

/-- The meter event list as the snapshot holds it (R223). -/
def eventCells (events : List ListedEvent) : List Host.Cell :=
  (mapIx (fun i e => (i, e)) 0 events).foldl (fun m x => memWrite m (0x10C00 + 16 * x.1) 16 (Config.listEntry x.2.code x.2.slot x.2.data)) []

/-- The live image copied into the snapshot but for its demand and pulse parts, with the event list moved and the cycle noted. -/
def Sys.copySnapshot (s : Sys) (n : Fin 4) : Sys :=
  let c := s.laneMeter n
  let d := (s.lane n).dp
  let d1 := (d.wr 0x10A04 4 d.events.length).wr 0x10A08 4 d.lost
  let base := laneBase n + snapBase
  let m1 := overlay s.mem d1.live base 0 c.demandAt
  let m2 := overlay m1 d1.live base c.shareAt c.snapLen
  let m3 := overlay m2 (eventCells d.events) base 0x10C00 0x11000
  (Sys.lsync { s with mem := m3 } n snapBase c.snapLen).modLane n fun l => { l with
    dp := { d1 with events := [], lost := 0, snapEvents := d.events, snapLost := d.lost, snapCycle := s.ctxCycle n } }

/-- Pulse meter `i` at the snapshot step (R219, R229). -/
def Sys.pulseMeter (c : MeterImage) (n : Fin 4) (s : Sys) (i : Nat) : Sys :=
  let p := nth (0, 0) c.pulses i
  let a := snapBase + c.pulseAt + 16 * i
  let count := s.lrd n (0x280000 + 4 * p.1) 4
  let q := s.pointQuality n p.1
  if (s.lane n).dp.newMeters.contains i then
    (s.lwr n (a + 0xC) 4 count).modLane n fun l => { l with dp := { l.dp with newMeters := l.dp.newMeters.filter fun k => k != i } }
  else if q &&& qualityMask = 0 then
    let gain := (count + 2 ^ 32 - s.lrd n (a + 0xC) 4) % 2 ^ 32 * p.2
    let t := s.lrd n a 8 * 2 ^ 32 + s.lrd n (a + 8) 4 + gain
    ((s.lwr n a 8 (t / 2 ^ 32)).lwr n (a + 8) 4 (t % 2 ^ 32)).lwr n (a + 0xC) 4 count
  else if q.testBit 7 then s.lwr n (a + 0xC) 4 count
  else s

/-- A circuit's demand interval closed (R220): `dfl` is the closed interval's DFL. -/
def Sys.closeDemand (c : MeterImage) (n : Fin 4) (rtcs dfl : Nat) (s : Sys) (k : Nat) : Sys :=
  let a := snapBase + c.demandAt + 48 * k
  let ai := s.lrd n (snapBase + 64 * k) 8
  let ae := s.lrd n (snapBase + 64 * k + 8) 8
  s.lwr n a 44 (pack [(ai, 8), (ae, 8), ((ai + 2 ^ 64 - s.lrd n a 8) % 2 ^ 64, 8), ((ae + 2 ^ 64 - s.lrd n (a + 8) 8) % 2 ^ 64, 8),
    (s.lrd n (a + 0x20) 4 + 1, 4), (dfl, 4), (rtcs, 4)])

/-- MAI and MAE take the current counts at the first cycle of a set. -/
def Sys.openDemand (c : MeterImage) (n : Fin 4) (s : Sys) (k : Nat) : Sys :=
  s.lwr n (snapBase + c.demandAt + 48 * k) 16 (s.lrd n (snapBase + 64 * k) 16)

/-- The demand records at the snapshot step (R220). The DFL bits gather over the interval in progress. -/
def Sys.demandStep (s : Sys) (n : Fin 4) : Sys :=
  let c := s.laneMeter n
  let d := (s.lane n).dp
  let rtcs := s.lrd n 0x530010 4
  let ok := s.ctxRtcOk n
  let adj := (s.lrd n 0x530014 4).testBit 16
  let setDp := fun (s : Sys) (irr : Nat) => s.modLane n fun l => { l with
    dp := { l.dp with irregular := irr, lastRtcs := if ok then some rtcs else l.dp.lastRtcs } }
  if (s.lrd n 0x53001C 4).testBit 0 then
    setDp ((List.range c.circCnt).foldl (Sys.openDemand c n) s) (if ok then 2 else 6)
  else
    let prev := d.lastRtcs.getD rtcs
    let dint := Nat.max c.dint 1
    let irr := d.irregular ||| (if adj then 1 else 0) ||| (if ok then 0 else 4)
    if ok && prev / dint < rtcs / dint then
      let dfl := irr ||| (if prev / dint + 1 < rtcs / dint then 1 else 0)
      let s1 := (List.range c.circCnt).foldl (Sys.closeDemand c n rtcs dfl) s
      let s2 := if dfl % 2 = 1 || dfl.testBit 2 then s1.lanePost n 0x1113 [(dfl, 4)] else s1
      setDp s2 0
    else setDp s irr

/-- A meter point (R224). -/
def Sys.meterPoint (n : Fin 4) (s : Sys) (i : Nat) : Sys :=
  let a := 0x5A4000 + 0x21A0 + 8 * i
  let w := s.lrd n a 4
  let word := snapBase + 4 * bits (s.lrd n (a + 4) 4) 0 17
  let form := bits w 17 2
  let per := fun (x : Int) => if x = 0 then 0 else realRound (decide (x < 0)) (x.natAbs * 2 ^ 149) 1000
  let v := if form = 0 then s.lrd n word 4
    else if form = 1 then per (Int.ofNat (s.lrd n word 8))
    else if form = 2 then per (sint 64 (s.lrd n word 8))
    else per (sint 32 (s.lrd n word 4))
  s.setMaster n (bits w 0 17) v

/-- The snapshot step of a Compute job (R222). -/
def Sys.snapshotStep (s : Sys) (n : Fin 4) : Sys :=
  let c := s.laneMeter n
  let s1 := s.copySnapshot n
  let s2 := (List.range c.pulseCnt).foldl (Sys.pulseMeter c n) s1
  s2.demandStep n

/-- The meter points written to their masters. -/
def Sys.meterPoints (s : Sys) (n : Fin 4) : Sys := (List.range (s.laneMeter n).mpCnt).foldl (Sys.meterPoint n) s

/-! ## Jobs of the datapath -/

/-! ## Carry at an activation and at a start (R229, R232) -/

/-- The key of share entry `i`: its circuit, its locker and which of them it is (R229). -/
def MeterImage.shareKey (c : MeterImage) (i : Nat) : Nat × Nat × Nat :=
  let owner := ((List.range c.circCnt).find? fun k => let x := nth (0, 0) c.circuits k; x.1 ≤ i && i < x.1 + x.2).getD 255
  let first := (nth (0, 0) c.circuits owner).1
  let lk := (nth (0, 0) c.shares i).1
  (owner, lk, (((List.range (i - first)).map fun j => (nth (0, 0) c.shares (first + j)).1).filter fun x => x == lk).length)

/-- The share entry of an image that has a key. -/
def MeterImage.findShare (c : MeterImage) (key : Nat × Nat × Nat) : Option Nat :=
  (List.range c.shareCnt).find? fun i => c.shareKey i == key

/-- An energy region under image `old` carried to the layout of image `new`: circuits by number, shares by circuit, locker and
place, pulse meters by counter point; carries become 0 and what has no match starts at 0. -/
def carryEnergy (old new : MeterImage) (r : List Host.Cell) : List Host.Cell :=
  let put := fun (dst src k : Nat) (m : List Host.Cell) => memWrite m dst k (memRead r src k)
  let m1 := (List.range (Nat.min old.circCnt new.circCnt)).foldl
    (fun m k => put (new.demandAt + 48 * k) (old.demandAt + 48 * k) 48 (put (64 * k) (64 * k) 64 m)) []
  let m2 := (List.range new.pulseCnt).foldl (fun m i =>
    match (List.range old.pulseCnt).find? fun j => (nth (0, 0) old.pulses j).1 == (nth (0, 0) new.pulses i).1 with
    | some j => put (new.pulseAt + 16 * i) (old.pulseAt + 16 * j) 16 m
    | none => m) m1
  (List.range new.shareCnt).foldl (fun m i =>
    match old.findShare (new.shareKey i) with
    | some j => put (new.shareAt + 24 * i) (old.shareAt + 24 * j) 16 m
    | none => m) m2

/-- The pulse meters of the new image that the old one does not have. -/
def unmatchedPulses (old new : MeterImage) : List Nat :=
  (List.range new.pulseCnt).filter fun i => !(old.pulses.any fun p => p.1 == (nth (0, 0) new.pulses i).1)

/-- An old circuit or share entry with a non-zero count has no match in the new image (R229, 0x110C). -/
def carryLosesCount (old new : MeterImage) (r : List Host.Cell) : Bool :=
  ((List.range old.circCnt).any fun k => new.circCnt ≤ k && memRead r (64 * k) 40 != 0)
    || ((List.range old.shareCnt).any fun i => memRead r (old.shareAt + 24 * i) 16 != 0 && (new.findShare (old.shareKey i)).isNone)

/-- A lane's energy region as it stands: live circuits and shares with the snapshot's demand and pulse parts, from offset 0. -/
def Sys.energyRegion (s : Sys) (n : Fin 4) : List Host.Cell :=
  let c := s.laneMeter n
  let d := (s.lane n).dp
  let snap := fun lo hi => (srange s.mem (laneBase n + snapBase + lo) (laneBase n + snapBase + hi)).map fun x => (x.1 - (laneBase n + snapBase), x.2)
  srange d.live 0 c.demandAt ++ snap c.demandAt c.shareAt ++ srange d.live c.shareAt c.energyEnd

/-- An energy region put into a lane: its circuit and share parts into the live image, its demand and pulse parts into the
snapshot. `new` is the lane's image. -/
def Sys.putEnergy (s : Sys) (n : Fin 4) (new : MeterImage) (r : List Host.Cell) (fresh : List Nat) : Sys :=
  let base := laneBase n + snapBase
  let live := fun (d : Datapath) =>
    overlay (overlay (sclear d.live 0 0x10000) r 0 0 new.demandAt) r 0 new.shareAt new.energyEnd
  (Sys.lsync { s with mem := overlay s.mem r base new.demandAt new.shareAt } n (snapBase + new.demandAt) (new.shareAt - new.demandAt)).modLane n
    fun l => { l with dp := { l.dp with live := live l.dp, newMeters := fresh } }

end Sys2Proof.Machine
end

