-- ==== Sys2Proof/Machine/Loft.lean ====
section
/-!
DEFINITION. The loft's stores that the control plane saves into (R366, spec/13_memory_integrity_and_spares.md): CRC-32, writes
of the loft with their wear counts (R367), the energy slots (R231, spec/07_metering.md) and the retentive slots (R120,
spec/04_cycle_engine.md), the save of each, and what a start finds in them (R121, R232).
-/
namespace Sys2Proof.Machine

/-! ## CRC-32, IEEE 802.3 polynomial -/

/-- One bit of the reflected CRC-32. -/
def crcBit (c : BitVec 32) : BitVec 32 := if c.getLsbD 0 then (c >>> 1) ^^^ 0xEDB88320#32 else c >>> 1

/-- One byte of the CRC-32. -/
def crcByte (c : BitVec 32) (b : Nat) : BitVec 32 :=
  crcBit (crcBit (crcBit (crcBit (crcBit (crcBit (crcBit (crcBit (c ^^^ BitVec.ofNat 32 (b % 256)))))))))

/-- The CRC-32 of a row of bytes. -/
def crc32 (bs : List Nat) : Nat := ((bs.foldl crcByte 0xFFFFFFFF#32) ^^^ 0xFFFFFFFF#32).toNat

/-! ## Writes of the loft -/

/-- The loft window. -/
abbrev loftBase : Nat := 0x30000000

/-- The physical sector that serves a logical sector (R365). -/
def Sys.physSector (s : Sys) (l : Nat) : Nat := lookupD l s.mi.sectors l

/-- The write count of a physical sector. -/
def Sys.sectorWear (s : Sys) (p : Nat) : Nat := lookupD 0 s.mi.wear p + lookupD 0 s.mi.writes p

/-- The lowest of `n` spares that is not used up or reserved. -/
def freeOf (n : Nat) (used : List Nat) : Option Nat := (List.range n).find? fun k => !used.contains k

/-- A logical sector starts its copy into the lowest free spare, or stays with 0x0C0D (R367). -/
def Sys.replaceSector (s : Sys) (l : Nat) (wear : Bool) : Sys :=
  if s.mi.sectorCopies.any fun r => r.target == l then s
  else match freeOf 256 s.mi.sectorsUsed with
    | some k => { s with mi := { s.mi with sectorCopies := s.mi.sectorCopies ++ [⟨l, k, 0, wear⟩], sectorsUsed := k :: s.mi.sectorsUsed } }
    | none => s.note 0x0C0D

/-- `n` words written to a logical sector, counted for its physical sector; at the wear limit the sector is replaced (R367). -/
def Sys.countSector (s : Sys) (l n : Nat) : Sys :=
  let p := s.physSector l
  let old := s.sectorWear p
  let limit := s.get MEM_LWEAR_LIMIT * 2 ^ 24
  let s1 := { s with mi := { s.mi with writes := putKey s.mi.writes p (lookupD 0 s.mi.writes p + n) } }
  if old < limit && limit ≤ old + n then s1.replaceSector l true else s1

/-- The sectors that `[off, off + k)` of the loft touches. -/
def sectorsOf (off k : Nat) : List Nat :=
  if k = 0 then [] else (List.range ((off + k - 1) / 4096 + 1 - off / 4096)).map fun i => off / 4096 + i

/-- The words of sector `l` that `[off, off + k)` touches. -/
def wordsIn (l off k : Nat) : Nat :=
  let lo := Nat.max off (4096 * l)
  let hi := Nat.min (off + k) (4096 * (l + 1))
  (hi + 31) / 32 - lo / 32

/-- The wear of a write of `[off, off + k)`. -/
def Sys.wearLoft (s : Sys) (off k : Nat) : Sys := (sectorsOf off k).foldl (fun s l => s.countSector l (wordsIn l off k)) s

/-- A number of `k` bytes written into the loft. -/
def Sys.loftWr (s : Sys) (off k v : Nat) : Sys := (s.wr (loftBase + off) k v).wearLoft off k

/-- `k` bytes from a module address copied into the loft. -/
def Sys.loftCopy (s : Sys) (off src k : Nat) : Sys :=
  Sys.wearLoft { s with mem := memCopy s.mem (loftBase + off) src k } off k

/-- `k` bytes of the loft read as a number. -/
def Sys.loftRd (s : Sys) (off k : Nat) : Nat := s.rd (loftBase + off) k

/-- `k` bytes of the loft. -/
def Sys.loftBytes (s : Sys) (off k : Nat) : List Nat := memBytes s.mem (loftBase + off) k

/-! ## The energy store (R231) -/

/-- An energy slot. -/
def energySlot (k : Nat) : Nat := 0x30000 + 0x10000 * k

/-- The CRC over a slot's keys and data. -/
def Sys.energyCrc (s : Sys) (k : Nat) : Nat :=
  crc32 (s.loftBytes (energySlot k + 0x1000) 5312 ++ s.loftBytes (energySlot k + 0x3000) (s.loftRd (energySlot k + 4) 4))

/-- The slot holds a complete save whose CRC is correct. -/
def Sys.energyOk (s : Sys) (k : Nat) : Bool :=
  s.loftRd (energySlot k + 0x2C) 4 == 1 && s.loftRd (energySlot k + 4) 4 ≤ 0xD000 && s.loftRd (energySlot k + 0x1C) 4 == s.energyCrc k

/-- Of two slots with their soundness and SEQ, the newest complete one. -/
def newerSlot (ok0 ok1 : Bool) (seq0 seq1 : Nat) : Option Nat :=
  if ok0 && ok1 then some (if seq0 < seq1 then 1 else 0) else if ok0 then some 0 else if ok1 then some 1 else none

/-- The slot of the newest complete energy save. -/
def Sys.energyNewest (s : Sys) : Option Nat :=
  newerSlot (s.energyOk 0) (s.energyOk 1) (s.loftRd (energySlot 0 + 0x10) 8) (s.loftRd (energySlot 1 + 0x10) 8)

/-- MET_SSTAT and MET_SSEQ show a save. -/
def Sys.showSave (s : Sys) (slot kind seq : Nat) : Sys :=
  ((s.put MET_SSTAT_SLOT slot).put MET_SSTAT_KIND kind).setWord MET_SSEQ seq

/-- A save of `kind` from lane `n`, its energy region at lane-local `region`: keys, data, then the header with DONE last. -/
def Sys.saveEnergy (s : Sys) (n : Fin 4) (region kind : Nat) : Sys :=
  let cycle := if kind = 2 then s.fe.freezeCycle else (s.lane n).dp.snapCycle
  let c := s.laneMeter n
  let slot := match s.energyNewest with
    | some k => 1 - k
    | none => 0
  let seq := match s.energyNewest with
    | some k => s.loftRd (energySlot k + 0x10) 8 + 1
    | none => 1
  let o := energySlot slot
  let s1 := ((s.loftWr (o + 0x2C) 4 0).loftCopy (o + 0x1000) (laneBase n + 0x5A4000 + 0xCE0) 5312).loftCopy (o + 0x3000) (laneBase n + region) c.energyEnd
  let s2 := (((s1.loftWr o 4 0x100).loftWr (o + 4) 4 c.energyEnd).loftWr (o + 8) 8 cycle).loftWr (o + 0x10) 8 seq
  let s3 := ((s2.loftWr (o + 0x18) 4 kind).loftWr (o + 0x20) 8 s.fe.lastSample).loftWr (o + 0x28) 4 s.rtc.sec
  let s4 := (s3.loftWr (o + 0x1C) 4 (s3.energyCrc slot)).loftWr (o + 0x2C) 4 1
  { s4.showSave slot kind seq with loft := { s4.loft with energyCounts := putKey s4.loft.energyCounts slot (c.circCnt, c.pulseCnt, c.shareCnt) } }

/-- The image a slot was saved under, as far as its keys and counts tell it. -/
def Sys.savedImage (s : Sys) (slot : Nat) : MeterImage :=
  let cnt := lookupD (0, 0, 0) s.loft.energyCounts slot
  let a := loftBase + energySlot slot + 0x1000
  let z := meterImage [] 0
  { z with
    circCnt := cnt.1, pulseCnt := cnt.2.1, shareCnt := cnt.2.2
    circuits := (List.range cnt.1).map fun i => (bits (s.rd (a + 8 * i) 4) 0 11, bits (s.rd (a + 8 * i) 4) 16 11)
    pulses := (List.range cnt.2.1).map fun i => (bits (s.rd (a + 192 + 16 * i) 4) 0 17, s.rd (a + 192 + 16 * i + 8) 8)
    shares := (List.range cnt.2.2).map fun i => (bits (s.rd (a + 1216 + 4 * i) 4) 0 10, bits (s.rd (a + 1216 + 4 * i) 4) 16 16) }

/-- The energy region a slot holds, from offset 0. -/
def Sys.savedRegion (s : Sys) (slot : Nat) : List Host.Cell :=
  let a := loftBase + energySlot slot + 0x3000
  (srange s.mem a (a + s.loftRd (energySlot slot + 4) 4)).map fun c => (c.1 - a, c.2)

/-- R232: the energy restored into the given lanes before the first program cycle, every demand interval marked SHORT, and the events of the last flush. -/
def Sys.restoreEnergy (s : Sys) (lanes : List (Fin 4)) : Sys :=
  let s1 := match s.energyNewest with
    | some slot =>
      let old := s.savedImage slot
      let region := s.savedRegion slot
      let seq := s.loftRd (energySlot slot + 0x10) 8
      let s1 := lanes.foldl (fun s n =>
        let new := s.laneMeter n
        (s.putEnergy n new (carryEnergy old new region) (unmatchedPulses old new)).modLane n fun l =>
          { l with dp := { l.dp with irregular := 2 } }) s
      s1.showSave slot (s.loftRd (energySlot slot + 0x18) 4) seq
    | none =>
      (lanes.foldl (fun s n =>
        let new := s.laneMeter n
        (s.putEnergy n new [] (List.range new.pulseCnt)).modLane n fun l => { l with dp := { l.dp with irregular := 2 } }) s).note 0x1112
  if s.loft.flushMarker = 2 then (s1.note 0x1110).put MET_SSTAT_FLINC 0
  else if s.loft.flushMarker = 1 then (s1.note 0x1111).put MET_SSTAT_FLINC 1
  else s1

/-! ## The retentive store (R120) -/

/-- A retentive slot. -/
def retSlot (k : Nat) : Nat := 0x50000 + 0x41000 * k

/-- A lane's retentive ranges in table order: offset in the variable image and length (R103). -/
def Sys.retRanges (s : Sys) (n : Fin 4) : List (Nat × Nat) :=
  (List.range (s.logic n 0x34)).map fun i =>
    let w := s.lrd n (logicBase + s.logic n 0x30 + 8 * i) 8
    (bits w 0 20, bits w 32 19)

/-- The bytes of all ranges. -/
def retBytes (rs : List (Nat × Nat)) : Nat := (rs.map fun r => r.2).foldl (· + ·) 0

/-- The CRC over a slot's range table and data. -/
def Sys.retCrc (s : Sys) (k : Nat) : Nat :=
  crc32 (s.loftBytes (retSlot k + 0x20) 2048 ++ s.loftBytes (retSlot k + 0x1000) (s.loftRd (retSlot k + 4) 4))

/-- The slot is complete and its CRC correct. -/
def Sys.retOk (s : Sys) (k : Nat) : Bool :=
  s.loftRd (retSlot k + 0x1C) 4 == 1 && s.loftRd (retSlot k + 4) 4 ≤ 0x40000 && s.loftRd (retSlot k + 0x18) 4 == s.retCrc k

/-- The slot of the newest complete retentive save. -/
def Sys.retNewest (s : Sys) : Option Nat :=
  newerSlot (s.retOk 0) (s.retOk 1) (s.loftRd (retSlot 0 + 0x10) 8) (s.loftRd (retSlot 1 + 0x10) 8)

/-- The snapshot in lane `n`'s retentive area saved: the data and the range table first, the header last. -/
def Sys.saveRetentive (s : Sys) (n : Fin 4) (cycle : Nat) : Sys :=
  let slot := match s.retNewest with
    | some k => 1 - k
    | none => 0
  let seq := match s.retNewest with
    | some k => s.loftRd (retSlot k + 0x10) 8 + 1
    | none => 1
  let o := retSlot slot
  let len := retBytes (s.retRanges n)
  let s1 := ((s.loftWr (o + 0x1C) 4 0).loftCopy (o + 0x1000) (laneBase n + 0x551000) len).loftWr (o + 0x20) 2048 0
  let s2 := s1.loftCopy (o + 0x20) (laneBase n + logicBase + s.logic n 0x30) (8 * s.logic n 0x34)
  let s3 := (((s2.loftWr o 4 (s.logic n 0x3C)).loftWr (o + 4) 4 len).loftWr (o + 8) 8 cycle).loftWr (o + 0x10) 8 seq
  ((s3.loftWr (o + 0x18) 4 (s3.retCrc slot)).loftWr (o + 0x1C) 4 1).put CYC_RSTAT_SLOT slot

end Sys2Proof.Machine
end

