-- ==== Sys2Proof/Machine/Loop.lean ====
section
/-!
DEFINITION. The loop engine (spec/06_loop_engine.md): the arithmetic of R176, the records of R172 and R174, the pass of a due
slot (R180 to R190), the traces (R191, R192) and the loop pass of a cycle (R171, R173).
-/
namespace Sys2Proof.Machine

/-! ## Records -/

/-- A slot's state record (R172). -/
structure LoopRec where
  sp : Nat
  pv : Nat
  out : Nat
  mout : Nat
  trk : Nat
  ohi : Nat
  olo : Nat
  mreq : Nat
  mode : Nat
  region : Nat
  stat : Nat
  int : Int
  xprev : Int
  df : Int
  h : List Int
  uprev : Int
  ym : Int
  resf : Int
  badcnt : Nat
  dlix : Nat
  dcnt : Nat
deriving DecidableEq, Repr

/-- A slot's parameter record up to its regions (R174); `base` is its lane-local address. -/
structure LoopPar where
  base : Nat
  law : Nat
  pvPoint : Nat
  pvt : Nat
  reverse : Bool
  donpv : Bool
  schv : Nat
  csen : Bool
  men : Bool
  fbact : Nat
  nreg : Nat
  outPoint : Nat
  outt : Nat
  cslot : Nat
  pvlo : Nat
  pvhi : Nat
  outlo : Nat
  outhi : Nat
  pvk : Nat
  pvb : Nat
  outk : Nat
  twin : Nat
  slew : Nat
  dfk : Int
  hyst : Nat
  fbout : Int
  rt : Nat
  mgain : Int
  me : Int
  ma : Int
  mb : Int
  dlen : Nat
  dec : Nat
  rn : Nat
deriving DecidableEq, Repr

/-- A PID region or an SOS section: its three parameter words (R174). -/
structure LoopCoef where
  w0 : Nat
  w1 : Nat
  w2 : Nat
deriving DecidableEq, Repr

def LoopCoef.kp (c : LoopCoef) : Int := sint 16 c.w0
def LoopCoef.kd (c : LoopCoef) : Int := sint 16 (c.w0 / 2 ^ 16)
def LoopCoef.ki (c : LoopCoef) : Int := sint 16 c.w1
def LoopCoef.epd (c : LoopCoef) : Int := sint 5 (bits c.w1 16 5)
def LoopCoef.ei (c : LoopCoef) : Int := sint 5 (bits c.w1 21 5)
def LoopCoef.bound (c : LoopCoef) : Int := sint 16 c.w2
def LoopCoef.b0 (c : LoopCoef) : Int := sint 16 c.w0
def LoopCoef.b1 (c : LoopCoef) : Int := sint 16 (c.w0 / 2 ^ 16)
def LoopCoef.b2 (c : LoopCoef) : Int := sint 16 c.w1
def LoopCoef.a1 (c : LoopCoef) : Int := sint 16 (c.w1 / 2 ^ 16)
def LoopCoef.a2 (c : LoopCoef) : Int := sint 16 c.w2
def LoopCoef.exp (c : LoopCoef) : Int := sint 5 (bits c.w2 16 5)

/-- STAT bits (R172). -/
abbrev stHilim : Nat := 0
abbrev stLolim : Nat := 1
abbrev stIclamp : Nat := 2
abbrev stSlewing : Nat := 3
abbrev stPvbad : Nat := 4
abbrev stTrip : Nat := 5
abbrev stReshi : Nat := 6
abbrev stMref : Nat := 7
abbrev stSat : Nat := 8
abbrev stNew : Nat := 9

def LoopRec.has (r : LoopRec) (k : Nat) : Bool := r.stat.testBit k
def LoopRec.mark (r : LoopRec) (k : Nat) (b : Bool) : LoopRec := { r with stat := flagBit r.stat k b }

/-- A slot's state record read. -/
def Sys.loopRec (s : Sys) (n : Fin 4) (slot : Nat) : LoopRec :=
  let a := slotBase slot
  let ctl := s.lrd n (a + 0x1C) 4
  let ix := s.lrd n (a + 0x3F) 1
  { sp := s.lrd n a 4, pv := s.lrd n (a + 4) 4, out := s.lrd n (a + 8) 4, mout := s.lrd n (a + 0xC) 4,
    trk := s.lrd n (a + 0x10) 4, ohi := s.lrd n (a + 0x14) 4, olo := s.lrd n (a + 0x18) 4,
    mreq := bits ctl 0 3, mode := bits ctl 4 3, region := bits ctl 8 3, stat := bits ctl 16 16,
    int := sint 40 (s.lrd n (a + 0x20) 8), xprev := sint 16 (s.lrd n (a + 0x28) 2), df := sint 16 (s.lrd n (a + 0x2A) 2),
    h := (List.range 10).map fun i => sint 16 (s.lrd n (a + 0x20 + 2 * i) 2),
    uprev := sint 16 (s.lrd n (a + 0x38) 2), ym := sint 16 (s.lrd n (a + 0x3A) 2), resf := sint 16 (s.lrd n (a + 0x3C) 2),
    badcnt := s.lrd n (a + 0x3E) 1, dlix := ix % 16, dcnt := ix / 16 }

/-- LAWST of a record as one number of 20 bytes (R172). -/
def LoopRec.lawst (r : LoopRec) (law : Nat) : Nat :=
  if law = 1 then pack [(unsint 64 r.int, 8), (unsint 16 r.xprev, 2), (unsint 16 r.df, 2)]
  else pack (r.h.map fun v => (unsint 16 v, 2))

/-- A slot's state record written. -/
def Sys.setLoopRec (s : Sys) (n : Fin 4) (slot law : Nat) (r : LoopRec) : Sys :=
  let a := slotBase slot
  let s1 := s.lwr n a 32 (pack [(r.sp, 4), (r.pv, 4), (r.out, 4), (r.mout, 4), (r.trk, 4), (r.ohi, 4), (r.olo, 4),
    (r.mreq + 16 * r.mode + 256 * r.region + 65536 * r.stat, 4)])
  let s2 := s1.lwr n (a + 0x20) 20 (r.lawst law)
  s2.lwr n (a + 0x38) 8 (pack [(unsint 16 r.uprev, 2), (unsint 16 r.ym, 2), (unsint 16 r.resf, 2), (r.badcnt, 1),
    (r.dlix + 16 * r.dcnt, 1)])

/-- A slot's parameter record read (R174). -/
def Sys.loopPar (s : Sys) (n : Fin 4) (slot : Nat) : LoopPar :=
  let entry := s.slotEntry n slot
  let base := varBase + 4 * bits entry 0 17
  let g := fun off => s.lrd n (base + off) 4
  let p := g 0
  let o := g 4
  let m2 := g 0x38
  { base := base, law := bits entry 17 2,
    pvPoint := bits p 0 17, pvt := bits p 17 2, reverse := p.testBit 19, donpv := p.testBit 20, schv := bits p 21 3,
    csen := p.testBit 24, men := p.testBit 25, fbact := bits p 26 2, nreg := bits p 28 4,
    outPoint := bits o 0 17, outt := bits o 17 2, cslot := bits o 19 13,
    pvlo := g 8, pvhi := g 0xC, outlo := g 0x10, outhi := g 0x14, pvk := g 0x18, pvb := g 0x1C, outk := g 0x20,
    twin := bits (g 0x24) 0 16, slew := bits (g 0x24) 16 16, dfk := sint 16 (g 0x28), hyst := bits (g 0x28) 16 16,
    fbout := sint 16 (g 0x2C), rt := bits (g 0x2C) 16 16, mgain := sint 16 (g 0x30), me := sint 5 (bits (g 0x30) 16 5),
    ma := sint 16 (g 0x34), mb := sint 16 (g 0x34 / 2 ^ 16), dlen := Nat.min (bits m2 0 5) 16, dec := bits m2 8 4 + 1,
    rn := Nat.max (bits m2 16 8) 1 }

/-- Region or section `r` of a slot. -/
def Sys.loopCoef (s : Sys) (n : Fin 4) (p : LoopPar) (r : Nat) : LoopCoef :=
  ⟨s.lrd n (p.base + 0x60 + 16 * r) 4, s.lrd n (p.base + 0x64 + 16 * r) 4, s.lrd n (p.base + 0x68 + 16 * r) 4⟩

/-! ## Arithmetic (R176, R178) -/

def clip (lo hi x : Int) : Int := if x < lo then lo else if x > hi then hi else x

/-- min(max(x, lo), hi). -/
def between (x lo hi : Int) : Int := let y := if x < lo then lo else x; if y > hi then hi else y

def rnd15 (x : Int) : Int := (x + 16384) / 32768

/-- A pass in progress: the record, the delay line, the events listed, whether a saturation occurred, and the signals formed
so far (pv, sp, e, t). -/
structure Pass where
  r : LoopRec
  line : List Int
  evs : List ListedEvent
  sat : Bool
  transfer : Bool
  anchoring : Bool
  sigPv : Option Int
  sigSp : Option Int
  sigE : Option Int
  sigT : Option Int
deriving DecidableEq, Repr

/-- A computation of the pass. -/
abbrev LoopM := StateM Pass

/-- A value limited, with STAT.SAT noted when the limit changes it. -/
def limitM (lo hi x : Int) : LoopM Int := do
  let y := clip lo hi x
  if y ≠ x then modify fun p => { p with sat := true }
  return y

def sat16 : Int → LoopM Int := limitM (-32768) 32767
def sat40 : Int → LoopM Int := limitM (-(2 ^ 39)) (2 ^ 39 - 1)

def alignM (x e : Int) : LoopM Int :=
  if 0 ≤ e then sat40 (x * 2 ^ e.toNat) else return (x + 2 ^ ((-e).toNat - 1)) / 2 ^ (-e).toNat

/-- q15 before its limits; an infinity lies beyond them. -/
def q15Raw (x : Nat) : Int := realToClamped x 32768 (-(2 ^ 20)) (2 ^ 20)

/-- q15 whose limits set SAT. -/
def q15M (x : Nat) : LoopM Int := sat16 (q15Raw x)

/-- q15 of SP or pv to its span: the limits are no saturation. -/
def q15Free (x : Nat) : Int := clip (-32768) 32767 (q15Raw x)

/-- (x − lo) / (hi − lo) in binary32. -/
def spanRatio (x lo hi : Nat) : Nat := realDiv (realSub x lo) (realSub hi lo)

/-- The PV in engineering units from the point's word. -/
def LoopPar.engineer (p : LoopPar) (word : Nat) : Nat :=
  if p.pvt = 2 then word else realAdd (realMul (realOfInt (sint (if p.pvt = 0 then 16 else 32) word)) p.pvk) p.pvb

/-- OUT from an output in Q15. -/
def LoopPar.outOf (p : LoopPar) (u : Int) : Nat :=
  realAdd p.outlo (realMul (realDiv (realOfInt u) (realOfInt 32768)) (realSub p.outhi p.outlo))

/-- The word of the OUT master. -/
def LoopPar.masterWord (p : LoopPar) (out : Nat) : Nat :=
  if p.outt = 2 then out else (aluCvt p.outt 2 (realMul out p.outk)).res % 2 ^ 32

/-- OUT from the master read back (R186). -/
def LoopPar.readBack (p : LoopPar) (word : Nat) : Nat :=
  if p.outt = 2 then word else realDiv (realOfInt (sint (if p.outt = 0 then 16 else 32) word)) p.outk

/-! ## The steps of a pass -/

def modRec (f : LoopRec → LoopRec) : LoopM Unit := modify fun p => { p with r := f p.r }

/-- An event of the slot listed. -/
def listEvent (slot code : Nat) (vals : List (Nat × Nat)) : LoopM Unit :=
  modify fun p => { p with evs := p.evs ++ [⟨code, slot, pack ((slot, 2) :: vals)⟩] }

/-- The mode changed, which makes the pass a transfer (R180). -/
def setMode (slot mode : Nat) : LoopM Unit := do
  let old := (← get).r.mode
  modify fun p => { p with r := { p.r with mode := mode }, transfer := p.transfer || old != mode }
  if old ≠ mode then listEvent slot 0x1406 [(old, 1), (mode, 1)]

/-- Anchoring (R189). -/
def anchor (pv : Int) : LoopM Unit :=
  modify fun p => { p with
    r := { p.r with ym := pv, resf := 0, badcnt := 0, dlix := 0, dcnt := 0 }
    line := List.replicate 16 p.r.uprev }

/-- Anchoring as TRIP clears, in a pass that forms no pv: that of the PV field serves, and while it is not usable YM stays
(notes/assumptions/18.md). -/
def anchorCleared (p : LoopPar) : LoopM Unit := do
  let r := (← get).r
  let ratio := spanRatio r.pv p.pvlo p.pvhi
  anchor (if r.has stPvbad || !realFinite r.pv || realIsNaN ratio then r.ym else q15Free ratio)

/-- The mode request admitted (R185). -/
def admitMode (p : LoopPar) (slot : Nat) : LoopM Unit := do
  let r := (← get).r
  if r.mreq = 0 && r.has stTrip then
    modRec fun r => (r.mark stTrip false).mark stMref false
    anchorCleared p
    listEvent slot 0x140B []
    setMode slot 0
  else if r.mreq = r.mode then modRec fun r => r.mark stMref false
  else if (r.mreq == 3 && !p.csen) || ((r.mreq == 2 || r.mreq == 3) && r.has stTrip) then
    if !r.has stMref then listEvent slot 0x1405 [(r.mreq, 1)]
    modRec fun r => r.mark stMref true
  else
    modRec fun r => r.mark stMref false
    setMode slot r.mreq

/-- reg(x) of R184 for the boundaries of regions 1 and up. -/
def regionOf (bounds : List Int) (x : Int) : Nat := (bounds.filter fun b => b ≤ x).length

/-- The region for a scheduling variable v (R184). `bounds` are B(1), B(2) and so on. -/
def selectRegion (bounds : List Int) (hyst : Nat) (cur : Nat) (v : Int) : Nat :=
  if regionOf bounds v > cur && nth 0 bounds cur + hyst ≤ v then regionOf bounds (v - hyst)
  else if regionOf bounds v < cur && v < nth 0 bounds (cur - 1) - hyst then regionOf bounds (v + hyst)
  else cur

/-- The PID law (R182). `c` is the region in effect, `old` the one before a change in this pass. -/
def pidLaw (p : LoopPar) (c : LoopCoef) (old : Option LoopCoef) (e pv ohi olo : Int) : LoopM Int := do
  let x ← if p.donpv then sat16 (if p.reverse then pv else -pv) else pure e
  if (← get).anchoring then modRec fun r => { r with xprev := x }
  let dlt ← sat16 (x - (← get).r.xprev)
  let df0 := (← get).r.df
  let df ← sat16 (df0 + rnd15 (p.dfk * (dlt - df0)))
  modRec fun r => { r with df := df, xprev := x }
  let mode := (← get).r.mode
  if mode = 1 || mode = 4 then return 0
  let ohi40 := ohi * 32768
  let olo40 := olo * 32768
  let pd ← alignM (c.kp * e + c.kd * df) c.epd
  match old with
  | some o =>
    let pdo ← alignM (o.kp * e + o.kd * df) o.epd
    let v ← sat40 ((← get).r.int + pdo - pd)
    modRec fun r => { r with int := between v olo40 ohi40 }
  | none => pure ()
  if (← get).transfer then
    let v ← sat40 ((← get).r.uprev * 32768 - pd)
    modRec fun r => { r with int := between v olo40 ohi40 }
  else
    let di0 ← alignM (c.ki * e) c.ei
    let sx ← sat40 (pd + (← get).r.int + di0)
    let stop := (decide (sx > ohi40) && decide (di0 > 0)) || (decide (sx < olo40) && decide (di0 < 0))
    if stop then modRec fun r => r.mark stIclamp true
    let v ← sat40 ((← get).r.int + (if stop then 0 else di0))
    if v > ohi40 || v < olo40 then modRec fun r => { r with int := between v olo40 ohi40 }.mark stIclamp true
    else modRec fun r => { r with int := v }
  let out ← sat40 (pd + (← get).r.int)
  sat16 (rnd15 out)

/-- The sections of an SOS chain in order (R183). -/
def sosSections : List LoopCoef → Nat → Int → LoopM Int
  | [], _, xin => return xin
  | c :: cs, i, xin => do
    let h := fun k => do return nth 0 (← get).r.h k
    let h0 ← h (2 * i)
    let acc := c.b0 * xin + c.b1 * h0 + c.b2 * (← h (2 * i + 1)) - c.a1 * (← h (2 * i + 2)) - c.a2 * (← h (2 * i + 3))
    let y ← sat16 (rnd15 (← alignM acc c.exp))
    modRec fun r => { r with h := setNth (setNth r.h (2 * i + 1) h0) (2 * i) xin }
    sosSections cs (i + 1) y

/-- The SOS law in AUTO and CASCADE; a transfer restarts the chain. -/
def sosLaw (cs : List LoopCoef) (e : Int) : LoopM Int := do
  if (← get).transfer then modRec fun r => { r with h := List.replicate 10 0 }
  sosSections cs 0 e

/-- The history of an SOS chain's output after the output stage. -/
def sosAfter (nsec : Nat) (u : Int) : LoopM Unit :=
  modRec fun r => { r with h := setNth (setNth r.h (2 * nsec + 1) (nth 0 r.h (2 * nsec))) (2 * nsec) u }

/-- A trip and its fallback action (R190). -/
def tripLoop (p : LoopPar) (slot : Nat) : LoopM Unit := do
  let r := (← get).r
  modRec fun r => r.mark stTrip true
  listEvent slot 0x1402 [(unsint 16 r.resf, 2)]
  if (r.mode == 2 || r.mode == 3) && p.fbact != 0 then
    let mout := if p.fbact = 2 then
        realAdd p.outlo (realMul (realDiv (realOfInt p.fbout) (realOfInt 32768)) (realSub p.outhi p.outlo))
      else p.outOf r.uprev
    modRec fun r => { r with mout := mout, mreq := 1 }
    setMode slot 1

/-- The model (R189) and the trip (R190). -/
def runModel (p : LoopPar) (slot : Nat) (pv : Int) : LoopM Unit := do
  let q ← get
  let r := q.r
  let ud := if p.dlen = 0 then r.uprev else nth 0 q.line ((r.dlix + 16 - p.dlen) % 16)
  if r.dcnt + 1 = p.dec then
    modify fun q => { q with line := setNth q.line r.dlix r.uprev, r := { q.r with dlix := (r.dlix + 1) % 16, dcnt := 0 } }
  else modRec fun r => { r with dcnt := (r.dcnt + 1) % 16 }
  let mi ← sat16 (rnd15 (← alignM (p.mgain * ud) p.me) + p.mb)
  let ym ← sat16 (r.ym + rnd15 (p.ma * (mi - r.ym)))
  let d ← sat16 (pv - ym)
  let mag : Int := clip 0 32767 d.natAbs
  let resf := r.resf + (mag - r.resf) / 8
  let high := decide (resf > p.rt)
  let cnt := if high then Nat.min (r.badcnt + 1) 255 else 0
  modRec fun r => { r with ym := ym, resf := resf, badcnt := cnt }.mark stReshi high
  if p.rn ≤ cnt && !(← get).r.has stTrip then tripLoop p slot

/-- The output stage (R187). -/
def outputStage (p : LoopPar) (t : Int) : LoopM Int := do
  let q ← get
  let check := q.transfer || q.r.mode == 1 || q.r.mode == 4
  let d := t - q.r.uprev
  if q.r.has stSlewing || (check && decide (p.twin < d.natAbs)) then
    let u := if p.slew = 0 then t else q.r.uprev + between d (-p.slew) p.slew
    modRec fun r => r.mark stSlewing (p.slew != 0 && u != t)
    return u
  else return t

/-! ## Traces (R191, R192) -/

/-- A trace record of the loop image. -/
structure TraceCfg where
  slot : Nat
  sig : Nat
  trig : Nat
  tsig : Nat
  level : Int
  pre : Nat
  en : Bool
  armPoint : Nat
  armEn : Bool
deriving DecidableEq, Repr

/-- Trace record `c` in the lane's memory (R168). -/
def Sys.traceCfg (s : Sys) (n : Fin 4) (c : Nat) : TraceCfg :=
  let w := s.lrd n (0x5A2000 + 32 * c) 8
  let x := s.lrd n (0x5A2000 + 32 * c + 8) 4
  ⟨bits w 0 13, bits w 16 4, bits w 20 4, bits w 24 4, sint 16 (bits w 32 16), bits w 48 12, w.testBit 63, bits x 0 17, x.testBit 17⟩

/-- A signal of a pass (R191). A signal that the pass does not form is open. -/
def Pass.signal (p : Pass) (law cycle slot sig : Nat) : Int :=
  match sig with
  | 0 => p.sigPv.getD (Config.unformed cycle slot 0)
  | 1 => p.sigSp.getD (Config.unformed cycle slot 1)
  | 2 => p.sigE.getD (Config.unformed cycle slot 2)
  | 3 => p.r.uprev
  | 4 => if law = 1 then clip (-32768) 32767 (rnd15 p.r.int) else 0
  | 5 => if law = 1 then p.r.df else 0
  | 6 => p.r.ym
  | 7 => p.r.resf
  | _ => p.sigT.getD (Config.unformed cycle slot 8)

/-- What a pass changed, as the triggers 4 to 7 of R191 see it: the record before and after. -/
def triggerMet (c : TraceCfg) (prev : Option Int) (cur : Int) (before after : LoopRec) : Bool :=
  match c.trig with
  | 1 => true
  | 2 => match prev with
    | some v => decide (v < c.level) && decide (c.level ≤ cur)
    | none => false
  | 3 => match prev with
    | some v => decide (c.level ≤ v) && decide (cur < c.level)
    | none => false
  | 4 => before.mode != after.mode
  | 5 => !before.has stTrip && after.has stTrip
  | 6 => before.region != after.region
  | 7 => !before.has stSlewing && after.has stSlewing
  | _ => false

/-- LOOP_TRS.STATE. -/
abbrev trOff : Nat := 0
abbrev trPrefill : Nat := 1
abbrev trArmed : Nat := 2
abbrev trPost : Nat := 3
abbrev trStopped : Nat := 4

/-- Step 1: the channel armed when ARMPT's master changes or at the first pass. -/
def Trace.rearm (t : Trace) (c : TraceCfg) (armValue : Nat) : Trace :=
  if !t.armed || (c.armEn && armValue != t.armValue) then
    { t with state := trPrefill, count := 0, armed := true, armValue := armValue }
  else t

/-- Steps 3 to 5 after the sample is written at index `ix`; the flag says that the channel triggered. -/
def Trace.advance (t : Trace) (c : TraceCfg) (met : Bool) (ix cycle : Nat) : Trace × Bool :=
  let armed := t.state == trArmed || (t.state == trPrefill && c.pre == 0)
  if armed then
    if met then
      ({ t with tidx := ix, cycle := cycle, count := 1, state := if 4096 - c.pre ≤ 1 then trStopped else trPost }, true)
    else ({ t with state := trArmed }, false)
  else if t.state = trPrefill then
    ({ t with count := t.count + 1, state := if c.pre ≤ t.count + 1 then trArmed else trPrefill }, false)
  else
    ({ t with count := t.count + 1, state := if 4096 - c.pre ≤ t.count + 1 then trStopped else trPost }, false)

/-- A trace channel at the end of a due pass of its slot. -/
def Sys.traceSample (before : LoopRec) (p : Pass) (law cycle slot : Nat) (n : Fin 4) (s : Sys) (c : Nat) : Sys :=
  let cfg := s.traceCfg n c
  if !cfg.en || cfg.slot ≠ slot then s
  else
    let t0 := nth ⟨0, 0, 0, 0, 0, 0, false, none⟩ (s.lane n).traces c
    let t1 := t0.rearm cfg (s.master n cfg.armPoint)
    let cur := p.signal law cycle slot cfg.tsig
    let put := fun (s : Sys) (t : Trace) => s.modLane n fun l => { l with traces := setNth l.traces c { t with prev := some cur } }
    if t1.state = trStopped then put s t1
    else
      let ix := t1.widx
      let s1 := s.lwr n (0x500000 + 8192 * c + 2 * ix) 2 (unsint 16 (p.signal law cycle slot cfg.sig))
      let a := { t1 with widx := (ix + 1) % 4096 }.advance cfg (triggerMet cfg t1.prev cur before p.r) ix (cycle % 2 ^ 32)
      let s2 := put s1 a.1
      if a.2 then s2.modLane n fun l => { l with loopEvents := l.loopEvents ++ [⟨0x1408, slot, pack [(c, 1), (slot, 2)]⟩] } else s2

/-! ## The pass of a slot (R180) -/

/-- What a pass reads of the lane beside its records: the PV point's word and quality, the OUT master, the cascade master's
OUT, the coefficients, and whether the region has been selected before. -/
structure PassIn where
  word : Nat
  qual : Nat
  master : Nat
  cascade : Nat
  coefs : List LoopCoef
  ranged : Bool
deriving DecidableEq, Repr

/-- The OFF pass: OUT and UPREV follow the master read back. -/
def offPass (p : LoopPar) (x : PassIn) : LoopM Unit := do
  let out := p.readBack x.master
  let u ← q15M (spanRatio out p.outlo p.outhi)
  modRec fun r => { r with out := out, uprev := u }

/-- PVBAD set or cleared, with its events; a recovery anchors, and is a transfer in AUTO and CASCADE. -/
def judgePv (slot : Nat) (bad : Bool) : LoopM Unit := do
  let r := (← get).r
  if bad && !r.has stPvbad then listEvent slot 0x1403 []
  if !bad && r.has stPvbad then
    listEvent slot 0x1404 []
    modify fun q => { q with anchoring := true, transfer := q.transfer || r.mode == 2 || r.mode == 3 }
  modRec fun r => r.mark stPvbad bad

/-- The region of a PID slot selected (R184); the coefficients before a change. -/
def scheduleRegion (p : LoopPar) (x : PassIn) (slot : Nat) (pv sp e : Int) : LoopM (Option LoopCoef) := do
  let r := (← get).r
  if p.law ≠ 1 || p.nreg ≤ 1 then return none
  let bounds := (x.coefs.drop 1).map LoopCoef.bound
  let v := if p.schv = 0 then pv else if p.schv = 1 then sp else if p.schv = 2 then e else r.uprev
  let new := if x.ranged then selectRegion bounds p.hyst r.region v else regionOf bounds v
  if new = r.region then return none
  modRec fun r => { r with region := new }
  listEvent slot 0x1407 [(r.region, 1), (new, 1)]
  return some (nth ⟨0, 0, 0⟩ x.coefs r.region)

/-- The law of a slot with a usable PV: the target in AUTO and CASCADE. -/
def runLaw (p : LoopPar) (x : PassIn) (slot : Nat) (pv sp e ohi olo : Int) : LoopM Int := do
  let old ← scheduleRegion p x slot pv sp e
  let r := (← get).r
  if p.law = 1 then pidLaw p (nth ⟨0, 0, 0⟩ x.coefs r.region) old e pv ohi olo
  else if r.mode = 1 || r.mode = 4 then return 0
  else sosLaw x.coefs e

/-- The target of the pass: MOUT or TRK, the law's, or UPREV while the PV is not usable. -/
def passTarget (p : LoopPar) (law : Option Int) : LoopM Int := do
  let r := (← get).r
  if r.mode = 1 then q15M (spanRatio r.mout p.outlo p.outhi)
  else if r.mode = 4 then q15M (spanRatio r.trk p.outlo p.outhi)
  else return law.getD r.uprev

/-- A pass in a mode other than OFF; it answers the word for the OUT master. -/
def onPass (p : LoopPar) (x : PassIn) (slot : Nat) : LoopM Nat := do
  let pvf := p.engineer x.word
  let ratio := spanRatio pvf p.pvlo p.pvhi
  let bad := x.qual &&& qualityMask != 0 || !realFinite pvf || realIsNaN ratio
  let pv := q15Free ratio
  modRec fun r => { r with pv := pvf }
  judgePv slot bad
  if (← get).r.mode = 3 then modRec fun r => { r with sp := x.cascade }
  let r := (← get).r
  let sp := q15Free (spanRatio r.sp p.pvlo p.pvhi)
  let ohi ← q15M (spanRatio r.ohi p.outlo p.outhi)
  let olo ← q15M (spanRatio r.olo p.outlo p.outhi)
  modify fun q => { q with sigPv := some pv, sigSp := some sp }
  let mut law : Option Int := none
  let mut chained := false
  if !bad then
    if (← get).anchoring then anchor pv
    let e ← sat16 (if p.reverse then pv - sp else sp - pv)
    modify fun q => { q with sigE := some e }
    let t ← runLaw p x slot pv sp e ohi olo
    law := some t
    let mode := (← get).r.mode
    chained := p.law != 1 && (mode == 2 || mode == 3)
    if p.men then runModel p slot pv
  let t0 ← passTarget p law
  let t1 := if t0 < olo then olo else t0
  let t := if t1 > ohi then ohi else t1
  modRec fun r => (r.mark stLolim (t1 != t0)).mark stHilim (t != t1)
  modify fun q => { q with sigT := some t }
  let u ← outputStage p t
  if chained then sosAfter p.nreg u
  let out := p.outOf u
  modRec fun r => { r with uprev := u, out := out }.mark stNew false
  return p.masterWord out

/-- A whole pass (R180): the word for the OUT master, none in OFF. -/
def loopPass (p : LoopPar) (x : PassIn) (slot : Nat) : LoopM (Option Nat) := do
  let old := (← get).r
  admitMode p slot
  let w ← if (← get).r.mode = 0 then do offPass p x; pure none
    else do
      modify fun q => { q with anchoring := old.has stNew || old.mode == 0 }
      let w ← onPass p x slot
      pure (some w)
  modify fun q => { q with r := q.r.mark stSat q.sat }
  return w

/-- Listed events of a lane: 64 in a cycle, the rest counted (R194). -/
def Lane.listLoop (l : Lane) (evs : List ListedEvent) : Lane :=
  let all := l.loopEvents ++ evs
  { l with loopEvents := all.take 64, loopLost := l.loopLost + (all.length - 64) }

/-- A due slot evaluated in a lane in cycle `cycle`. -/
def Sys.slotPass (s : Sys) (n : Fin 4) (cycle slot : Nat) : Sys :=
  let p := s.loopPar n slot
  let r0 := s.loopRec n slot
  let r1 := (((r0.mark stHilim false).mark stLolim false).mark stIclamp false).mark stSat false
  let line := (List.range 16).map fun i => sint 16 (s.lrd n (p.base + 0x40 + 2 * i) 2)
  let x : PassIn :=
    { word := s.pointValue n p.pvPoint, qual := s.pointQuality n p.pvPoint, master := s.master n p.outPoint,
      cascade := s.lrd n (slotBase p.cslot + 8) 4, coefs := (List.range p.nreg).map fun k => s.loopCoef n p k,
      ranged := (s.lane n).ranged.contains slot }
  let res := loopPass p x slot
    { r := r1, line := line, evs := [], sat := false, transfer := false, anchoring := false,
      sigPv := none, sigSp := none, sigE := none, sigT := none }
  let q := res.2
  let s1 := s.setLoopRec n slot p.law q.r
  let s2 := if q.line = line then s1 else s1.lwr n (p.base + 0x40) 32 (pack (q.line.map fun v => (unsint 16 v, 2)))
  let s3 := match res.1 with
    | some w => s2.setMaster n p.outPoint w
    | none => s2
  let s4 := s3.modLane n fun l => { l with
    loopEvents := l.loopEvents ++ q.evs
    ranged := if q.sigE.isSome then insertAsc slot l.ranged else l.ranged }
  (List.range 16).foldl (Sys.traceSample r0 q p.law cycle slot n) s4

/-! ## The loop pass of a cycle (R171, R173) -/

/-- The configured slots: those with an entry whose LAW is not 0. -/
def Sys.slotsUsed (s : Sys) (n : Fin 4) : List Nat :=
  let dir := srange s.mem (laneBase n + 0x592000) (laneBase n + 0x5A2000)
  let slots := (dir.map fun c => (c.1 - (laneBase n + 0x592000)) / 8).foldl (fun acc k => insertAsc k acc) []
  slots.filter fun k => s.slotUsed n k

/-- The state records written before the first pass of a set (R173). -/
def Sys.initSlot (n : Fin 4) (s : Sys) (slot : Nat) : Sys :=
  let p := s.loopPar n slot
  let m := bits (s.slotEntry n slot) 36 3
  s.setLoopRec n slot p.law
    { sp := p.pvlo, pv := 0, out := 0, mout := p.outlo, trk := p.outlo, ohi := p.outhi, olo := p.outlo, mreq := m, mode := m,
      region := 0, stat := 2 ^ stNew, int := 0, xprev := 0, df := 0, h := List.replicate 10 0, uprev := 0, ym := 0, resf := 0,
      badcnt := 0, dlix := 0, dcnt := 0 }

/-- The records of every slot, the trace channels and the event list at the first cycle of a set. -/
def Sys.initLoops (s : Sys) (n : Fin 4) : Sys :=
  let s1 := Sys.lsync { s with mem := memZero s.mem (laneBase n + 0x380000) 0x80000 } n 0x380000 0x80000
  let s2 := s1.modLane n fun l => { l with
    loopEvents := [], loopLost := 0, ranged := []
    traces := (List.range 16).map fun c => ⟨if (s.traceCfg n c).en then trPrefill else trOff, 0, 0, 0, 0, 0, false, none⟩ }
  (s2.slotsUsed n).foldl (Sys.initSlot n) s2

/-- The slot is due in the cycle. -/
def Sys.slotDue (s : Sys) (n : Fin 4) (cycle slot : Nat) : Bool :=
  let e := s.slotEntry n slot
  cycle % bits e 20 8 == bits e 28 8

/-- The loop pass (R171): the due slots in ascending number; the list then holds at most 64 events (R194). -/
def Sys.loopEngine (s : Sys) (n : Fin 4) (cycle : Nat) : Sys :=
  let s0 := s.modLane n fun l => { l with loopEvents := [], loopLost := 0 }
  let due := (s0.slotsUsed n).filter fun k => s0.slotDue n cycle k
  (due.foldl (fun acc k => acc.slotPass n cycle k) s0).modLane n fun l => l.listLoop []

end Sys2Proof.Machine
end

