-- ==== Sys2Proof/Machine/Sets.lean ====
section
/-!
DEFINITION. The image set that the module loads from (R439 to R441, R454, spec/17_startup_and_image_update.md): where the larder
and the pantry lie, and the parts a manifest names.
-/
namespace Sys2Proof.Machine

/-- The larder and the pantry (R28). -/
abbrev larderBase : Nat := 0xB0000000
abbrev pantryBase : Nat := 0xB4000000

/-- Part types (R439). -/
abbrev partMgtfw : Nat := 1
abbrev partRuntime : Nat := 2
abbrev partStruct : Nat := 3
abbrev partLogic : Nat := 4
abbrev partLoop : Nat := 5
abbrev partMeter : Nat := 6
abbrev partRetmap : Nat := 7

/-- The entry of type `ty` of the manifest at module address `man`: the part's offset and length. -/
def Sys.partEntry (s : Sys) (man ty : Nat) : Option (Nat × Nat) :=
  ((List.range 8).find? fun i => s.rd (man + 0x80 + 64 * i) 2 == ty).map fun i =>
    (s.rd (man + 0x84 + 64 * i) 4, s.rd (man + 0x88 + 64 * i) 4)

/-- The manifest and the base that reloads read: the pantry while UPD_STAT.SRC is 1, else the larder (R454). -/
def Sys.sourceBase (s : Sys) : Nat := if s.on UPD_STAT_SRC then pantryBase else larderBase
def Sys.sourceManifest (s : Sys) : Nat := s.sourceBase + if s.on UPD_STAT_SRC then s.upd.pantryAt else s.upd.larderAt.getD 0

/-- The module address and the length of a part of the set in use; an absent part has length 0. -/
def Sys.sourcePart (s : Sys) (ty : Nat) : Nat × Nat :=
  match s.partEntry s.sourceManifest ty with
  | some p => (s.sourceBase + p.1, p.2)
  | none => (s.sourceBase, 0)

/-- The module address and the length of a part of the set in the pantry. -/
def Sys.pantryPart (s : Sys) (ty : Nat) : Nat × Nat :=
  match s.partEntry (pantryBase + s.upd.pantryAt) ty with
  | some p => (pantryBase + p.1, p.2)
  | none => (pantryBase, 0)

/-- The structure image in use. -/
def Sys.structAt (s : Sys) : Nat := (s.sourcePart partStruct).1

end Sys2Proof.Machine
end

