-- ==== Sys2Proof/Machine/Lanes.lean ====
section
/-!
DEFINITION. The lane manager (spec/03_lanes_and_voting.md): removal, retirement and the shelved lane (R82 to R95), modes
(R96), reintegration (R86 to R92), the state digest (R75), the end of a job (R66) with the handover (R90), and the flush vote
with its save (R80, R234).
-/
namespace Sys2Proof.Machine

/-! ## What the lane manager knows -/

/-- VOT_STAT.AGREE holds the lane. -/
def Sys.agrees (s : Sys) (n : Fin 4) : Bool := s.bit VOT_STAT_AGREE n.val

/-- The lane whose energy the firmware reads for a save (R79): the lowest lane in AGREE that still votes; with none left, the lowest in
AGREE that stands in RESET and so keeps its SRAM (notes/assumptions/125.md). -/
def Sys.energyLane (s : Sys) : Option (Fin 4) :=
  (allLanes.find? fun n => s.votes n && s.agrees n) <|> allLanes.find? fun n => s.laneState n == laneReset && s.agrees n

/-- The lowest-numbered VOTING lane in AGREE. -/
def Sys.agreeLane (s : Sys) : Option (Fin 4) := allLanes.find? fun n => s.votes n && s.agrees n

/-- The donor (R87). DESIGN CHOICE: while AGREE is empty, be it before a first vote or after one whose energy had no majority, or
names no VOTING lane, the lowest VOTING lane serves (notes/assumptions/24.md). -/
def Sys.donorOf (s : Sys) : Option (Fin 4) := s.agreeLane <|> s.voters.head?

/-- A lane is reintegrating: from RELOAD until it votes (R86, R87). -/
def Sys.reintegrating (s : Sys) : Bool :=
  allLanes.any fun n => s.laneState n == laneReload || s.laneState n == lanePrecopy || s.laneState n == laneFinal || s.laneState n == laneShadow

/-- A lane given a state. -/
def Sys.setLaneState (s : Sys) (n : Fin 4) (st : Nat) : Sys := s.put (VOT_LSTAT_STATE n.val) st

/-- The mark of a set of lanes. -/
def laneMask (ns : List (Fin 4)) : Nat := (ns.map fun n => 2 ^ n.val).foldl (· + ·) 0

/-- An event that carries a lane (R101). -/
def Sys.laneNote (s : Sys) (code : Nat) (n : Fin 4) : Sys := s.post code 0 [(n.val, 1)]

/-! ## Modes (R96) -/

/-- VOT_STAT.MODE for a number of VOTING lanes. -/
def modeOf (k : Nat) : Nat := if 3 ≤ k then 0 else if k = 2 then 1 else if k = 1 then 2 else 3

/-- VMASK and MODE follow the lanes in VOTING, with the event of a mode entered. A return to normal is reported when duplex,
control refused or no lane came before it. -/
def Sys.updateMode (s : Sys) : Sys :=
  let m := modeOf s.voters.length
  let s1 := (s.put VOT_STAT_VMASK (laneMask s.voters)).put VOT_STAT_MODE m
  if m = s.get VOT_STAT_MODE then s1
  else
    let owed := { s1 with vot := { s1.vot with owed := m != 0 } }
    if m = 1 then owed.note 0x1207 else if m = 2 then owed.note 0x1208
    else if m = 0 && s.vot.owed then owed.note 0x1209 else owed

/-- R85: a control-plane restart requested, once. -/
def Sys.requestRestart (s : Sys) : Sys :=
  if s.vot.restart then s else { s.note 0x1210 with vot := { s.vot with restart := true } }

/-! ## The copy of a reintegration (R86 to R89) -/

/-- A lane's SRAM scrubbed to zero. -/
def Sys.scrubLane (s : Sys) (n : Fin 4) : Sys := { s with mem := memZero s.mem (laneBase n) 0x800000 }

/-- The whole state region of one lane copied to another. -/
def Sys.copyState (s : Sys) (dst src : Fin 4) : Sys :=
  { s with mem := stateParts.foldl (fun m r => memCopy m (laneBase dst + r.1) (laneBase src + r.1) r.2) s.mem }

/-- Granules copied from one lane to another. -/
def Sys.copyGranules (s : Sys) (dst src : Fin 4) (gs : List Nat) : Sys :=
  { s with mem := gs.foldl (fun m g => memCopy m (laneBase dst + 32 * g) (laneBase src + 32 * g) 32) s.mem }

/-- Round 1 of PRECOPY starts for a lane, with a donor. -/
def Sys.startCopy (s : Sys) (n d : Fin 4) : Sys :=
  let s1 := ((s.setLaneState n lanePrecopy).put (VOT_LSTAT_ROUND n.val) 1).put (VOT_LSTAT_DONOR d.val) 1
  { s1 with vot := { s1.vot with reint := some { target := n, donor := d, round := 1, dirty := [], captured := [], mirror := false, finalDone := false, hidden := false } } }

/-- The shelved lane's clock gate opened and its reintegration started at round 1 of PRECOPY (R95, R101). -/
def Sys.bringIn (s : Sys) (n d : Fin 4) : Sys := ((s.putBit CLK_GATE_LANE n.val true).startCopy n d).post 0x1202 0 [(n.val, 1), (d.val, 1)]

/-- A row of the lane is being repaired (R363). -/
def Sys.rowPending (s : Sys) (n : Fin 4) : Bool := s.mi.rowCopies.any fun r => r.target / 8192 == n.val

/-- A lane that waits for its turn starts, when none reintegrates: a shelved lane first, then removed lanes in ascending number
(R87, R95). A removed lane needs the larder (R39). -/
def Sys.startNext (s : Sys) : Sys :=
  if s.reintegrating then s
  else match s.vot.shelfQueue, s.donorOf with
    | n :: rest, some d => { s with vot := { s.vot with shelfQueue := rest } }.bringIn n d
    | _, _ => match allLanes.find? fun n => s.vot.waiting.contains n && !s.vot.resetting.contains n && !s.rowPending n with
      | some n =>
        if s.dramUp then
          { s with vot := { s.vot with waiting := s.vot.waiting.filter fun m => m != n } }.setLaneState n laneReload
        else s
      | none => s

/-- The copy in progress ends: no lane is marked as donor. -/
def Sys.endCopy (s : Sys) : Sys :=
  let s1 := match s.vot.reint with
    | some r => s.put (VOT_LSTAT_DONOR r.donor.val) 0
    | none => s
  { s1 with vot := { s1.vot with reint := none } }

/-- The copy into a lane given up. -/
def Sys.dropTarget (s : Sys) (n : Fin 4) : Sys := if s.vot.reint.any fun r => r.target == n then s.endCopy else s

/-! ## Removal and retirement (R82 to R85, R93 to R95) -/

/-- Causes that count toward retirement (R82). -/
def causeCounts (cause : Nat) : Bool := cause != 6

/-- The window count of a lane (R93). -/
def Sys.windowCount (s : Sys) (n : Fin 4) : Nat :=
  (s.loft.removedAt.filter fun r => r.1 == n.val && s.rtc.sec < r.2 + s.get VOT_RWIN_HOURS * 3600).length

/-- A counted removal recorded: a lane keeps its most recent 15. WINCNT is counted when it is read. -/
def Sys.recordRemoval (s : Sys) (n : Fin 4) : Sys :=
  let mine := (s.loft.removedAt.filter fun r => r.1 == n.val).take 14
  let rest := s.loft.removedAt.filter fun r => r.1 != n.val
  { s with loft := { s.loft with removedAt := (n.val, s.rtc.sec) :: mine ++ rest } }

/-- The shelved lane is brought in, or joins the queue ahead of the removed lanes (R95). DESIGN CHOICE: 0x1206 is posted as it joins the
queue, also where another reintegration still holds it there (notes/assumptions/122.md). -/
def Sys.takeShelf (s : Sys) : Sys :=
  match allLanes.find? fun n => s.laneState n == laneShelved && !s.vot.shelfQueue.contains n with
  | some n => ({ s with vot := { s.vot with shelfQueue := s.vot.shelfQueue ++ [n] } }.laneNote 0x1206 n).startNext
  | none => s

/-- A lane in RETIRED, its clock and supply gated. It waits for nothing any more. -/
def Sys.gateRetired (s : Sys) (n : Fin 4) : Sys :=
  let s1 := ((s.setLaneState n laneRetired).putBit CLK_GATE_LANE n.val false).putBit PWR_DOM_UP (2 + n.val) false
  let others := fun (l : List (Fin 4)) => l.filter fun m => m != n
  { s1 with vot := { s1.vot with waiting := others s1.vot.waiting, resetting := others s1.vot.resetting, shelfQueue := others s1.vot.shelfQueue } }

/-- R94: the lane enters RETIRED, its fuse is to be burned, and the shelved lane takes its place. DESIGN CHOICE: it is RETIRED from the
removal on, and 0x1205 follows with the burn (notes/assumptions/126.md). -/
def Sys.retire (s : Sys) (n : Fin 4) : Sys :=
  let s1 := s.gateRetired n
  Sys.takeShelf { s1 with vot := { s1.vot with burns := s1.vot.burns ++ [n] } }

/-- The donor of the copy in progress has gone: the target starts again at round 1 with a new donor (R87). -/
def Sys.loseDonor (s : Sys) : Sys :=
  match s.vot.reint with
  | none => s
  | some r =>
    match s.donorOf with
    | some d => (s.endCopy.startCopy r.target d).laneNote 0x1204 r.target
    | none => s

/-- A lane's record as a reset leaves it: no jobs, nothing run, no flush job outstanding. -/
def Lane.stopped (l : Lane) : Lane := { l with jobs := [], computed := false, done := false, flushed := true, posts := [] }

/-- A lane leaves the states in which it runs: no seam traffic, no job, not counted, and no donor any more (R83, R87). -/
def Sys.leaveRun (s : Sys) (n : Fin 4) : Sys :=
  let s1 := (s.setLaneState n laneReset).modLane n Lane.stopped
  let s2 := Sys.updateMode { s1 with vot := { s1.vot with ready := s1.vot.ready.filter fun m => m != n } }
  if s2.vot.reint.any fun r => r.donor == n then s2.loseDonor else s2

/-- R85: with no lane left in VOTING a restart is requested. -/
def Sys.noneLeft (s : Sys) : Sys := if s.voters.isEmpty then s.requestRestart else s

/-! ## The flush vote and the flush save (R80, R234) -/

/-- The energy words of a lane at lane-local `base`. -/
def Sys.energyWords (s : Sys) (n : Fin 4) (base : Nat) : List Nat :=
  memBytes s.mem (laneBase n + base) (s.laneMeter n).energyEnd

/-- The lanes among `ns` that hold the value most of them hold: of three, what at least two hold; of two, both or neither. -/
def majority {α : Type} [DecidableEq α] (ns : List (Fin 4)) (f : Fin 4 → α) : List (Fin 4) :=
  ns.filter fun n => ns.length < 2 * (ns.filter fun m => f m == f n).length

/-- R235: a front end that a warning froze samples again; its first block carries GAP. -/
def Sys.resumeMetering (s : Sys) : Sys :=
  if s.get MET_STAT_FE = feFrozen then
    { (s.put MET_CTL_RUN 1).put MET_STAT_FE feRun with fe := { s.fe with gap := true, gapCode := 0x110F } }
  else s

/-- R234: the marker "begun"; the flush area of a lane in AGREE saved with kind 2; and the event ring on its way to the log,
after which the marker reads "complete". With no lane in AGREE only "begun" is recorded. -/
def Sys.flushSave (s : Sys) : Sys :=
  let s1 := { s with loft := { s.loft with flushMarker := 1 } }
  match s1.energyLane with
  | some n => { (s1.saveEnergy n 0x470000 2).put EVR_STAT_FLUSHING 1 with fe := { s1.fe with flushing := true } }
  | none =>
    let s2 := { s1 with fe := { s1.fe with flushing := false } }
    if s2.on PWR_VMON_PFW then s2 else s2.resumeMetering

/-- R80: the energy regions of the flush areas compared; AGREE is set and no lane is removed. -/
def Sys.flushVote (s : Sys) : Sys :=
  let counted := s.voters
  let ok := if counted.length = 1 then counted else majority counted fun n => s.energyWords n 0x470000
  Sys.flushSave { s.put VOT_STAT_AGREE (laneMask ok) with vot := { s.vot with flushDue := false } }

/-- The flush vote follows once no lane has a flush job outstanding. -/
def Sys.flushCheck (s : Sys) : Sys := if s.vot.flushDue && s.lanes.all fun l => l.flushed then s.flushVote else s

/-- A lane removed with a cause (R82 to R85). Other than a VOTING or SHADOW lane, nothing is removed. AGREE stays as the last vote left
it (R79). -/
def Sys.removeLane (s : Sys) (n : Fin 4) (cause : Nat) : Sys :=
  if !s.runs n then s
  else
    let s1 := (s.post 0x1201 0 [(n.val, 1), (cause, 1)]).incSat (VOT_LREM_COUNT n.val)
    let s2 := (s1.put (VOT_LSTAT_CAUSE n.val) cause).leaveRun n
    let s3 := { s2 with vot := { s2.vot with resetting := n :: s2.vot.resetting.filter fun m => m != n } }
    let s4 := if causeCounts cause then s3.recordRemoval n else s3
    let s5 := if causeCounts cause && s4.get VOT_CTL_RETN ≤ s4.windowCount n then s4.retire n else s4.startNext
    s5.noneLeft.flushCheck

/-! ## Reset, reload and rounds -/

/-- A lane in RESET waits for its turn (R87), which comes when its reset has ended; a restart reloads every lane anyway. -/
def Sys.queueLane (s : Sys) (n : Fin 4) : Sys :=
  if s.dramUp && !s.vot.restart then
    Sys.startNext { s with vot := { s.vot with waiting := if s.vot.waiting.contains n then s.vot.waiting else s.vot.waiting ++ [n] } }
  else s

/-- R84, R87: the 50 µs of a removed lane's reset end. It waits for its turn, unless AUTO is 0 and no command has asked for it, or the
DRAM has failed. -/
def Sys.laneResetEnd (s : Sys) (n : Fin 4) : Sys :=
  if s.laneState n = laneReset && s.vot.resetting.contains n && s.domUp (2 + n.val) then
    let s1 := { s with vot := { s.vot with resetting := s.vot.resetting.filter fun m => m != n } }
    if s1.on VOT_CTL_AUTO then s1.queueLane n else s1.startNext
  else s

def execLaneResetEnd (lane : Fin 4) (s : State) : Host.Outcome State Fault Refusal := run (fun y => y.laneResetEnd lane) s

/-- The runtime and the logic image of the set in use loaded into a lane. -/
def Sys.loadFromLarder (s : Sys) (n : Fin 4) : Sys :=
  let rt := s.sourcePart partRuntime
  let lg := s.sourcePart partLogic
  let m1 := memCopy s.mem (laneBase n) rt.1 (Nat.min rt.2 0x80000)
  { s with mem := memCopy m1 (laneBase n + logicBase) lg.1 (Nat.min lg.2 0x100000) }

/-- R86 to R88: the load is complete; round 1 starts from the donor and 0x1202 is posted. With no VOTING lane R85 applies. Where the DRAM
has failed meanwhile there is nothing to load, and the lane is back in RESET (R39, R84). -/
def Sys.reloadComplete (s : Sys) (n : Fin 4) : Sys :=
  if s.laneState n = laneReload then
    if !s.dramUp then (s.setLaneState n laneReset).startNext
    else
    let s1 := (s.scrubLane n).loadFromLarder n
    match s1.donorOf with
    | some d => (s1.startCopy n d).post 0x1202 0 [(n.val, 1), (d.val, 1)]
    | none => s1.requestRestart
  else s

def execReloadComplete (lane : Fin 4) (s : State) : Host.Outcome State Fault Refusal := run (fun y => y.reloadComplete lane) s

/-- The typed parts of a lane's state region: what the runtime keeps, the loop engine's and the datapath's. -/
def Lane.takeState (l donor : Lane) : Lane :=
  { l with rt := donor.rt, loopEvents := donor.loopEvents, loopLost := donor.loopLost, ranged := donor.ranged, traces := donor.traces,
           dp := donor.dp, engine := donor.engine, meterPending := donor.meterPending, meterArmed := donor.meterArmed }

/-- What a round that the donor's hidden parts were written in adds to the count: open (notes/assumptions/12.md). -/
def Sys.hiddenDirty (s : Sys) (r : Reintegration) : Nat × Sys :=
  if r.hidden then (s.draw.1 % 14337, s.draw.2) else (0, s)

/-- R88, R89: a pre-copy round ends. The granules it was to copy are copied; VOT_LDIRTY shows the bits set during it; the
final round or another round starts. DESIGN CHOICE: ROUND and VOT_LDIRTY that show the round are the target's
(notes/assumptions/124.md). -/
def Sys.copyRoundEnd (s : Sys) (n : Fin 4) : Sys :=
  match s.vot.reint with
  | none => s
  | some r =>
    if r.target != n || s.laneState n != lanePrecopy then s
    else
      let s1 := if r.round = 1 then s.copyState n r.donor else s.copyGranules n r.donor r.captured
      let h := s1.hiddenDirty r
      let k := Nat.min (r.dirty.length + h.1) 174080
      let s2 := h.2.put (VOT_LDIRTY_COUNT n.val) k
      if k ≤ s2.get VOT_RCFG_FINMAX || r.round = s2.get VOT_RCFG_ROUNDS then
        { s2 with vot := { s2.vot with reint := some { r with captured := r.dirty, dirty := [], mirror := true, hidden := false } } }.setLaneState n laneFinal
      else
        { s2 with vot := { s2.vot with reint := some { r with round := r.round + 1, captured := r.dirty, dirty := [], hidden := false } } }.put
          (VOT_LSTAT_ROUND n.val) (r.round + 1)

def execCopyRoundEnd (lane : Fin 4) (s : State) : Host.Outcome State Fault Refusal := run (fun y => y.copyRoundEnd lane) s

/-- The final round completes: its granules are copied, and the mirror goes on until H. -/
def Sys.finalRoundEnd (s : Sys) (n : Fin 4) : Sys :=
  match s.vot.reint with
  | none => s
  | some r =>
    if r.target != n || s.laneState n != laneFinal then s
    else
      let s1 := s.copyGranules n r.donor r.captured
      { s1 with vot := { s1.vot with reint := some { r with captured := [], finalDone := true } } }

def execFinalRoundEnd (lane : Fin 4) (s : State) : Host.Outcome State Fault Refusal := run (fun y => y.finalRoundEnd lane) s

/-- VOT_LCMD with OP 0b01: a VOTING or SHADOW lane removed with cause 6, or 0x120E. -/
def Sys.laneRemoveCmd (s : Sys) (n : Fin 4) : Sys := if s.runs n then s.removeLane n 6 else s.note 0x120E

def execLaneRemoveCmd (lane : Fin 4) (s : State) : Host.Outcome State Fault Refusal := run (fun y => y.laneRemoveCmd lane) s

/-- VOT_LCMD with OP 0b10: reintegration of a lane in RESET, or 0x120E. -/
def Sys.laneRejoinCmd (s : Sys) (n : Fin 4) : Sys :=
  if s.laneState n = laneReset then s.queueLane n else s.note 0x120E

def execLaneRejoinCmd (lane : Fin 4) (s : State) : Host.Outcome State Fault Refusal := run (fun y => y.laneRejoinCmd lane) s

/-! ## The state digest (R75) -/

/-- One bit of the CRC-64. -/
def crc64Bit (c : BitVec 64) : BitVec 64 := if c.getLsbD 63 then (c <<< 1) ^^^ 0x42F0E1EBA9EA3693#64 else c <<< 1

/-- One byte of the CRC-64. -/
def crc64Byte (c : BitVec 64) (b : Nat) : BitVec 64 :=
  crc64Bit (crc64Bit (crc64Bit (crc64Bit (crc64Bit (crc64Bit (crc64Bit (crc64Bit (c ^^^ BitVec.ofNat 64 (b % 256 * 2 ^ 56)))))))))

/-- Where the in-use bytes of the variable image lie: offset and length of the two parts (R104). -/
def Sys.inUse (s : Sys) (n : Fin 4) : List (Nat × Nat) :=
  [(masterBase, (s.logic n 0x0C * 4 + 31) / 32 * 32), (varBase, s.vlen n)]

/-- The bytes the digest covers, in order: the in-use bytes of the variable image, then the state records of the slots the set
configures. -/
def Sys.digestBytes (s : Sys) (n : Fin 4) : List Nat :=
  let b := laneBase n
  ((s.inUse n).map fun r => memBytes s.mem (b + r.1) r.2).flatten
    ++ ((s.slotsUsed n).map fun k => memBytes s.mem (b + slotBase k) 64).flatten

/-- The state digest of a lane. -/
def Sys.digest (s : Sys) (n : Fin 4) : Nat := ((s.digestBytes n).foldl crc64Byte 0#64).toNat

/-- The digest shown in VOT_LDIGL and VOT_LDIGH. -/
def Sys.showDigest (s : Sys) (n : Fin 4) : Sys :=
  let d := s.digest n
  (s.setWord (VOT_LDIGL n.val) d).setWord (VOT_LDIGH n.val) (d / 2 ^ 32)

/-- A lane's last digest. -/
def Sys.lastDigest (s : Sys) (n : Fin 4) : Nat := s.word (VOT_LDIGL n.val) + 2 ^ 32 * s.word (VOT_LDIGH n.val)

/-! ## The end of a job (R66, R71, R90) -/

/-- The registers of the lane-local port (R66) for a lane's queue; with an empty queue each is at its reset value
(notes/assumptions/127.md). LLP_JOB. -/
def Lane.llpJob (l : Lane) : Nat := match l.jobs with | [] => 0 | j :: _ => 2 ^ 28 * j.kind + j.seq

/-- LLP_JCYL and LLP_JCYH. -/
def Lane.llpJcyl (l : Lane) : Nat := match l.jobs with | [] => 0 | j :: _ => j.cycle % 2 ^ 32
def Lane.llpJcyh (l : Lane) : Nat := match l.jobs with | [] => 0 | j :: _ => j.cycle / 2 ^ 32 % 2 ^ 32

/-- LLP_JBLK. -/
def Lane.llpJblk (l : Lane) : Nat := match l.jobs with | [] => 0 | j :: _ => if j.kind = 2 then j.block else 0

/-- R90: the target starts with what the donor's state region holds, from the cycle after the donor's. -/
def Sys.handover (s : Sys) (r : Reintegration) : Sys :=
  let d := s.lane r.donor
  let s1 := s.modLane r.target fun l => { (l.takeState d).stopped with
    fromCycle := (d.doneCycle.map fun c => c + 1).getD 0, jobSeq := d.jobSeq, doneCycle := d.doneCycle, doneAt := d.doneAt }
  (s1.setLaneState r.target laneShadow).endCopy

/-- After the donor's LLP_DONE of its current cycle and before the next PHG (R90). -/
def Sys.inSpan (s : Sys) (l : Lane) : Bool :=
  match l.doneCycle with
  | none => false
  | some c => (c == s.ang.cycle && s.ang.time < s.ang.start + s.cycleLen + s.ang.phg) || (c + 1 == s.ang.cycle && s.ang.time < s.ang.start + s.ang.phg)

/-- The end of a donor's block job is the handover instant when the final round has completed and the span of R90 is open. -/
def Sys.blockDone (s : Sys) (n : Fin 4) : Sys :=
  match s.vot.reint with
  | none => s
  | some r => if r.donor = n && r.finalDone && s.inSpan (s.lane n) then s.handover r else s

/-- LLP_DONE ends the job at the head of the lane's queue, once the lane has done its work. -/
def Sys.llpDone (s : Sys) (n : Fin 4) : Sys :=
  match (s.lane n).jobs with
  | [] => s
  | j :: rest =>
    if !s.runs n || !j.ran then s
    else
      let s1 := s.modLane n fun l => { l with jobs := rest }
      if j.kind = 1 then (s1.modLane n fun l => { l with done := true, doneCycle := some j.cycle, doneAt := s.ang.time }).showDigest n
      else if j.kind = 2 then s1.blockDone n
      else Sys.flushCheck (s1.modLane n fun l => { l with flushed := true })

def execLlpDone (lane : Fin 4) (s : State) : Host.Outcome State Fault Refusal := run (fun y => y.llpDone lane) s

end Sys2Proof.Machine
end

