-- ==== Sys2Proof/Machine/Struct.lean ====
section
/-!
DEFINITION. The structure image as its readers see it (R237 to R244, R252, spec/08_structure_image_and_fabric.md): its header,
its section directory and its records, read from a copy of the image that begins at byte 0 of a list of cells.
-/
namespace Sys2Proof.Machine

/-- A section of the structure image: its offset, its entries and their size. -/
structure Section where
  off : Nat
  count : Nat
  esize : Nat
deriving DecidableEq, Repr

/-- The section of type `ty`; an absent section has no entries. -/
def sectionOf (m : List Host.Cell) (ty : Nat) : Section :=
  match (List.range (memRead m 8 4)).find? fun i => memRead m (0x40 + 16 * i) 4 == ty with
  | some i => ⟨memRead m (0x44 + 16 * i) 4, memRead m (0x48 + 16 * i) 4, memRead m (0x4C + 16 * i) 4⟩
  | none => ⟨0, 0, 0⟩

/-- The image has a section of type `ty`. -/
def hasSection (m : List Host.Cell) (ty : Nat) : Bool := (List.range (memRead m 8 4)).any fun i => memRead m (0x40 + 16 * i) 4 == ty

/-- Byte 0 of entry `i` of a section. -/
def Section.entry (x : Section) (i : Nat) : Nat := x.off + x.esize * i

/-- Header fields. -/
def structSample (m : List Host.Cell) : Nat := bits (memRead m 0x10 4) 0 22
def structApply (m : List Host.Cell) : Nat := bits (memRead m 0x14 4) 0 22

/-- A channel record (R240). -/
structure ChanRec where
  uc : Nat
  func : Nat
  inv : Bool
  auxen : Bool
  appdef : Bool
  point : Nat
  auxpt : Nat
  deb : Nat
  chmax : Nat
  chwin : Nat
  tout : Nat
  p1 : Nat
  p2 : Nat
  apply : Nat
deriving DecidableEq, Repr

/-- A channel record at address `a`. -/
def chanRecAt (m : List Host.Cell) (a : Nat) : ChanRec :=
  let w := fun k => memRead m (a + 4 * k) 4
  ⟨bits (w 0) 0 8, bits (w 0) 8 4, (w 0).testBit 12, (w 0).testBit 13, (w 0).testBit 14, bits (w 1) 0 17, bits (w 2) 0 17, bits (w 3) 0 16,
   bits (w 3) 16 16, bits (w 4) 0 8, bits (w 4) 8 24, w 5, w 6, bits (w 7) 0 22⟩

/-- Channel record `k`; without an image every channel is unused. -/
def chanRec (m : List Host.Cell) (k : Nat) : ChanRec :=
  let x := sectionOf m 0x02
  if k < x.count then chanRecAt m (x.entry k) else chanRecAt [] 0

/-- A DALI line record (R252). -/
structure LineRec where
  tx : Nat
  rx : Nat
  txinv : Bool
  rxinv : Bool
  line : Nat
  cmdpt : Nat
  rsppt : Nat
deriving DecidableEq, Repr

def lineRecAt (m : List Host.Cell) (a : Nat) : LineRec :=
  let w := fun k => memRead m (a + 4 * k) 4
  ⟨bits (w 0) 0 8, bits (w 0) 8 8, (w 0).testBit 16, (w 0).testBit 17, bits (w 0) 18 4, bits (w 1) 0 17, bits (w 2) 0 17⟩

/-- The configured DALI lines. -/
def lineRecs (m : List Host.Cell) : List LineRec :=
  let x := sectionOf m 0x03
  (List.range x.count).map fun i => lineRecAt m (x.entry i)

/-- The record of a DALI line. -/
def lineRec (m : List Host.Cell) (line : Nat) : Option LineRec := (lineRecs m).find? fun r => r.line == line

/-- A point range record (R241): first point, count, locker, mirror mark and scan class. -/
structure PointRange where
  first : Nat
  count : Nat
  locker : Nat
  mirror : Bool
  scan : Nat
deriving DecidableEq, Repr

def pointRangeAt (m : List Host.Cell) (a : Nat) : PointRange :=
  let w := fun k => memRead m (a + 4 * k) 4
  ⟨bits (w 0) 0 17, bits (w 1) 0 18, bits (w 2) 0 10, (w 2).testBit 12, bits (w 2) 16 4⟩

/-- The point ranges in the image's order. -/
def pointRanges (m : List Host.Cell) : List PointRange :=
  let x := sectionOf m 0x04
  (List.range x.count).map fun i => pointRangeAt m (x.entry i)

/-- The range that covers a point; a point that none covers is in locker 0, not mirrored and in scan class 0. -/
def pointRange (m : List Host.Cell) (p : Nat) : PointRange :=
  ((pointRanges m).find? fun r => r.first ≤ p && p < r.first + r.count).getD ⟨p, 1, 0, false, 0⟩

/-- INTERVAL and PHASE of a scan class (R242); a class without a record is due in every cycle. -/
def scanClass (m : List Host.Cell) (c : Nat) : Nat × Nat :=
  let x := sectionOf m 0x05
  match (List.range x.count).find? fun i => memRead m (x.entry i) 4 % 16 == c with
  | some i => (bits (memRead m (x.entry i) 4) 8 8, bits (memRead m (x.entry i) 4) 16 8)
  | none => (1, 0)

/-- A class is due in cycle `n`. -/
def scanDue (m : List Host.Cell) (c n : Nat) : Bool := let x := scanClass m c; n % Nat.max x.1 1 == x.2

/-- A locker is configured; its WRITE bit (R242). Locker 0 always is. -/
def lockerRec (m : List Host.Cell) (l : Nat) : Option Bool :=
  let x := sectionOf m 0x06
  match (List.range x.count).find? fun i => memRead m (x.entry i) 4 % 1024 == l with
  | some i => some ((memRead m (x.entry i) 4).testBit 16)
  | none => if l = 0 then some false else none

/-- ROLE, ARATE and DRATE of CAN segment `k`. -/
def canSegment (m : List Host.Cell) (k : Nat) : Nat × Nat × Nat :=
  let x := sectionOf m 0x07
  if k < x.count then (memRead m (x.entry k) 4 % 4, memRead m (x.entry k + 4) 4, memRead m (x.entry k + 8) 4) else (0, 0, 0)

/-- VIO of a bank record (R239). -/
def bankVio (m : List Host.Cell) (b : Nat) : Nat :=
  let x := sectionOf m 0x01
  if b < x.count then memRead m (x.entry b) 4 % 4 else 0

/-- BANKW and OUTW of the seam size record (R243). -/
def bankWords (m : List Host.Cell) : Nat := memRead m (sectionOf m 0x09).off 4
def outWords (m : List Host.Cell) : Nat := memRead m ((sectionOf m 0x09).off + 4) 4

/-- The mask that the test records OR into a source's quality (R244). -/
def testMask (m : List Host.Cell) (src : Nat) : Nat :=
  let x := sectionOf m 0x0A
  ((List.range x.count).map fun i => memRead m (x.entry i) 4).foldl (fun acc w => if w % 65536 = src then acc ||| (w / 65536) else acc) 0

/-- A part of memory as an image that begins at byte 0. -/
def imageOf (m : List Host.Cell) (a len : Nat) : List Host.Cell := (srange m a (a + len)).map fun c => (c.1 - a, c.2)

/-- The structure image of the set in use, as the module holds it. -/
def Sys.image (s : Sys) : List Host.Cell := s.fab.image

/-- The locker of a point. -/
def Sys.pointLocker (s : Sys) (p : Nat) : Nat := (pointRange s.image p).locker

/-- The point mirror under a structure image (R24): a point that the image does not mark keeps all fields 0, except LOCKER. -/
def Sys.mirrorUnmarked (s : Sys) : Sys :=
  let rs := pointRanges s.image
  let keep := fun (c : Host.Cell) => c.1 < 0x80000000 || 0x80400000 ≤ c.1
    || rs.any fun r => r.mirror && r.first ≤ (c.1 - 0x80000000) / 32 && (c.1 - 0x80000000) / 32 < r.first + r.count
  (rs.filter fun r => !r.mirror && r.locker != 0).foldl (fun y r =>
    (List.range r.count).foldl (fun y i => y.wr (0x80000006 + 32 * (r.first + i)) 2 r.locker) y) { s with mem := s.mem.filter keep }

end Sys2Proof.Machine
end

