-- ==== Sys2Proof/Machine/Front.lean ====
section
/-!
DEFINITION. The metering front end and what the firmware does with metering, loops and the program between cycles
(spec/07_metering.md R196 to R205, R225 to R235; spec/06_loop_engine.md R193, R194; spec/04_cycle_engine.md R118, R123, R129).
-/
namespace Sys2Proof.Machine

/-! ## A sample block (R196 to R203) -/

/-- A code of 24 bits trimmed by T in units of 2^-20 (R203). -/
def trimCode (code : Int) (t : Int) : Int :=
  let v := roundAway (code * (2 ^ 20 + t)) (2 ^ 20)
  if v < -(2 ^ 23) then -(2 ^ 23) else if v > 2 ^ 23 - 1 then 2 ^ 23 - 1 else v

/-- The code is at or beyond the overload level (R196). -/
def overloaded (code : Int) : Bool := 7864320 ≤ code.natAbs

/-- MET_TRIMk.T. -/
def Sys.trim (s : Sys) (k : Nat) : Int := sint 17 (s.get (MET_TRIM_T k))

/-- MODEm of MET_ARM0 and MET_ARM1. -/
def Sys.armMode (s : Sys) (m : Nat) : Nat := bits (s.word MET_ARM0 + 2 ^ 32 * s.word MET_ARM1) (2 * m) 2

/-- A current channel's autorange while a block is sampled (R201): mode in effect, range, whether the PGA stands at ×64, the
count of qualifying windows, the window's largest low-path |CODE|, and the samples to come with HV = 0. -/
structure Ranger where
  mode : Nat
  range : Nat
  pga : Bool
  hold : Nat
  peak : Nat
  settle : Nat
deriving DecidableEq, Repr

/-- A channel's autorange from its registers. -/
def Sys.ranger (s : Sys) (m : Nat) : Ranger :=
  ⟨nth 0 s.fe.modes m, s.get (MET_IRNG_RANGE m), s.on (MET_IRNG_PGA m), s.get (MET_IRNG_HOLDCNT m), nth 0 s.fe.peaks m, nth 0 s.fe.settle m⟩

/-- The PGA set, with 4 samples to settle when it changes. -/
def Ranger.setPga (r : Ranger) (high : Bool) : Ranger := if r.pga = high then r else { r with pga := high, settle := 4 }

/-- A window boundary in automatic mode (R201). -/
def Ranger.window (hold : Nat) (r : Ranger) : Ranger :=
  let limit := if r.range = 0 then 524288 else 65536
  if r.range = 2 then { r with hold := 0 }
  else
    let k := if r.peak < limit then Nat.min (r.hold + 1) 255 else 0
    if hold ≤ k then (if r.range = 0 then { r.setPga false with range := 1, hold := 0 } else { r.setPga true with range := 2, hold := 0 })
    else { r with hold := k }

/-- A window boundary: the window just ended is judged, and then the mode written in MET_ARM takes effect. A fixed ×8 or ×64
sets the PGA there. -/
def Ranger.boundary (hold newMode : Nat) (r : Ranger) : Ranger :=
  let r1 := if r.mode = 0 then r.window hold else r
  let r2 := { r1 with mode := newMode, peak := 0 }
  if newMode = r.mode || newMode = 0 then r2
  else if newMode = 1 then { r2 with range := 0, hold := 0 }
  else { r2.setPga (newMode == 3) with range := newMode - 1, hold := 0 }

/-- One sample of a current channel: the low code's peak, an overload of the high path, and the words of both paths. -/
def Ranger.sample (r : Ranger) (low high : Int) : Ranger × Nat × Nat :=
  let ovlHigh := overloaded high
  let drop := r.mode == 0 && r.range != 0 && ovlHigh
  let r1 := if drop then { r with range := 0, hold := 0 } else r
  let r2 := { r1 with peak := Nat.max r1.peak low.natAbs, settle := r1.settle - 1 }
  let sel := if r1.mode = 0 then r1.range != 0 && r.settle == 0 else r1.mode != 1
  let lowWord := unsint 24 low + (if overloaded low then 2 ^ 24 else 0)
  let highWord := unsint 24 high + (if ovlHigh then 2 ^ 24 else 0) + (if r.pga then 2 ^ 25 else 0)
    + (if !ovlHigh && r.settle == 0 then 2 ^ 26 else 0) + (if sel then 2 ^ 27 else 0)
  (r2, lowWord, highWord)

/-- A block as it is formed: the words so far, newest group last, the autoranges, the window of the last sample, the channels
marked RANGE, and how far the windows have come (R225). -/
structure BlockPass where
  words : List (List Nat)
  rangers : List Ranger
  window : Option Nat
  marks : List Bool
  lag : List Nat
  winState : Nat
  outWindow : Nat
deriving DecidableEq, Repr

/-- The output that a sample at `angle` completes, as the window marks follow it: 1 the first window after a restart is
passed over, 2 a window is open, 3 one has closed. -/
def BlockPass.follow (b : BlockPass) (angle : Nat) : BlockPass :=
  let lag := (angle :: b.lag).take 9
  match lag[8]? with
  | none => { b with lag := lag }
  | some a =>
    let h := a / 32768
    let b1 := { b with lag := lag, outWindow := h }
    if b.winState = 0 then { b1 with winState := 1 }
    else if b.winState < 3 && b.outWindow < h then { b1 with winState := b.winState + 1 } else b1

/-- Sample `k` of a block with raw codes `codes`: V0 to V5, then a low and a high code for each current. -/
def Sys.blockSample (s : Sys) (t0 da : Nat) (b : BlockPass) (k : Nat) (codes : List Nat) : BlockPass :=
  let angle := t0 + k * da / 2 ^ 16
  let w := angle / 32768
  let rs := if b.window.getD w = w then b.rangers else mapIx (fun m r => r.boundary (s.get MET_ARUP_HOLD) (s.armMode m)) 0 b.rangers
  let raw := fun i => sint 24 (nth 0 codes i)
  let volts := (List.range 6).map fun i => trimCode (raw i) (s.trim i)
  let cur := mapIx (fun m (r : Ranger) =>
    r.sample (trimCode (raw (6 + 2 * m)) (s.trim (6 + 3 * m))) (trimCode (raw (7 + 2 * m)) (s.trim (6 + 3 * m + if r.pga then 2 else 1)))) 0 rs
  let vwords := volts.map fun v => unsint 24 v + (if overloaded v then 2 ^ 24 else 0)
  let marks := vwords.map (fun w => w.testBit 24) ++ cur.map fun c => c.2.1.testBit 24
  { (b.follow angle) with
    words := b.words ++ [vwords ++ (cur.map fun c => [c.2.1, c.2.2]).flatten]
    rangers := cur.map fun c => c.1
    window := some w
    marks := mapIx (fun i x => x || nth false b.marks i) 0 marks }

/-- Words written from an address up. -/
def memPutWords (m : List Host.Cell) (a : Nat) : List Nat → List Host.Cell
  | [] => m
  | w :: ws => memPutWords (memWrite m a 4 w) (a + 4) ws

/-- MET_IRNGm and the front end's memory after a block. -/
def Sys.keepRangers (s : Sys) (rs : List Ranger) : Sys :=
  let s1 := (mapIx (fun m r => (m, r)) 0 rs).foldl (fun s (x : Nat × Ranger) =>
    ((s.put (MET_IRNG_RANGE x.1) x.2.range).putB (MET_IRNG_PGA x.1) x.2.pga).put (MET_IRNG_HOLDCNT x.1) x.2.hold) s
  { s1 with fe := { s1.fe with modes := rs.map (·.mode), peaks := rs.map (·.peak), settle := rs.map (·.settle) } }

/-- A job put at the end of a lane's queue. -/
def Sys.pushJob (s : Sys) (n : Fin 4) (kind cycle block : Nat) (ran : Bool) : Sys :=
  s.modLane n fun l => { l with jobs := l.jobs ++ [⟨kind, l.jobSeq, cycle, block, ran⟩], jobSeq := (l.jobSeq + 1) % 65536 }

/-- The cycle whose snapshot includes a block with its last sample at `last` (R68): the first whose collector closes after it. -/
def Sys.blockCycle (s : Sys) (last : Nat) : Nat :=
  let close := s.ang.start + s.ang.phg - 1024
  if last < close then s.ang.cycle else s.ang.cycle + (last - close) / s.cycleLen + 1

/-- The block at index `ix` of the sample ring, with its last sample at `last`, passed to every lane that receives seam 1, with its job in
those that run (R23, R66, R69). -/
def Sys.passBlock (s : Sys) (ix last : Nat) : Sys :=
  let cycle := s.blockCycle last
  allLanes.foldl (fun s n =>
    let s1 := if s.receives n then { s with mem := memCopy s.mem (laneBase n + 0x540000 + 4096 * ix) (0x20180000 + 4096 * ix) 4096 } else s
    if s1.runs n then s1.pushJob n 2 cycle ix false else s1) s

/-- The events of a block that ends a gap: the blocks not emitted, and what the gap followed with its length in au. -/
def Sys.gapEvents (s : Sys) (t0 : Nat) : Sys :=
  let s1 := if s.fe.notEmitted = 0 then s else s.post 0x1103 0 [count32 s.fe.notEmitted]
  if s.fe.gapCode = 0 then s1 else s1.post s.fe.gapCode 0 [(t0 - s.fe.lastSample, 8)]

/-- Fabric clocks in a sample period (R196). -/
abbrev samplePeriod : Nat := 12500

/-- R197: a millisecond of samples formed into a block, written into the ring and passed to the lanes. -/
def Sys.sampleBlock (s0 : Sys) (codes : List (List Nat)) : Sys :=
  let s := s0.elapse samplePeriod
  if s.get MET_STAT_FE != feRun || !s.on MET_CTL_RUN then s.elapse (15 * samplePeriod)
  else
    let t0 := s.ang.time
    let da := (s.get ANG_FREQ_F * 4096 + 500) / 1000
    let locked := s.get ANG_STAT_STATE == angLocked
    let start : BlockPass :=
      { words := [], rangers := (List.range 24).map s.ranger, window := s.fe.window, marks := [],
        lag := if s.fe.gap then [] else s.fe.lag, winState := if s.fe.gap then 0 else s.fe.winState, outWindow := s.fe.outWindow }
    let b := (List.range 16).foldl (fun b k => s.blockSample t0 da b k (nth [] codes k)) start
    let ix := s.fe.bseq % 16
    let a := 0x20180000 + 4096 * ix
    let flags := (if s.fe.gap then 1 else 0) + (if locked then 2 else 0) + (if s.fe.trimChg then 4 else 0) + s.get MET_STAT_TRIMSEQ * 256
    let m1 := memPutWords (memZero s.mem a 4096) a [s.fe.bseq, flags, t0 % 2 ^ 32, t0 / 2 ^ 32, da]
    let m2 := memPutWords m1 (a + 0x40) b.words.flatten
    let s1 := ({ s with mem := m2 }.keepRangers b.rangers).gapEvents t0
    let s2 := (s1.setWord MET_BSEQ s.fe.bseq).passBlock ix (t0 + 15 * da / 2 ^ 16)
    let s3 := { s2 with fe := { s2.fe with
      bseq := (s.fe.bseq + 1) % 2 ^ 32, gap := false, trimChg := false, notEmitted := 0, gapCode := 0
      lastSample := t0 + 15 * da / 2 ^ 16, window := b.window, included := true
      rangeMark := mapIx (fun i x => x || nth false s.fe.rangeMark i) 0 b.marks
      unlockedMark := s.fe.unlockedMark || !locked
      lag := b.lag, winState := b.winState, outWindow := b.outWindow, lastDA := da } }
    s3.elapse (15 * samplePeriod)

def execSampleBlock (codes : List (List Nat)) (s : State) : Host.Outcome State Fault Refusal := run (fun y => y.sampleBlock codes) s

/-- The quality words of the metering sources for the cycle (R225), and the marks cleared for the next one. -/
def Sys.meterQuality (s : Sys) : List Nat :=
  let stopped := s.get MET_STAT_FE == feFailed || s.get MET_STAT_FE == feFrozen || !s.fe.included
  (List.range 30).map fun i =>
    (if stopped then 2 ^ 0 + 2 ^ 5 else 0) + (if nth false s.fe.rangeMark i then 2 ^ 4 else 0)
      + (if s.fe.unlockedMark then 2 ^ 6 else 0) + (if s.fe.winState < 3 then 2 ^ 7 else 0)

def Sys.clearMeterMarks (s : Sys) : Sys :=
  { s with fe := { s.fe with included := false, rangeMark := [], unlockedMark := false } }

/-! ## Trims and temperature (R203 to R205) -/

/-- A trim changes from the next block on, which carries TRIMCHG and the incremented TRIMSEQ. -/
def Sys.trimChanged (s : Sys) : Sys :=
  if s.fe.trimChg then s else { s.incWrap MET_STAT_TRIMSEQ with fe := { s.fe with trimChg := true } }

def Sys.metTrimWrite (s : Sys) (k trim : Nat) : Sys := if k < 78 then (s.put (MET_TRIM_T k) trim).trimChanged else s

def execMetTrimWrite (k trim : Nat) (s : State) : Host.Outcome State Fault Refusal := run (fun y => y.metTrimWrite k trim) s

/-- Path `k`'s correction at a temperature in 0.1 °C as a trim: linear between the entries, which lie 20 °C apart. -/
def Sys.tableTrim (s : Sys) (k : Nat) (temp : Int) : Int :=
  let a := (s.sourcePart partMeter).1 + 0x1A0 + 32 * k + 0x10
  let t := (if temp < -400 then -400 else if temp > 1000 then 1000 else temp) + 400
  let i := Nat.min (t.toNat / 200) 6
  let r := t - 200 * Int.ofNat i
  let c0 := sint 16 (s.rd (a + 2 * i) 2)
  let c1 := sint 16 (s.rd (a + 2 * i + 2) 2)
  roundAway ((c0 * (200 - r) + c1 * r) * 2 ^ 20) 200000000

/-- R204: the temperature table applied. -/
def Sys.applyTable (s : Sys) (cause : Nat) (temp : Int) : Sys :=
  let s1 := ((List.range 78).foldl (fun x k => x.put (MET_TRIM_T k) (unsint 17 (s.tableTrim k temp))) s).trimChanged
  let s2 := (s1.put MET_TAPP_CAUSE cause).put MET_TAPP_TEMP (unsint 16 temp)
  { s2.post 0x110A 0 [(cause, 1), (unsint 16 temp, 2), (s2.get MET_STAT_TRIMSEQ, 1)] with fe := { s2.fe with bandOut := false } }

def execApplyCommand (temperature : Int) (s : State) : Host.Outcome State Fault Refusal := run (fun y => y.applyTable 2 temperature) s

/-- R205: the band around the last application. -/
def Sys.bandCheck (s : Sys) (temp : Int) : Sys :=
  if s.get MET_TAPP_CAUSE = 0 then s
  else
    let out := s.get MET_TCFG_DT * 10 < (temp - sint 16 (s.get MET_TAPP_TEMP)).natAbs
    let s1 := if out && !s.fe.bandOut then s.note 0x1109 else s
    { s1 with fe := { s1.fe with bandOut := out } }

def execTemperatureBandCheck (temperature : Int) (s : State) : Host.Outcome State Fault Refusal := run (fun y => y.bandCheck temperature) s

/-! ## Failure and recovery (R228), and RUN -/

/-- R52, cause 6: a LOCKED clock loses its reference with the front end. -/
def Sys.loseReference (s : Sys) : Sys := if s.get ANG_STAT_STATE = angLocked then s.enterHoldover 6 else s

/-- R228, R55: the front end fails. -/
def Sys.frontEndFailed (s : Sys) : Sys :=
  if s.get MET_STAT_FE = feFailed then s
  else
    let s1 := (s.dropBlock.put MET_STAT_FE feFailed).note 0x1101
    ({ s1 with fe := { s1.fe with gap := true } }).loseReference

def execFrontEndFailed (s : State) : Host.Outcome State Fault Refusal := run Sys.frontEndFailed s

/-- R228: the firmware resets a failed front end; after a successful reset it applies the table with cause 3 and sets RUN. -/
def Sys.frontEndReset (s : Sys) (success : Bool) (temp : Int) : Sys :=
  if s.get MET_STAT_FE != feFailed || !success then s
  else
    let s1 := ((s.applyTable 3 temp).put MET_CTL_RUN 1).put MET_STAT_FE feRun
    { s1 with fe := { s1.fe with gap := true, gapCode := 0x1102 } }

def execFrontEndReset (success : Bool) (temperature : Int) (s : State) : Host.Outcome State Fault Refusal :=
  run (fun y => y.frontEndReset success temperature) s

/-- MET_CTL.RUN set: an OFF front end samples. After blocks were emitted before, the first one carries GAP. -/
def Sys.frontEndRun (s : Sys) : Sys :=
  let s1 := s.put MET_CTL_RUN 1
  if s.get MET_STAT_FE = feOff then
    { s1.put MET_STAT_FE feRun with fe := { s1.fe with gap := s1.fe.gap || s1.fe.bseq != 0 } }
  else s1

/-- MET_CTL.RUN cleared: the block in progress is not emitted and the front end is OFF. -/
def Sys.frontEndStop (s : Sys) : Sys :=
  let s1 := s.put MET_CTL_RUN 0
  if s.get MET_STAT_FE = feRun then s1.dropBlock.put MET_STAT_FE feOff else s1

/-! ## Jobs of the lanes -/

/-- OVLCNT of every current channel counts from the activation (R223). -/
def Datapath.clearOverloads (d : Datapath) : Datapath := (List.range 24).foldl (fun acc m => acc.wr (0x10108 + 32 * m) 4 0) d

/-- The datapath under a new image, its open window closed: the next window opens with the output at hand, or, with changed element
records, the datapath restarts (R212). -/
def Datapath.takeOver (d : Datapath) (old new : MeterImage) : Datapath :=
  let d1 := d.clearOverloads
  if new.elements != old.elements then d1.restart else if d.waiting then d1 else d1.openWindow new (d.nextWindow.getD d.window)

/-- R229: a datapath at a window boundary takes the new metering image: the window before it is closed under the old image, the
image written and the registers carried across. -/
def Sys.takeImage (s : Sys) (n : Fin 4) : Sys :=
  let old := s.laneMeter n
  let d := (s.lane n).dp
  let s1 := s.modLane n fun l => { l with dp := if d.waiting then d else d.closeWindow old, meterPending := false, meterArmed := false }
  let region := s1.energyRegion n
  let part := s1.sourcePart partMeter
  let image := laneBase n + 0x5A4000
  let s2 := Sys.lsync { s1 with mem := memCopy (memZero s1.mem image 0x10000) image part.1 part.2 } n 0x5A4000 0x10000
  let new := s2.laneMeter n
  let s3 := s2.putEnergy n new (carryEnergy old new region) (unmatchedPulses old new)
  (s3.modLane n fun l => { l with dp := l.dp.takeOver old new }).touchHidden n

/-- A sample block's job in a lane; the block lies at index `ix` of the lane's sample-block area. A lane that waits for a window boundary
takes its new metering image there. -/
def Sys.runBlock (s : Sys) (n : Fin 4) (ix : Nat) : Sys :=
  let c := s.laneMeter n
  let a := laneBase n + 0x540000 + 4096 * ix
  if !(s.lane n).meterArmed then s.modLane n fun l => { l with dp := l.dp.block c s.mem a }
  else (blockGroups s.mem a).foldl (fun s1 g =>
    let s2 := if (s1.lane n).meterArmed && (s1.lane n).dp.atBoundary then s1.takeImage n else s1
    s2.modLane n fun l => { l with dp := Datapath.sample (s2.laneMeter n) (blockStep s.mem a) l.dp g })
    (s.modLane n fun l => { l with dp := l.dp.openBlock c s.mem a })

/-- The flush job (R233): the open window closed, and the energy region frozen in the flush area. -/
def Sys.runFlush (s : Sys) (n : Fin 4) : Sys :=
  let c := s.laneMeter n
  let d := ((s.lane n).dp.finish c s.fe.lastDA).restart
  let base := laneBase n + 0x470000
  let m1 := overlay s.mem d.live base 0 c.demandAt
  let m2 := memCopy m1 (base + c.demandAt) (laneBase n + snapBase + c.demandAt) (c.shareAt - c.demandAt)
  let m3 := overlay m2 d.live base c.shareAt c.energyEnd
  (Sys.lsync { s with mem := m3 } n 0x470000 c.energyEnd).modLane n fun l => { l with dp := d }

/-- The first job of the queue of a kind that has not run is marked as run. -/
def markRan (kind : Nat) : List Job → List Job
  | [] => []
  | j :: js => if j.kind = kind && !j.ran then { j with ran := true } :: js else j :: markRan kind js

/-- The job of a block waits for the snapshot of every cycle before its own (R222): the lane has taken that of the cycle in progress, or
runs Compute only later. -/
def Sys.blockWaits (s : Sys) (n : Fin 4) (j : Job) : Bool :=
  s.ang.cycle < j.cycle && !(j.cycle == s.ang.cycle + 1 && ((s.lane n).computed || s.ang.cycle < (s.lane n).fromCycle))

/-- A lane runs the job of its oldest block that has not run (R200). While FE is FROZEN block jobs do not run (R233), except
those that came before the freeze. -/
def Sys.blockJob (s : Sys) (n : Fin 4) : Sys :=
  match (s.lane n).jobs.find? fun j => j.kind == 2 && !j.ran with
  | none => s
  | some j =>
    if !s.runs n || s.blockWaits n j then s
    else ((s.runBlock n j.block).modLane n fun l => { l with jobs := markRan 2 l.jobs }).touchHidden n

def execBlockJob (lane : Fin 4) (s : State) : Host.Outcome State Fault Refusal := run (fun y => y.blockJob lane) s

/-- R233: a lane runs its flush job after its pending block jobs. -/
def Sys.flushJob (s : Sys) (n : Fin 4) : Sys :=
  match (s.lane n).jobs.find? fun j => j.kind == 3 && !j.ran with
  | none => s
  | some _ =>
    if !s.runs n then s
    else
      let blocks := (s.lane n).jobs.filter fun j => j.kind == 2
      let s1 := (blocks.filter fun j => !j.ran).foldl (fun s j => s.runBlock n j.block) s
      ((s1.runFlush n).modLane n fun l => { l with jobs := markRan 3 (l.jobs.filter fun j => j.kind != 2) }).touchHidden n

def execFlushJob (lane : Fin 4) (s : State) : Host.Outcome State Fault Refusal := run (fun y => y.flushJob lane) s

/-- R233: a flush requested of every lane that runs, with the front end FROZEN; the flush vote waits for them (R80). -/
def Sys.requestFlush (s : Sys) : Sys :=
  let s0 := ((s.dropBlock.put MET_STAT_FE feFrozen).setWord MET_FRZL s.fe.lastSample)
  let s1 := { s0 with fe := { s0.fe with freeze := s.fe.lastSample, freezeCycle := s.ang.cycle } }.post 0x110E 0 [(s.fe.lastSample, 8)]
  let s2 := { s1 with fe := { s1.fe with flushing := true, gap := true } }
  Sys.flushCheck ((allLanes.filter fun n => s2.runs n).foldl (fun s n =>
    (s.modLane n fun l => { l with flushed := false }).pushJob n 3 s.ang.cycle 0 false) { s2 with vot := { s2.vot with flushDue := true } })

/-- R229: the firmware offers the new metering image between block jobs. A datapath that stands at a window boundary takes it at once;
one with a window open finishes it under the old image and takes the new one at its next boundary. -/
def Sys.meteringSwitch (s : Sys) (n : Fin 4) : Sys :=
  if !(s.lane n).meterPending then s
  else if (s.lane n).dp.atBoundary then s.takeImage n
  else s.modLane n fun l => { l with meterArmed := true }

def execMeteringImageSwitch (lane : Fin 4) (s : State) : Host.Outcome State Fault Refusal := run (fun y => y.meteringSwitch lane) s

/-! ## Reports and saves after a vote -/

/-- R226: the snapshot's meter events of a lane in AGREE posted under locker 0. -/
def Sys.meterReport (s : Sys) : Sys :=
  match s.agreeLane with
  | some n =>
    if !s.vot.metersDue then s
    else
      let d := (s.lane n).dp
      let s1 := d.snapEvents.foldl (fun s e => s.postBy 8 e.code 0 e.data) s
      let s2 := if d.snapLost = 0 then s1 else s1.post 0x1114 0 [count32 d.snapLost]
      { s2 with vot := { s2.vot with metersDue := false } }
  | none => s

def execMeterEventReport (s : State) : Host.Outcome State Fault Refusal := run Sys.meterReport s

/-- R194: a lane's loop events posted under the locker of each slot's OUT point, the mode and region changes only while
LOOP_CTL asks for them. -/
def Sys.loopReport (s : Sys) : Sys :=
  match s.agreeLane with
  | some n =>
    if !s.vot.loopsDue then s
    else
      let l := s.lane n
      let wanted := l.loopEvents.filter fun e => (e.code != 0x1406 || s.on LOOP_CTL_EVMODE) && (e.code != 0x1407 || s.on LOOP_CTL_EVREG)
      let s1 := wanted.foldl (fun s e => s.postBy 8 e.code (s.pointLocker (s.loopPar n e.slot).outPoint) e.data) s
      let s2 := if l.loopLost = 0 then s1 else (s1.addSat LOOP_EVLOST_COUNT l.loopLost).post 0x1409 0 [count32 l.loopLost]
      { s2 with vot := { s2.vot with loopsDue := false } }
  | none => s

def execLoopEventReport (s : State) : Host.Outcome State Fault Refusal := run Sys.loopReport s

/-- R123: 0x1306 for each entry of the batch that the lanes refused, under its originator's locker. -/
def Sys.refusedReport (s : Sys) : Sys :=
  match s.agreeLane with
  | some n =>
    if !s.vot.refusedDue then s
    else
      let bad := s.chg.batches[n].filter fun c => c.refused
      let s1 := bad.foldl (fun s c => s.post 0x1306 c.locker [(c.index, 4), (c.kind, 1), (c.locker, 2)]) s
      { s1 with vot := { s1.vot with refusedDue := false } }
  | none => s

def execRefusedEntryReport (s : State) : Host.Outcome State Fault Refusal := run Sys.refusedReport s

/-- R118: the retentive snapshot written to the loft from a lane that is VOTING after the vote, or the save skipped. -/
def Sys.retentiveSave (s : Sys) (n : Fin 4) (complete : Bool) : Sys :=
  match s.prog.snapCycle with
  | none => s
  | some c =>
    if complete then (if s.votes n then { s.saveRetentive n c with prog := { s.prog with snapCycle := none } } else s)
    else { (s.incSat CYC_RSTAT_SKIPS).note 0x1309 with prog := { s.prog with snapCycle := none } }

def execRetentiveSave (lane : Fin 4) (complete : Bool) (s : State) : Host.Outcome State Fault Refusal :=
  run (fun y => y.retentiveSave lane complete) s

/-- R230, R79: the energy region of the snapshot of a lane in AGREE saved with kind 1, or the save skipped. A flush takes its
slot (R234). -/
def Sys.energySave (s : Sys) (complete : Bool) : Sys :=
  if s.fe.flushing then s
  else match s.energyLane with
    | some n => if complete then s.saveEnergy n snapBase 1 else (s.incSat MET_SSTAT_SKIPS).note 0x110D
    | none => (s.incSat MET_SSTAT_SKIPS).note 0x110D

def execEnergySave (complete : Bool) (s : State) : Host.Outcome State Fault Refusal := run (fun y => y.energySave complete) s

/-! ## Reads with an effect -/

/-- R129: CYC_FLT and CYC_FLTCY read and cleared; the runtimes record the next fault as the first, and post each class again. -/
def Sys.cycFltRead (s : Sys) : Sys :=
  let s1 := ((s.answer (s.word CYC_FLT)).setWord CYC_FLT 0).setWord CYC_FLTCY 0
  allLanes.foldl (fun s n => s.modLane n fun l => { l with rt := { l.rt with fltValid := false, fltPosted := [] } }) s1

def execCycFltRead (_who : Agent) (s : State) : Host.Outcome State Fault Refusal := run Sys.cycFltRead s

/-- R193: two samples of a trace channel from the lane that the LOOP block copies from; IDX moves on by 2. -/
def Sys.trdatRead (s : Sys) : Sys :=
  let ix := s.get LOOP_TRRD_IDX
  let v := match s.agreeLane with
    | some n =>
      let a := 0x500000 + 8192 * s.get LOOP_TRRD_CH
      s.lrd n (a + 2 * ix) 2 + 65536 * s.lrd n (a + 2 * ((ix + 1) % 4096)) 2
    | none => 0
  ((s.setWord LOOP_TRDAT v).answer v).put LOOP_TRRD_IDX (ix + 2)

def execLoopTrdatRead (_who : Agent) (s : State) : Host.Outcome State Fault Refusal := run Sys.trdatRead s

end Sys2Proof.Machine
end

