-- ==== Sys2Proof/Machine/Compute.lean ====
section
/-!
DEFINITION. The Compute job of a lane (R110 to R131, spec/04_cycle_engine.md): the steps of R111 in their order, with
initialisation (R112), the change batch (R123 to R126, R130, R131), the task sections, publication (R105), the retentive
snapshot (R118) and the charges (R113).
-/
namespace Sys2Proof.Machine

/-! ## Initialisation (R112, R116) -/

/-- The runs of the initial value table from offset `o` of the logic image: offset in the variable image, length, and where
the data lies in the logic image. -/
def Sys.initRuns (s : Sys) (n : Fin 4) : Nat → Nat → List (Nat × Nat × Nat)
  | 0, _ => []
  | fuel + 1, o =>
    let len := s.logic n (o + 4)
    if len = 0 then [] else (s.logic n o, len, o + 8) :: Sys.initRuns s n fuel (o + 8 + len)

/-- The whole initial value table; the logic image holds at most 2^17 runs. -/
def Sys.initTable (s : Sys) (n : Fin 4) : List (Nat × Nat × Nat) := s.initRuns n 131072 (s.logic n 0x38)

/-- The bytes of the initial value table, its closing record included. -/
def Sys.initLength (s : Sys) (n : Fin 4) : Nat := ((s.initTable n).map fun r => 8 + r.2.1).foldl (· + ·) 8

/-- A range of a lane's SRAM set to zero by the runtime. -/
def Sys.lzero (s : Sys) (n : Fin 4) (off k : Nat) : Sys := Sys.lsync { s with mem := memZero s.mem (laneBase n + off) k } n off k

/-- The ranges together hold the 32 bytes of the variable image from `o` on. -/
def restoredWhole (rs : List (Nat × Nat)) (o : Nat) : Bool :=
  (List.range 8).all fun w => rs.any fun r => r.1 ≤ o + 4 * w && o + 4 * w + 4 ≤ r.1 + r.2

/-- The restored timers of the ranges rebased (R116), those first that begin in the range `r`: in each 32-byte record of the program
variable area that the ranges hold whole and that has RUN set, START := TIME − ET. Which restored records are timers is not said; every
one counts (notes/assumptions/25.md). -/
def Sys.rebaseRange (n : Fin 4) (rs : List (Nat × Nat)) (s : Sys) (r : Nat × Nat) : Sys :=
  let lo := Nat.max r.1 0x80000
  let first := (lo + 31) / 32
  (List.range ((r.1 + r.2 + 31) / 32 - first)).foldl (fun s i =>
    let a := masterBase + 32 * (first + i)
    if restoredWhole rs (32 * (first + i)) && (s.lrd n (a + 0x18) 4).testBit 2 then
      s.lwr n a 8 (elapsedSince (s.ctxTime n) (s.lrd n (a + 0x10) 8)) else s) s

/-- The retentive data copied from the restore area over the ranges, in table order. -/
def Sys.restoreRanges (s : Sys) (n : Fin 4) : Sys :=
  let rs := s.retRanges n
  let s1 := (rs.foldl (fun (x : Sys × Nat) r => (x.1.lcopy n (masterBase + r.1) (0x551000 + x.2) r.2, x.2 + r.2)) (s, 0)).1
  rs.foldl (Sys.rebaseRange n rs) s1

/-- FLAGS of the lane's cycle context: FIRST, COLD, RESTORE (R109). -/
def Sys.ctxFlags (s : Sys) (n : Fin 4) : Nat := s.lrd n 0x53001C 4

/-- R112: zeros over the in-use bytes, the initial value table, and the restored values. The program state is RUN. -/
def Sys.initialise (s : Sys) (n : Fin 4) : Sys :=
  let s1 := (s.inUse n).foldl (fun s r => s.lzero n r.1 r.2) s
  let s2 := (s.initTable n).foldl (fun s r => s.lcopy n (masterBase + r.1) (logicBase + r.2.2) r.2.1) s1
  let restore := (s.ctxFlags n).testBit 2
  let s3 := if restore then s2.restoreRanges n else s2
  let s4 := s3.modRt n fun r => { r with state := 1, hcause := 0, overruns := 0, overran := false, fltPosted := [] }
  (s4.initLoops n).lanePost n 0x1301 [(if restore then 1 else 0, 1)]

/-! ## The change batch (R123, R125, R126, R130, R131) -/

/-- The permit bit of a word of the program variable area (R103). -/
def Sys.permitted (s : Sys) (n : Fin 4) (word : Nat) : Bool := (s.lrd n (logicBase + s.logic n 0x24 + word / 8) 1).testBit (word % 8)

/-- The entry meets its condition in the lane. -/
def Sys.changeOk (s : Sys) (n : Fin 4) (c : Change) : Bool :=
  if c.kind = 0 then s.pointClass n c.index == 3
  else if c.kind = 1 then s.permitted n c.index && c.index * 4 < s.vlen n
  else if c.kind = 2 then c.index % 2 == 0 && s.permitted n c.index && s.permitted n (c.index + 1) && (c.index + 2) * 4 ≤ s.vlen n
  else (c.origin == 1 || c.origin == 2) && (c.index == 1 || (c.index == 2 && (s.lane n).rt.state == 2))

/-- What an entry that meets its condition does. -/
def Sys.changeEffect (s : Sys) (n : Fin 4) (c : Change) : Sys :=
  if c.kind = 0 then s.setMaster n c.index c.value
  else if c.kind = 1 then s.lwr n (varBase + 4 * c.index) 4 c.value
  else if c.kind = 2 then s.lwr n (varBase + 4 * c.index) 8 c.value
  else if c.index = 1 then (if (s.lane n).rt.state = 1 then s.halt n 3 else s)
  else (s.modRt n fun r => { r with state := 1 }).lanePost n 0x1305 []

/-- An entry of the batch applied, or marked REFUSED in the lane's copy. -/
def Sys.applyChange (n : Fin 4) (s : Sys) (x : Nat × Change) : Sys :=
  if s.changeOk n x.2 then
    (s.changeEffect n x.2).modRt n fun r => { r with caps := x.2.seq, capc := s.ctxCycle n % 2 ^ 32 }
  else
    let a := laneBase n + 0x520000 + 16 * x.1
    let s1 := s.wr a 4 (s.rd a 4 % 2 ^ 31 + 2 ^ 31)
    { s1 with chg := { s1.chg with batches := s1.chg.batches.set n (setNth s1.chg.batches[n] x.1 { x.2 with refused := true }) } }

/-- The change batch of the cycle applied in entry order. -/
def Sys.applyBatch (s : Sys) (n : Fin 4) : Sys := (mapIx (fun i c => (i, c)) 0 s.chg.batches[n]).foldl (Sys.applyChange n) s

/-! ## Task sections -/

/-- ENTRY, INTERVAL and PHASE of task `k` (R103). -/
def Sys.taskEntry (s : Sys) (n : Fin 4) (k : Nat) : Nat × Nat × Nat :=
  let w := s.lrd n (logicBase + s.logic n 0x14 + 8 * k) 8
  (bits w 0 32, bits w 32 8, bits w 40 8)

/-- A task section that is due in the cycle runs, unless a halt or an overrun has ended the cycle's sections. -/
def Sys.dueTask (n : Fin 4) (cycle : Nat) (s : Sys) (k : Nat) : Sys :=
  let e := s.taskEntry n k
  let rt := (s.lane n).rt
  if rt.state = 1 && !rt.overran && cycle % Nat.max e.2.1 1 == e.2.2 then s.task n k e.1 else s

/-- The task sections of a cycle, in table order (R111). -/
def Sys.taskSections (s : Sys) (n : Fin 4) (cycle : Nat) : Sys := (List.range (s.logic n 0x18)).foldl (Sys.dueTask n cycle) s

/-! ## Publication and the snapshot -/

/-- The publish list: first point and COUNT of each entry (R103). -/
def Sys.publishList (s : Sys) (n : Fin 4) : List (Nat × Nat) :=
  (List.range (s.logic n 0x2C)).map fun i =>
    let w := s.lrd n (logicBase + s.logic n 0x28 + 8 * i) 8
    (bits w 0 17, bits w 32 18)

/-- The variable image as the initial value table leaves it. -/
def Sys.initImage (s : Sys) (n : Fin 4) : List Host.Cell :=
  (s.initTable n).foldl (fun m r => memPutBytes m r.1 (memBytes s.mem (laneBase n + logicBase + r.2.2) r.2.1)) []

/-- The output image (lane-local 0x0030_0000). -/
abbrev outBase : Nat := 0x300000

/-- An entry of the publish list: its masters copied into the output image; in HALT with HALTOUT its output points take their
initial values (R130). -/
def Sys.publishEntry (n : Fin 4) (initial : Option (List Host.Cell)) (s : Sys) (e : Nat × Nat) : Sys :=
  let s1 := s.lcopy n (outBase + 4 * e.1) (masterBase + 4 * e.1) (4 * e.2)
  match initial with
  | none => s1
  | some m => ((List.range e.2).filter fun i => s.pointClass n (e.1 + i) == 2).foldl
      (fun s i => s.lwr n (outBase + 4 * (e.1 + i)) 4 (memRead m (4 * (e.1 + i)) 4)) s1

def Sys.publish (s : Sys) (n : Fin 4) : Sys :=
  let rt := (s.lane n).rt
  let initial := if rt.state = 2 && rt.ctl.testBit 8 then some (s.initImage n) else none
  (s.publishList n).foldl (Sys.publishEntry n initial) s

/-- R118: the retentive ranges copied, in table order, into the retentive area. -/
def Sys.snapRanges (s : Sys) (n : Fin 4) : Sys :=
  ((s.retRanges n).foldl (fun (x : Sys × Nat) r => (x.1.lcopy n (0x551000 + x.2) (masterBase + r.1) r.2, x.2 + r.2)) (s, 0)).1

/-- A snapshot cycle (R111). -/
def Sys.snapshotCycle (s : Sys) (cycle : Nat) : Bool :=
  let k := 16 * Nat.max s.prog.dig 1
  cycle % k == k - 1

/-! ## Charges (R113, R114) -/

/-- k units of 32 bytes. -/
def granules (k : Nat) : Nat := (k + 31) / 32

/-- Initialisation of a logic image in a lane. -/
def Sys.initCharge (s : Sys) (n : Fin 4) : Nat :=
  granules (((s.inUse n).map fun r => r.2).foldl (· + ·) 0) + granules (retBytes (s.retRanges n)) + granules (s.initLength n)

/-- Publication. -/
def Sys.publishCharge (s : Sys) (n : Fin 4) : Nat :=
  (((s.publishList n).map fun e => e.2).foldl (· + ·) 0 + 7) / 8 + 4 * s.logic n 0x2C

/-- The clocks charged to the steps of a Compute job. -/
def Sys.jobCharge (s : Sys) (n : Fin 4) (first snap : Bool) : Nat :=
  1024 + granules (s.laneMeter n).snapLen
    + (if first then s.initCharge n else 16 * s.prog.chgmax + (s.lane n).engine.clocks)
    + 150 * (s.slotsUsed n).length + s.publishCharge n
    + (if snap then granules (retBytes (s.retRanges n)) else 0) + 64

/-! ## The job (R111) -/

/-- The block jobs that the snapshot of cycle `n` includes end first (R68). -/
def Sys.endBlocks (s : Sys) (n : Fin 4) (cycle : Nat) : Sys :=
  let mine := (s.lane n).jobs.filter fun j => j.kind == 2 && j.cycle ≤ cycle
  let s1 := (mine.filter fun j => !j.ran).foldl (fun s j => s.runBlock n j.block) s
  s1.modLane n fun l => { l with jobs := l.jobs.filter fun j => !(j.kind == 2 && j.cycle ≤ cycle) }

/-- CYC_FACT and CYC_CTL as they stood at PHG for every lane's job of the cycle (R67), and the counters of the lane's task sections at
rest. -/
def Sys.beginJob (s : Sys) (n : Fin 4) : Sys :=
  (s.modRt n fun r => { r with fact := s.prog.fact, ctl := s.prog.ctl, overran := false }).modEngine n fun e => { e with clocks := 0 }

/-- Everything from the meter snapshot to the retentive snapshot. -/
def Sys.jobSteps (s : Sys) (n : Fin 4) (cycle : Nat) (first snap : Bool) : Sys :=
  let s1 := s.snapshotStep n
  let s2 := if first then s1.initialise n else s1.applyBatch n
  let s3 := s2.meterPoints n
  let s4 := if first then s3 else s3.taskSections n cycle
  let s5 := (s4.loopEngine n cycle).publish n
  if snap then s5.snapRanges n else s5

/-- The runtime status record after the job: an unbroken count of overruns, and the charges. -/
def Sys.finishJob (s : Sys) (n : Fin 4) (first snap : Bool) : Sys :=
  let used := s.jobCharge n first snap
  s.modRt n fun r => { r with overruns := if r.overran then r.overruns else 0, used := used, peak := Nat.max r.peak used }

/-- The lane runs its Compute job in the cycle: it runs jobs, the collector has closed, and it has not run it yet. -/
def Sys.computes (s : Sys) (n : Fin 4) : Bool :=
  s.runs n && s.col.closed && !(s.lane n).computed && (s.lane n).fromCycle ≤ s.ang.cycle && s.arrives (s.ang.start + s.ang.phg)

/-- The Compute job of the current cycle in a lane, from PHG on. -/
def Sys.compute (s0 : Sys) (n : Fin 4) : Sys :=
  if !s0.computes n then s0
  else
    let s := (s0.reach (s0.ang.start + s0.ang.phg)).latchPhg
    let cycle := s.ang.cycle
    let first := (s.ctxFlags n).testBit 0
    let snap := s.snapshotCycle cycle
    let s1 := ((s.endBlocks n cycle).beginJob n).jobSteps n cycle first snap
    ((s1.finishJob n first snap).modLane n fun l =>
      { l with computed := true, jobs := ⟨1, l.jobSeq, cycle, 0, true⟩ :: l.jobs, jobSeq := (l.jobSeq + 1) % 65536 }).touchHidden n

def execCompute (lane : Fin 4) (s : State) : Host.Outcome State Fault Refusal := run (fun y => y.compute lane) s

end Sys2Proof.Machine
end

