-- ==== Sys2Proof/Machine/Crypto.lean ====
section
/-!
DEFINITION. The algorithms that the chapters name by their standards: SHA-256 (FIPS 180-4), HMAC and HKDF over it, AES-256 in GCM
(FIPS 197, NIST SP 800-38D), and ECDSA and ECDH on P-256 (FIPS 186) (R282, R283, spec/09_hitil_station_exchange.md; R425,
spec/16_keys_tamper_lockers.md; R440, spec/17_startup_and_image_update.md). A message is a list of bytes.
-/
namespace Sys2Proof.Machine

/-- A number as `n` bytes, most significant first. -/
def bytesBE (n v : Nat) : List Nat := (List.range n).map fun i => v / 256 ^ (n - 1 - i) % 256

/-- A number as `n` bytes, least significant first. -/
def bytesLE (n v : Nat) : List Nat := (List.range n).map fun i => v / 256 ^ i % 256

/-- Bytes read as a number, most significant first. -/
def numBE (bs : List Nat) : Nat := bs.foldl (fun acc b => acc * 256 + b % 256) 0

/-- Bytes read as a number, least significant first. -/
def numLE (bs : List Nat) : Nat := bs.foldr (fun b acc => b % 256 + 256 * acc) 0

/-- A list cut into pieces of `n`, the last perhaps shorter; `fuel` bounds their number. -/
def chunks {α : Type} (n : Nat) : Nat → List α → List (List α)
  | 0, _ => []
  | fuel + 1, xs => if xs.isEmpty then [] else xs.take n :: chunks n fuel (xs.drop n)

/-! ## SHA-256

The standard names its constants as the first 32 bits of the fractions of roots of primes; here they are computed from that. A hash value
is a row of eight words. -/

/-- The integer root of degree `n` of `v` below `2 ^ k`, bit by bit; `r` is the part found. -/
def rootBits (n v : Nat) : Nat → Nat → Nat
  | 0, r => r
  | k + 1, r => rootBits n v k (if (r + 2 ^ k) ^ n ≤ v then r + 2 ^ k else r)

/-- The first 32 bits of the fraction of the root of degree `n` of `p`. -/
def rootFraction (n p : Nat) : Word := BitVec.ofNat 32 (rootBits n (p * 2 ^ (32 * n)) 35 0)

/-- The 64 primes up to 311: numbers that no prime below 18 divides but itself. -/
def shaPrimes : List Nat := (List.range 312).filter fun p => 2 ≤ p && [2, 3, 5, 7, 11, 13, 17].all fun d => p == d || p % d != 0

/-- The words of the first hash value, and the constants of the rounds. -/
def shaFirst : List Word := (shaPrimes.take 8).map (rootFraction 2)
def shaRounds : List Word := shaPrimes.map (rootFraction 3)

/-- A word rotated by each of some amounts, and the sum modulo 2 of what results with `start`. -/
def spun (amounts : List Nat) (start x : Word) : Word := amounts.foldl (fun acc r => acc ^^^ x.rotateRight r) start

/-- The message schedule, newest word first: `k` words more. -/
def shaExpand : Nat → List Word → List Word
  | 0, ws => ws
  | k + 1, ws =>
    let near := ws.getD 1 0
    let far := ws.getD 14 0
    shaExpand k ((spun [17, 19] (near >>> 10) near + spun [7, 18] (far >>> 3) far + ws.getD 6 0 + ws.getD 15 0) :: ws)

/-- One round with the sum of its constant and its word of the schedule: the words move up by one place, the first and the fifth being formed
anew. Of each two bits the fifth word chooses, and of the first three words the majority counts. -/
def shaRound (v : List Word) (sum : Word) : List Word :=
  match v with
  | [p, q, r, s, t, u, w, z] =>
    let add := z + sum + spun [6, 11, 25] 0 t + (w ^^^ (t &&& (u ^^^ w)))
    [add + spun [2, 13, 22] 0 p + ((p &&& (q ||| r)) ||| (q &&& r)), p, q, r, s + add, t, u, w]
  | other => other

/-- One block of 64 bytes. -/
def shaBlock (v : List Word) (bs : List Nat) : List Word :=
  let words := (chunks 4 16 bs).foldl (fun ws b => BitVec.ofNat 32 (numBE b) :: ws) []
  let sums := List.zipWith (· + ·) shaRounds (shaExpand 48 words).reverse
  List.zipWith (· + ·) v (sums.foldl shaRound v)

/-- The message with its padding. -/
def shaPad (bs : List Nat) : List Nat := bs ++ 0x80 :: List.replicate ((119 - bs.length % 64) % 64) 0 ++ bytesBE 8 (8 * bs.length)

/-- SHA-256 of a message: 32 bytes. -/
def sha256 (bs : List Nat) : List Nat :=
  ((chunks 64 (bs.length / 64 + 2) (shaPad bs)).foldl shaBlock shaFirst).flatMap fun w => bytesBE 4 w.toNat

/-- HMAC-SHA-256. -/
def hmacSha256 (key msg : List Nat) : List Nat :=
  let k0 := if 64 < key.length then sha256 key else key
  let k := k0 ++ List.replicate (64 - k0.length) 0
  sha256 ((k.map fun b => b ^^^ 0x5C) ++ sha256 ((k.map fun b => b ^^^ 0x36) ++ msg))

/-- The blocks of HKDF's expansion. -/
def hkdfBlocks (prk info : List Nat) : Nat → Nat → List Nat → List Nat
  | 0, _, _ => []
  | k + 1, i, last => let t := hmacSha256 prk (last ++ info ++ [i]); t ++ hkdfBlocks prk info k (i + 1) t

/-- HKDF-SHA-256: `n` bytes. -/
def hkdfSha256 (ikm salt info : List Nat) (n : Nat) : List Nat :=
  (hkdfBlocks (hmacSha256 salt ikm) info ((n + 31) / 32) 1 []).take n

/-! ## AES-256 -/

/-- A byte doubled in GF(2^8). -/
def xtime (x : Byte) : Byte := if x.msb then (x <<< 1) ^^^ 0x1B#8 else x <<< 1

/-- A product in GF(2^8), by the bits of the second factor from bit `k - 1` down. -/
def gfMul (a b : Byte) : Nat → Byte
  | 0 => 0
  | k + 1 => xtime (gfMul a (b >>> 1) k) ^^^ (if b.getLsbD 0 then a else 0)

/-- The inverse in GF(2^8), 0 for 0: the 254th power. -/
def gfInv (x : Byte) : Byte :=
  let m := fun a b => gfMul a b 8
  let x2 := m x x
  let x4 := m x2 x2
  let x8 := m x4 x4
  let x16 := m x8 x8
  let x32 := m x16 x16
  let x64 := m x32 x32
  m (m (m x2 x4) (m x8 x16)) (m (m x32 x64) (m x64 x64))

/-- The substitution of a byte. -/
def sbox (x : Byte) : Byte :=
  let i := gfInv x
  i ^^^ i.rotateLeft 1 ^^^ i.rotateLeft 2 ^^^ i.rotateLeft 3 ^^^ i.rotateLeft 4 ^^^ 0x63#8

/-- Two rows of bytes added. -/
def xorBytes (a b : List Byte) : List Byte := (a.zip b).map fun p => p.1 ^^^ p.2

/-- The round constant of word `i` of the key schedule, `i` a multiple of 8. -/
def rconByte : Nat → Byte
  | 0 => 1
  | k + 1 => xtime (rconByte k)

/-- The key schedule, newest word first: words from `i` on. -/
def aesExpand : Nat → Nat → List (List Byte) → List (List Byte)
  | 0, _, ws => ws
  | k + 1, i, ws =>
    let t := ws.getD 0 []
    let u := if i % 8 = 0 then
        let r := ((t.drop 1) ++ (t.take 1)).map sbox
        xorBytes r [rconByte (i / 8 - 1), 0, 0, 0]
      else if i % 8 = 4 then t.map sbox else t
    aesExpand k (i + 1) (xorBytes (ws.getD 7 []) u :: ws)

/-- The 15 round keys of 16 bytes. -/
def aesKeys (key : List Nat) : List (List Byte) :=
  let k := key.map fun b => BitVec.ofNat 8 b
  chunks 16 15 ((aesExpand 52 8 (chunks 4 8 k).reverse).reverse.flatten)

/-- ShiftRows over the state's 16 bytes, column by column. -/
def shiftRows (s : List Byte) : List Byte := (List.range 16).map fun i => s.getD ((i + 4 * (i % 4)) % 16) 0

/-- MixColumns. -/
def mixColumn (c : List Byte) : List Byte :=
  (List.range 4).map fun i =>
    let x := fun j => c.getD ((i + j) % 4) 0
    xtime (x 0) ^^^ xtime (x 1) ^^^ x 1 ^^^ x 2 ^^^ x 3

/-- One block of 16 bytes enciphered. -/
def aesBlock (keys : List (List Byte)) (inp : List Byte) : List Byte :=
  let s0 := xorBytes inp (keys.getD 0 [])
  let s1 := ((keys.drop 1).take 13).foldl (fun s k => xorBytes (((chunks 4 4 (shiftRows (s.map sbox))).map mixColumn).flatten) k) s0
  xorBytes (shiftRows (s1.map sbox)) (keys.getD 14 [])

/-! ## GCM -/

/-- A product in GF(2^128) as GCM numbers its bits, `k` bits of `x` still to go. -/
def ghashMul (x v z : BitVec 128) : Nat → BitVec 128
  | 0 => z
  | k + 1 =>
    let z1 := if x.msb then z ^^^ v else z
    let v1 := if v.getLsbD 0 then (v >>> 1) ^^^ (0xE1#128 <<< 120) else v >>> 1
    ghashMul (x <<< 1) v1 z1 k

/-- Bytes as one block, filled with zeros. -/
def blockOf (bs : List Nat) : BitVec 128 := BitVec.ofNat 128 (numBE (bs ++ List.replicate (16 - bs.length) 0))

/-- The blocks of a row of bytes. -/
def blocksOf (bs : List Nat) : List (BitVec 128) := (chunks 16 (bs.length / 16 + 1) bs).map blockOf

/-- GHASH over additional data and ciphertext. -/
def ghash (h : BitVec 128) (aad ct : List Nat) : BitVec 128 :=
  (blocksOf aad ++ blocksOf ct ++ [BitVec.ofNat 128 (8 * aad.length * 2 ^ 64 + 8 * ct.length)]).foldl
    (fun y b => ghashMul (y ^^^ b) h 0 128) 0

/-- A block enciphered, as a number. -/
def aesNat (keys : List (List Byte)) (v : Nat) : BitVec 128 :=
  BitVec.ofNat 128 (numBE ((aesBlock keys ((bytesBE 16 v).map fun b => BitVec.ofNat 8 b)).map fun b => b.toNat))

/-- Counter mode over a row of bytes, from counter block 2 on, with a 12-byte IV. -/
def gcmStream (keys : List (List Byte)) (iv : List Nat) (bs : List Nat) : List Nat :=
  let ks := ((List.range ((bs.length + 15) / 16)).map fun i => bytesBE 16 (aesNat keys (numBE iv * 2 ^ 32 + 2 + i)).toNat).flatten
  (bs.zip ks).map fun p => p.1 % 256 ^^^ p.2

/-- The tag over additional data and ciphertext: 16 bytes. -/
def gcmTag (key iv aad ct : List Nat) : List Nat :=
  let keys := aesKeys key
  bytesBE 16 (ghash (aesNat keys 0) aad ct ^^^ aesNat keys (numBE iv * 2 ^ 32 + 1)).toNat

/-- AES-256-GCM encryption: ciphertext and tag. -/
def gcmEncrypt (key iv aad pt : List Nat) : List Nat × List Nat :=
  let ct := gcmStream (aesKeys key) iv pt
  (ct, gcmTag key iv aad ct)

/-- AES-256-GCM decryption: the plaintext and the tag of the ciphertext. -/
def gcmDecrypt (key iv aad ct : List Nat) : List Nat × List Nat := (gcmStream (aesKeys key) iv ct, gcmTag key iv aad ct)

/-! ## P-256 -/

def p256P : Nat := 2 ^ 256 - 2 ^ 224 + 2 ^ 192 + 2 ^ 96 - 1
def p256N : Nat := 0xffffffff00000000ffffffffffffffffbce6faada7179e84f3b9cac2fc632551
def p256B : Nat := 0x5ac635d8aa3a93e7b3ebbd55769886bc651d06b0cc53b0f63bce3c3e27d2604b
def p256Gx : Nat := 0x6b17d1f2e12c4247f8bce6e563a440f277037d812deb33a0f4a13945d898c296
def p256Gy : Nat := 0x4fe342e2fe1a7f9b8ee7eb4a7c0f9e162bce33576b315ececbb6406837bf51f5

/-- `b ^ e` modulo `m`, by the low `k` bits of `e`. -/
def powMod (m b e : Nat) : Nat → Nat
  | 0 => 1 % m
  | k + 1 =>
    let h := powMod m b (e / 2) k
    if e % 2 = 1 then h * h % m * b % m else h * h % m

/-- The inverse modulo a prime. -/
def invMod (m x : Nat) : Nat := powMod m x (m - 2) 256

/-- A point of the curve; `none` is the point at infinity. -/
abbrev Point : Type := Option (Nat × Nat)

/-- The curve's addition. -/
def pointAdd (p q : Point) : Point :=
  match p, q with
  | none, _ => q
  | _, none => p
  | some (x1, y1), some (x2, y2) =>
    let f := p256P
    if x1 = x2 && (y1 + y2) % f = 0 then none
    else
      let l := if x1 = x2 then (3 * x1 * x1 + f - 3) * invMod f (2 * y1) % f
        else (y2 + f - y1) * invMod f ((x2 + f - x1) % f) % f
      let x3 := (l * l + 2 * f - x1 - x2) % f
      some (x3, (l * ((x1 + f - x3) % f) + f - y1) % f)

/-- A multiple of a point, by the low `k` bits of the factor. -/
def pointMul (e : Nat) (p : Point) : Nat → Point
  | 0 => none
  | k + 1 =>
    let h := pointMul (e / 2) p k
    let d := pointAdd h h
    if e % 2 = 1 then pointAdd d p else d

/-- The coordinates name a point of the curve. -/
def onCurve (x y : Nat) : Bool := x < p256P && y < p256P && (y * y % p256P == (x * x * x + (p256P - 3) * x + p256B) % p256P)

/-- The base point. -/
def p256G : Point := some (p256Gx, p256Gy)

/-- A public key as R418 stores keys: 64 bytes, X then Y. -/
def publicKey (d : Nat) : List Nat :=
  match pointMul d p256G 256 with
  | some (x, y) => bytesBE 32 x ++ bytesBE 32 y
  | none => List.replicate 64 0

/-- An ECDSA signature of a digest with a nonce: 64 bytes, r then s. -/
def ecdsaSign (d : Nat) (digest : List Nat) (k : Nat) : List Nat :=
  let r := match pointMul k p256G 256 with
    | some (x, _) => x % p256N
    | none => 0
  bytesBE 32 r ++ bytesBE 32 (invMod p256N k * (numBE digest + r * d) % p256N)

/-- An ECDSA signature verified under a public key. -/
def ecdsaVerify (pub digest sig : List Nat) : Bool :=
  let x := numBE (pub.take 32)
  let y := numBE ((pub.drop 32).take 32)
  let r := numBE (sig.take 32)
  let s := numBE ((sig.drop 32).take 32)
  if !onCurve x y || r = 0 || s = 0 || p256N ≤ r || p256N ≤ s then false
  else
    let w := invMod p256N s
    match pointAdd (pointMul (numBE digest * w % p256N) p256G 256) (pointMul (r * w % p256N) (some (x, y)) 256) with
    | some (v, _) => v % p256N == r
    | none => false

/-- The shared X coordinate of ECDH, if the public key lies on the curve. -/
def ecdhShared (d : Nat) (pub : List Nat) : Option (List Nat) :=
  let x := numBE (pub.take 32)
  let y := numBE ((pub.drop 32).take 32)
  if onCurve x y then (pointMul d (some (x, y)) 256).map fun q => bytesBE 32 q.1 else none

end Sys2Proof.Machine
end

