-- ==== Sys2Proof/Machine/Write.lean ====
section
/-!
DEFINITION. What a write does to a register's fields under their access types and the block's LOCK (R11, spec/00_scope.md), and the
interrupts of the host link (R340, spec/12_dma_arbiter_semaphores.md).
-/
namespace Sys2Proof.Machine

/-- The register that holds the LOCK bit of the block or instance that holds address `a`: a CAN controller and a port has its own
(R11; spec/10_can_fd_controllers.md, spec/11_ethernet_ports.md). -/
def lockAddr (a : Nat) : Nat :=
  if 0x400E0000 ≤ a && a < 0x400F0000 then a / 0x1000 * 0x1000
  else if 0x400D0000 ≤ a && a < 0x400E0000 then 0x400D0000 + (a - 0x400D0000) / 0x4000 * 0x4000
  else a / 0x10000 * 0x10000

/-- The block or instance has a LOCK bit, and it is set. -/
def Sys.locked (s : Sys) (a : Nat) : Bool :=
  (match regAt (lockAddr a) with
    | some d => d.w1s.testBit 31
    | none => false) && (s.reg (lockAddr a)).msb

/-- A register's word after a write of `v`: each field under its access type; a RWL field of a locked block stays. -/
def RegDesc.store (d : RegDesc) (locked : Bool) (old v : Word) : Word :=
  let take : Word := BitVec.ofNat 32 d.rw ||| (if locked then 0 else BitVec.ofNat 32 d.rwl)
  let clear : Word := BitVec.ofNat 32 d.w1c &&& v
  let set : Word := BitVec.ofNat 32 d.w1s &&& v
  (((old &&& ~~~ take) ||| (v &&& take)) &&& ~~~ clear) ||| set

/-- R11: a write to the register at `a` stores its fields; a change of a locked RWL field is refused with 0x0111. -/
def Sys.storeReg (s : Sys) (a : Nat) (v : Word) : Sys :=
  match regAt a with
  | none => s
  | some d =>
    let lk := s.locked a
    let old := s.reg a
    let s1 := s.setReg a (d.store lk old v)
    if lk && ((old ^^^ v) &&& BitVec.ofNat 32 d.rwl) != 0 then s1.note 0x0111 else s1

/-- A write carried by a number. -/
def Sys.storeWord (s : Sys) (a v : Nat) : Sys := s.storeReg a (BitVec.ofNat 32 v)

/-- The value a register would hold after the write. -/
def Sys.wouldHold (s : Sys) (a v : Nat) : Word :=
  match regAt a with
  | none => s.reg a
  | some d => d.store (s.locked a) (s.reg a) (BitVec.ofNat 32 v)

/-! ## Interrupts (R340) -/

/-- Vector `k` signalled: sent when its entry of the MSI-X table is unmasked, else held in the pending-bit array (PRESUMED from PCI
Express, notes/assumptions/30.md). -/
def Sys.vector (s : Sys) (k : Nat) : Sys :=
  if (s.word (PCI_MSIX (4 * k + 3))).testBit 0 then s.putBit (PCI_PBA_BITS 0) k true
  else { s with signals := s.signals ++ [k] }

/-- A bit of an interrupt register sets: with its enable bit 1 the vector is signalled. -/
def Sys.signal (s : Sys) (int : Fld) (enabled : Bool) (k : Nat) : Sys :=
  if s.on int then s else let s1 := s.putB int true; if enabled then s1.vector k else s1

end Sys2Proof.Machine
end

