-- ==== Sys2Proof/Machine/Can.lean ====
section
/-!
DEFINITION. The CAN FD controllers (spec/10_can_fd_controllers.md): queues and attempts (R298, R299), errors and bus-off (R301, R302),
modes and rate detection (R303 to R307), and the spare controller (R308 to R310).
-/
namespace Sys2Proof.Machine

/-! ## Controllers and segments -/

/-- CAN_STAT.STATE. -/
abbrev canOff : Nat := 0
abbrev canActive : Nat := 1
abbrev canPassive : Nat := 2
abbrev canBusOff : Nat := 3
abbrev canRecovering : Nat := 4
abbrev canDetecting : Nat := 5
abbrev canFailedState : Nat := 6

/-- CAN_CTL.MODE (R303). -/
abbrev modeOff : Nat := 0
abbrev modeNormal : Nat := 1
abbrev modeListen : Nat := 2
abbrev modeDetect : Nat := 3

/-- CAN_STAT.ROLE (R294). -/
abbrev roleHitil : Nat := 1
abbrev roleHost : Nat := 2

def Sys.canAt (s : Sys) (k : Fin 9) : CanCtl := s.can[k]
def Sys.setCan (s : Sys) (k : Fin 9) (c : CanCtl) : Sys := { s with can := s.can.set k c }
def Sys.canRole (s : Sys) (k : Fin 9) : Nat := s.get (CAN_STAT_ROLE k.val)

/-- CAN8 serves the segment (R309). -/
def Sys.spared (s : Sys) (seg : Nat) : Bool := s.on CAN_SPMAP_USED && s.get CAN_SPMAP_SEG == seg

/-- The controller that serves a segment. -/
def Sys.canOf (s : Sys) (seg : Nat) : Fin 9 := if s.spared seg then 8 else Fin.ofNat 9 seg

/-- The segment that a controller serves. -/
def Sys.segOf (s : Sys) (k : Fin 9) : Nat := if k = 8 then s.get CAN_SPMAP_SEG else k.val

/-- An event of a controller (R312). -/
def Sys.canPost (s : Sys) (k : Fin 9) (code : Nat) (vals : List (Nat × Nat)) : Sys := s.post code 0 ((k.val, 1) :: vals)

/-- The state a controller is in. -/
def Sys.canState (s : Sys) (k : Fin 9) : Nat :=
  let c := s.canAt k
  if c.failed then canFailedState
  else if c.mode = modeOff then canOff
  else if c.mode = modeDetect then canDetecting
  else if c.busOff = 1 then canBusOff
  else if c.busOff = 2 then canRecovering
  else if 128 ≤ s.get (CAN_ERR_TEC k.val) || 128 ≤ s.get (CAN_ERR_REC k.val) then canPassive
  else canActive

/-- A controller's record given, with CAN_STAT.STATE and CAN_TXQ's fills after it. -/
def Sys.putCan (s : Sys) (k : Fin 9) (c : CanCtl) : Sys :=
  let s1 := s.setCan k c
  ((s1.put (CAN_STAT_STATE k.val) (s1.canState k)).put (CAN_TXQ_Q0FILL k.val) c.q0.length).put (CAN_TXQ_Q1FILL k.val) c.q1.length

def Sys.modCan (s : Sys) (k : Fin 9) (f : CanCtl → CanCtl) : Sys := s.putCan k (f (s.canAt k))

/-- A queue of a controller. -/
def CanCtl.queue (c : CanCtl) (q1 : Bool) : List CanRecord := if q1 then c.q1 else c.q0
def CanCtl.withQueue (c : CanCtl) (q1 : Bool) (l : List CanRecord) : CanCtl := if q1 then { c with q1 := l } else { c with q0 := l }

/-! ## The frame record (R296) -/

/-- The data bytes that a DLC codes. -/
def dlcLen (fd : Bool) (dlc : Nat) : Nat :=
  if dlc ≤ 8 then dlc else if !fd then 8 else nth 0 [12, 16, 20, 24, 32, 48, 64] (dlc - 9)

/-- The 96 bytes of a record. -/
def CanRecord.toBytes (r : CanRecord) (status : Nat) : List Nat :=
  bytesLE 4 (r.id % 2 ^ 29 + (if r.ide then 2 ^ 29 else 0) + (if r.rtr then 2 ^ 30 else 0))
    ++ bytesLE 4 (r.dlc % 16 + (if r.fdf then 16 else 0) + (if r.brs then 32 else 0) + (if r.esi then 64 else 0) + r.len % 128 * 256 + status % 256 * 65536)
    ++ bytesLE 8 r.time ++ bytesLE 4 r.tag ++ bytesLE 4 (Nat.min r.att 65535) ++ List.replicate 8 0
    ++ ((r.data.take r.len).map fun b => b % 256) ++ List.replicate (64 - Nat.min (r.data.length) r.len) 0

/-- The record in memory at `a`, a transmit entry of ring `source` at index `slot`. -/
def canRecordAt (m : List Host.Cell) (a source slot : Nat) : CanRecord :=
  let id := memRead m a 4
  let ctl := memRead m (a + 4) 4
  { id := bits id 0 29, ide := id.testBit 29, rtr := id.testBit 30, dlc := bits ctl 0 4, fdf := ctl.testBit 4, brs := ctl.testBit 5, esi := ctl.testBit 6,
    len := bits ctl 8 7, status := 0, time := 0, tag := memRead m (a + 16) 4, att := 0, data := memBytes m (a + 32) 64, source := source, slot := slot }

/-- A transmit record that R298 refuses, at the data rate in effect. -/
def CanRecord.refused (r : CanRecord) (drate : Nat) : Bool :=
  r.len != dlcLen r.fdf r.dlc || (r.brs && !r.fdf) || (r.rtr && r.fdf) || r.esi || (r.fdf && drate == 0) || (!r.ide && bits r.id 11 18 != 0)

/-! ## Completions (R298, R299, R339) -/

/-- A ring of a segment: its base, its size and the address of a record. -/
def Sys.ringSize (s : Sys) (seg ring : Nat) : Nat := 2 ^ s.get (DMA_CRCFG_LOG2 seg ring)
def Sys.ringAddr (s : Sys) (seg ring slot : Nat) : Nat := 32 * s.get (DMA_CRBASE_BASE seg ring) + 96 * slot

/-- The completion of a host entry written back over its record; HEAD advances past it. A Hitil entry has no record. -/
def Sys.canComplete (s : Sys) (k : Fin 9) (r : CanRecord) (status : Nat) : Sys :=
  if r.source = 0 then s
  else
    let seg := s.segOf k
    let t := if status = 0 then r.time else 0
    let s1 := if s.dramUp then s.putRow (s.ringAddr seg r.source r.slot) ({ r with time := t }.toBytes status) else s
    let s2 := s1.put (DMA_CRHEAD_HEAD seg r.source) ((r.slot + 1) % s.ringSize seg r.source)
    s2.signal ⟨DMA_CANINT, 8 * r.source + seg, 1⟩ (s2.on ⟨DMA_CANINTEN, 8 * r.source + seg, 1⟩) 9

/-- The STATUS of an aborted entry that is not on the bus. -/
def CanRecord.abortStatus (r : CanRecord) : Nat := if r.status = 4 then 4 else if r.att = 0 then 1 else 2

/-- The entries aborted behind the frame on the bus complete after it. -/
def Sys.flushAborted (s : Sys) (k : Fin 9) : Sys :=
  let l := (s.canAt k).aborted
  (l.foldl (fun s r => s.canComplete k r r.abortStatus) s).modCan k fun c => { c with aborted := [], abortActive := false, abortDue := false }

/-- Refused records at the head of a queue complete with STATUS 0x04 (R298). -/
def Sys.flushRefused (s : Sys) (k : Fin 9) (q1 : Bool) : Nat → Sys
  | 0 => s
  | fuel + 1 =>
    match (s.canAt k).queue q1 with
    | r :: rest => if r.status = 4 then Sys.flushRefused ((s.modCan k fun c => c.withQueue q1 rest).canComplete k r 4) k q1 fuel else s
    | [] => s

/-- The head of a queue leaves it with a status. -/
def Sys.canLeave (s : Sys) (k : Fin 9) (q1 : Bool) (status : Nat) : Sys :=
  match (s.canAt k).queue q1 with
  | r :: rest => (((s.modCan k fun c => c.withQueue q1 rest).canComplete k r status).flushAborted k).flushRefused k q1 16
  | [] => s

/-- R299: every entry of a queue aborted; a frame of it on the bus finishes its attempt first. -/
def Sys.canAbortQueue (s : Sys) (k : Fin 9) (q1 : Bool) : Sys :=
  let c := s.canAt k
  if s.on (CAN_TXQ_ACTIVE k.val) && s.on (CAN_TXQ_ACTQ k.val) == q1 then
    match c.queue q1 with
    | r :: rest => s.putCan k { c.withQueue q1 [r] with aborted := c.aborted ++ rest, abortActive := true }
    | [] => s
  else
    (c.queue q1).foldl (fun s r => s.canComplete k r r.abortStatus) (s.putCan k (c.withQueue q1 []))

/-- R311: a write to the controller of a Hitil segment. -/
def Sys.hitilOnly (s : Sys) (k : Fin 9) : Bool := s.canRole k == roleHitil

/-- A write of ABORT0 or ABORT1. -/
def Sys.canAbortCmd (s : Sys) (k : Fin 9) (q0 q1 : Bool) : Sys :=
  if s.hitilOnly k then s.canPost k 0x0E0C []
  else
    let s1 := if q0 then s.canAbortQueue k false else s
    if q1 then s1.canAbortQueue k true else s1

def execCanAbort (_who : Agent) (k : Fin 9) (q0 q1 : Bool) (s : State) : Host.Outcome State Fault Refusal := run (fun y => y.canAbortCmd k q0 q1) s

/-- 0x0E0D for a refused record, at most once per second (R298). -/
def Sys.refusedPost (s : Sys) (k : Fin 9) : Sys := s.postLimited (0x0E0D0000 + k.val) clocksPerSecond 0x0E0D 0 [(k.val, 1)]

/-- Heads that the data rate in effect no longer permits are refused without an attempt (R298). -/
def Sys.refuseHeads (s : Sys) (k : Fin 9) : Nat → Sys
  | 0 => s
  | fuel + 1 =>
    let c := s.canAt k
    let q1 := !c.q1.isEmpty
    match c.queue q1 with
    | r :: rest =>
      if r.source != 0 && r.refused (s.get (CAN_RATE_DRATE k.val)) then
        Sys.refuseHeads (((s.modCan k fun c => c.withQueue q1 rest).canComplete k r 4).refusedPost k) k fuel
      else s
    | [] => s

/-- The controller may start an attempt: it is in NORMAL, on its bus and without a frame on it, and a release of the clock monitor has not
stopped the exchange that it serves (R291). -/
def Sys.maySend (s : Sys) (k : Fin 9) : Bool :=
  let c := s.canAt k
  !s.on (CAN_TXQ_ACTIVE k.val) && c.mode == modeNormal && c.busOff == 0 && !c.failed && !(s.canRole k == roleHitil && s.hit.stopped)

/-- At bus idle an attempt starts with the head of Q1, else of Q0. -/
def Sys.canAttempt (s0 : Sys) (k : Fin 9) : Sys :=
  if !s0.maySend k then s0
  else
    let s := s0.refuseHeads k 32
    let c := s.canAt k
    let q1 := !c.q1.isEmpty
    match c.queue q1 with
    | r :: rest =>
      let r1 := { r with att := Nat.min (r.att + 1) 65535, time := s.ang.time }
      ((s.putCan k (c.withQueue q1 (r1 :: rest))).putB (CAN_TXQ_ACTIVE k.val) true).putB (CAN_TXQ_ACTQ k.val) q1
    | [] => s

def execCanTransmitAttempt (k : Fin 9) (s : State) : Host.Outcome State Fault Refusal := run (fun y => y.canAttempt k) s

/-! ## Errors and bus-off (R301, R302) -/

/-- An abort of the exchange that discards entries is counted, and posted once per cycle (R300). -/
def Sys.countAbort (s : Sys) (k : Fin 9) : Sys :=
  let s1 := if s.hit.abortPosted = some s.ang.cycle then s else s.canPost k 0x0E0F []
  { s1 with hit := { s1.hit with aborts := s1.hit.aborts + 1, abortPosted := some s.ang.cycle } }

/-- The frame on the bus ends without success: its entry stays, or leaves with STATUS 0x02 when it was aborted. -/
def Sys.attemptFails (s : Sys) (k : Fin 9) : Sys :=
  if s.on (CAN_TXQ_ACTIVE k.val) then
    let s1 := s.putB (CAN_TXQ_ACTIVE k.val) false
    let c := s.canAt k
    if c.abortActive then
      let s2 := s1.canLeave k (s.on (CAN_TXQ_ACTQ k.val)) 2
      if c.abortDue then s2.countAbort k else s2
    else s1
  else s

/-- The error counters take new values, with the events of the states they lead to. -/
def Sys.canCounters (s : Sys) (k : Fin 9) (tec rec : Nat) : Sys :=
  let before := s.canState k
  let s1 := (s.put (CAN_ERR_TEC k.val) (Nat.min tec 255)).put (CAN_ERR_REC k.val) (Nat.min rec 255)
  if 255 < tec && (s.canAt k).busOff = 0 then
    let s2 := (s1.modCan k fun c => { c with busOff := 1 }).incSat (CAN_BOFF_COUNT k.val)
    (s2.attemptFails k).canPost k 0x0E04 []
  else
    let s2 := s1.modCan k fun c => c
    if before = canActive && s2.canState k = canPassive then s2.canPost k 0x0E02 []
    else if before = canPassive && s2.canState k = canActive then s2.canPost k 0x0E03 []
    else s2

/-- ACAND and DCAND as rates in kbit/s (R305, R306). -/
def arbRate (c : Nat) : Nat := nth 125 [1000, 500, 250, 125] c
def dataRate (c : Nat) : Nat := nth 1000 [5000, 4000, 2000, 1000] c

/-- An error in an arbitration part moves the search on. -/
def Sys.nextArb (s : Sys) (k : Fin 9) : Sys :=
  let s1 := (s.put (CAN_ADSTAT_ACAND k.val) ((s.get (CAN_ADSTAT_ACAND k.val) + 1) % 4)).put (CAN_ADSTAT_DCAND k.val) 0
  (s1.putB (CAN_ADSTAT_DLOCK k.val) false).modCan k fun c => { c with good := 0 }

/-- An error in a data phase moves the data search on. -/
def Sys.nextData (s : Sys) (k : Fin 9) : Sys :=
  if s.on (CAN_ADSTAT_DLOCK k.val) then s else s.put (CAN_ADSTAT_DCAND k.val) ((s.get (CAN_ADSTAT_DCAND k.val) + 1) % 4)

/-- The data search goes on after the arbitration lock (R306). -/
def Sys.searching (s : Sys) (k : Fin 9) : Bool := s.get (CAN_ADSTAT_STATE k.val) == 2 && !s.on (CAN_ADSTAT_DLOCK k.val)

/-- What an error adds to a transmitter's and to a receiver's counter (ISO 11898-1; PRESUMED, notes/assumptions/31.md). -/
def transmitterStep (rule : CanErrorRule) (kind : Nat) (passive : Bool) : Nat :=
  if rule = .exempt || (rule = .frame && kind == 3 && passive) then 0 else 8

def receiverStep (rule : CanErrorRule) : Nat := if rule = .flag then 8 else 1

/-- R301: a protocol error of kind 1 to 6, as CAN_ERR.LEC codes it. In DETECT it moves the search on (R305); while the data rate is not
locked an error in a received data phase moves the data search on, and a controller in NORMAL takes it under the protocol exception
(R306, R307). -/
def Sys.canError (s : Sys) (k : Fin 9) (kind : Nat) (dataPhase transmitting : Bool) (rule : CanErrorRule) : Sys :=
  let c := s.canAt k
  let late := s.searching k && dataPhase && !transmitting
  if c.failed || c.mode = modeOff then s
  else if c.mode = modeDetect then (if c.nextMode.isSome then s else if dataPhase then s.nextData k else s.nextArb k)
  else if c.busOff != 0 then s
  else if late && c.mode = modeNormal then s.nextData k
  else
    let s1 := ((if late then s.nextData k else s).put (CAN_ERR_LEC k.val) kind).putB (CAN_ERR_DPH k.val) dataPhase
    let tec := s.get (CAN_ERR_TEC k.val)
    let rec_ := s.get (CAN_ERR_REC k.val)
    if transmitting && c.mode = modeNormal then (s1.attemptFails k).canCounters k (tec + transmitterStep rule kind (s.canState k == canPassive)) rec_
    else s1.canCounters k tec (rec_ + receiverStep rule)

def execCanBusError (k : Fin 9) (found : CanError) (dataPhase transmitting : Bool) (s : State) : Host.Outcome State Fault Refusal :=
  run (fun y => y.canError k found.kind dataPhase transmitting found.rule) s

/-- A bus-off controller starts the recovery sequence. -/
def Sys.canRecover (s : Sys) (k : Fin 9) : Sys :=
  if s.canState k = canBusOff then s.modCan k fun c => { c with busOff := 2 } else s

/-- A write of RECOVER. -/
def Sys.canRecoverCmd (s : Sys) (k : Fin 9) : Sys := if s.hitilOnly k then s.canPost k 0x0E0C [] else s.canRecover k

def execRecover (_who : Agent) (k : Fin 9) (s : State) : Host.Outcome State Fault Refusal := run (fun y => y.canRecoverCmd k) s

/-- HOLD × 10 ms after bus-off entry. -/
def Sys.canHoldExpired (s : Sys) (k : Fin 9) : Sys := if s.on (CAN_CTL_AUTOREC k.val) || s.hitilOnly k then s.canRecover k else s

def execBusOffHoldExpired (k : Fin 9) (s : State) : Host.Outcome State Fault Refusal := run (fun y => y.canHoldExpired k) s

/-- The recovery sequence ends. -/
def Sys.canRecovered (s : Sys) (k : Fin 9) : Sys :=
  if s.canState k = canRecovering then
    (((s.put (CAN_ERR_TEC k.val) 0).put (CAN_ERR_REC k.val) 0).modCan k fun c => { c with busOff := 0 }).canPost k 0x0E05 []
  else s

def execBusOffRecovered (k : Fin 9) (s : State) : Host.Outcome State Fault Refusal := run (fun y => y.canRecovered k) s

/-! ## Modes and rate detection (R303 to R307) -/

/-- The rates in effect. -/
def Sys.setRates (s : Sys) (k : Fin 9) (a d : Nat) : Sys := (s.put (CAN_RATE_ARATE k.val) a).put (CAN_RATE_DRATE k.val) d

/-- The search starts at the first candidate. -/
def Sys.startSearch (s : Sys) (k : Fin 9) : Sys :=
  let s1 := ((s.setWord (CAN_ADSTAT k.val) 0).put (CAN_ADSTAT_STATE k.val) 1).setRates k 0 0
  s1.modCan k fun c => { c with mode := modeDetect, good := 0, nextMode := none }

/-- A mode asked for takes effect at bus idle. -/
def Sys.canApplyMode (s : Sys) (k : Fin 9) : Sys :=
  match (s.canAt k).nextMode with
  | none => s
  | some m =>
    let c := s.canAt k
    if c.failed then s
    else if m = modeDetect then s.startSearch k
    else
      let s1 := if s.get (CAN_ADSTAT_STATE k.val) = 1 then s.put (CAN_ADSTAT_STATE k.val) 0 else s
      let s2 := if m = modeOff || s1.get (CAN_ADSTAT_STATE k.val) = 2 then s1 else s1.setRates k c.arate c.drate
      s2.modCan k fun c => { c with mode := m, nextMode := none }

def execCanModeApply (k : Fin 9) (s : State) : Host.Outcome State Fault Refusal := run (fun y => y.canApplyMode k) s

/-- The mode is refused (R303, R304). -/
def Sys.modeRefused (s : Sys) (k : Fin 9) (mode : Nat) : Bool :=
  mode != modeOff && (s.canRole k == 0 ||
    (s.canRole k == roleHost && (s.canAt k).arate == 0 && mode != modeDetect && s.get (CAN_ADSTAT_STATE k.val) != 2))

/-- A mode asked for. -/
def Sys.askMode (s : Sys) (k : Fin 9) (mode : Nat) : Sys :=
  (s.put (CAN_CTL_MODE k.val) mode).modCan k fun c => { c with nextMode := some mode }

/-- A write of CAN_CTL.MODE. -/
def Sys.canModeCmd (s : Sys) (k : Fin 9) (mode : Nat) : Sys :=
  if s.hitilOnly k then s.canPost k 0x0E0C []
  else if s.modeRefused k (mode % 4) then s.canPost k 0x0E0E []
  else s.askMode k (mode % 4)

def execCanModeWrite (_who : Agent) (k : Fin 9) (mode : Nat) (s : State) : Host.Outcome State Fault Refusal := run (fun y => y.canModeCmd k mode) s

/-- TMO seconds in DETECT without a lock. -/
def Sys.detectTimeout (s : Sys) (k : Fin 9) : Sys :=
  if (s.canAt k).mode = modeDetect && (s.canAt k).nextMode.isNone && s.get (CAN_ADSTAT_STATE k.val) = 1 then s.canPost k 0x0E0A [] else s

def execDetectTimeout (k : Fin 9) (s : State) : Host.Outcome State Fault Refusal := run (fun y => y.detectTimeout k) s

/-- 0x0E0B with the rates found, shown in CAN_RATE. -/
def Sys.showLock (s : Sys) (k : Fin 9) : Sys :=
  let a := arbRate (s.get (CAN_ADSTAT_ACAND k.val))
  let d := if s.on (CAN_ADSTAT_DLOCK k.val) then dataRate (s.get (CAN_ADSTAT_DCAND k.val)) else 0
  (s.setRates k a d).canPost k 0x0E0B [(a, 2), (d, 2)]

/-- A data phase decoded during the search. -/
def Sys.searchData (s : Sys) (k : Fin 9) (ok : Bool) : Sys :=
  if s.on (CAN_ADSTAT_DLOCK k.val) then s else if ok then s.putB (CAN_ADSTAT_DLOCK k.val) true else s.nextData k

/-- A frame in DETECT; at LOCKN frames without an error the arbitration rate locks. A mode asked for has ended the search (R304, R307). -/
def Sys.searchFrame (s : Sys) (k : Fin 9) (f : CanInput) : Sys :=
  if (s.canAt k).nextMode.isSome then s
  else if !f.arbOk then s.nextArb k
  else
    let s1 := (if f.fdf && f.brs then s.searchData k f.dataOk else s).modCan k fun c => { c with good := c.good + 1 }
    if (s1.canAt k).good < s1.get (CAN_ADCTL_LOCKN k.val) then s1
    else
      let m := if s1.on (CAN_ADCTL_GOACT k.val) then modeNormal else modeListen
      let s2 := (s1.put (CAN_ADSTAT_STATE k.val) 2).put (CAN_CTL_MODE k.val) m
      (s2.modCan k fun c => { c with mode := m }).showLock k

/-- R306: a frame with BRS while the data rate is not locked serves the search. -/
def Sys.searchLate (s : Sys) (k : Fin 9) (f : CanInput) : Sys :=
  let s1 := s.searchData k f.dataOk
  if s1.on (CAN_ADSTAT_DLOCK k.val) then s1.showLock k else s1

/-! ## Receiving (R297) -/

/-- A frame received without error: the receive counter falls as ISO 11898-1 says (from error-passive to a value between 119 and 127,
which is open). -/
def Sys.goodReception (s : Sys) (k : Fin 9) : Sys :=
  let r := s.get (CAN_ERR_REC k.val)
  let s1 := s.incWrap (CAN_RXCNT_COUNT k.val)
  if 127 < r then s1.draw.2.canCounters k (s.get (CAN_ERR_TEC k.val)) (119 + s1.draw.1 % 9)
  else s1.canCounters k (s.get (CAN_ERR_TEC k.val)) (r - 1)

/-- The record of a received frame with its start-of-frame bit at `sof`. -/
def frameRecord (f : CanInput) (sof : Nat) : CanRecord :=
  let n := dlcLen f.fdf f.dlc
  { id := f.id, ide := f.ide, rtr := f.rtr, dlc := f.dlc, fdf := f.fdf, brs := f.brs, esi := f.esi, len := n, status := 0, time := sof, tag := 0,
    att := 0, data := (f.data ++ List.replicate n 0).take n, source := 0, slot := 0 }

/-- The receive FIFO is full: 32 records lie in it, the ring has no free record, the DRAM has failed or the data plane is absent. -/
def Sys.fifoFull (s : Sys) (k : Fin 9) : Bool :=
  let seg := s.segOf k
  32 ≤ (s.canAt k).fifo.length || s.get (DMA_CRHEAD_HEAD seg 0) == s.get (DMA_CRTAIL_TAIL seg 0) % s.ringSize seg 0 || s.dramGap.isSome

/-- A frame on a host segment goes into the FIFO, or is dropped whole. -/
def Sys.toFifo (s : Sys) (k : Fin 9) (f : CanInput) (sof : Nat) : Sys :=
  let c := s.canAt k
  if !s.fifoFull k then s.putCan k { c with fifo := c.fifo ++ [frameRecord f sof] }
  else (s.incSat (CAN_RXDROP_COUNT k.val)).postLimited (0x0E090000 + k.val) clocksPerSecond 0x0E09 0 [(k.val, 1)]

/-! ## The spare controller (R308 to R310) -/

/-- CAN8 can take a segment. -/
def Sys.spareFree (s : Sys) : Bool := !s.on CAN_SPMAP_USED && !(s.canAt 8).failed

/-- A segment whose own controller has failed and that CAN8 does not serve. -/
def Sys.unserved (s : Sys) (seg : Nat) : Bool :=
  (s.canAt (Fin.ofNat 9 seg)).failed && s.get (CAN_STAT_ROLE seg) != 0 && !s.spared seg

/-- 0x0E08 for the unserved segments, once CAN8 cannot take them any more (R310). -/
def Sys.noSpare (s : Sys) : Sys :=
  if s.spareFree then s else ((List.range 8).filter s.unserved).foldl (fun y seg => y.canPost (Fin.ofNat 9 seg) 0x0E08 []) s

/-- R308: a controller fails with a cause (1 self-test, 2 checker, 3 uncorrectable, 4 forced). A segment that it served waits for CAN8
(R309), or is left without a controller (R310). -/
def Sys.canFails (s : Sys) (k : Fin 9) (cause : Nat) : Sys :=
  let c := s.canAt k
  if c.failed then s
  else
    let lost := c.q0.length + c.q1.length + c.aborted.length
    let s1 := (c.q0 ++ c.q1 ++ c.aborted).foldl (fun s r => s.canComplete k r 3) s
    let s2 := (s1.putCan k { c with q0 := [], q1 := [], aborted := [], abortActive := false, abortDue := false, failed := true }).putB (CAN_TXQ_ACTIVE k.val) false
    let s3 := (if cause = 1 then s2.canPost k 0x0E01 [] else s2).canPost k 0x0E06 [(cause, 1), count32 lost]
    let s4 := if k = 8 then s3.putB CAN_SPMAP_SPFAIL true else s3
    let s5 := if cause = 4 then s4 else { s4 with loft := { s4.loft with failedCan := insertAsc k.val s4.loft.failedCan } }
    if k = 8 then (if s.on CAN_SPMAP_USED then s5.canPost k 0x0E08 [] else s5.noSpare)
    else if s.canRole k != 0 && !s5.spareFree then s5.canPost k 0x0E08 [] else s5

def execCanControllerFailed (k : Fin 9) (cause : Nat) (s : State) : Host.Outcome State Fault Refusal := run (fun y => y.canFails k cause) s

/-- The segment takes CAN8: its role, rates and mode, a mode asked for included, which takes effect as CAN8 joins the bus. -/
def Sys.spareTakes (s : Sys) (k : Fin 9) : Sys :=
  let c := s.canAt k
  let s1 := ((s.putB CAN_SPMAP_USED true).put CAN_SPMAP_SEG k.val).putB (CAN_STAT_SPARED k.val) true
  let s2 := (((s1.put (CAN_STAT_ROLE 8) (s.canRole k)).put (CAN_CTL_MODE 8) (s.get (CAN_CTL_MODE k.val))).setWord (CAN_ERR 8) 0).setWord (CAN_ADSTAT 8)
    (s.word (CAN_ADSTAT k.val))
  let s3 := (s2.setWord (CAN_RATE 8) (s.word (CAN_RATE k.val))).putCan 8 { CanCtl.zero with
    mode := c.mode, arate := c.arate, drate := c.drate, good := c.good, rxSeq := c.rxSeq }
  let s4 := if c.mode = modeDetect then s3.startSearch 8 else s3
  (s4.modCan 8 fun x => { x with nextMode := c.nextMode }).canApplyMode 8

/-- R309: CAN8 takes the place of a failed controller; other segments without one are left so (R310). -/
def Sys.canSpareIn (s : Sys) : Sys :=
  match (List.range 8).find? s.unserved with
  | some seg =>
    if s.spareFree then
      let k := Fin.ofNat 9 seg
      let s1 := (s.spareTakes k).canPost 8 0x0E07 [(seg, 1)]
      (if s.loft.failedCan.contains seg then { s1 with loft := { s1.loft with canSpare := some seg } } else s1).noSpare
    else s
  | none => s

def execCanSpareIn (s : State) : Host.Outcome State Fault Refusal := run Sys.canSpareIn s

/-- R310: a forced substitution. -/
def execForcedSubstitution (seg : Fin 8) (s : State) : Host.Outcome State Fault Refusal :=
  run (fun y => y.canFails (Fin.ofNat 9 seg.val) 4) s

/-! ## Configuration (R242, R303, R304) -/

/-- Entries that wait for a controller whose segment leaves its role are aborted: a host's belong to no Hitil segment, nor the exchange's to
a host segment (R294, R300). -/
def Sys.endRole (s : Sys) (k : Fin 9) (seg : Nat) : Sys :=
  let s1 := (s.canAbortQueue k false).canAbortQueue k true
  { s1 with hit := { s1.hit with backlog := s1.hit.backlog.filter fun e => e.1 != seg } }

/-- A segment of the set in force: its controller takes role and rates, and enters the mode that its role gives. A failed controller
keeps them for CAN8 (R309), or leaves its segment without a controller (R310). -/
def Sys.loadSegment (s0 : Sys) (seg : Nat) : Sys :=
  let r := canSegment s0.image seg
  let k := s0.canOf seg
  let old := s0.get (CAN_STAT_ROLE seg)
  let s := if old = r.1 then s0 else s0.endRole k seg
  let s1 := (s.put (CAN_STAT_ROLE k.val) r.1).put (CAN_STAT_ROLE seg) r.1
  let s2 := (s1.setRates k r.2.1 r.2.2).setWord (CAN_ADSTAT k.val) 0
  let s3 := s2.modCan k fun c => { c with arate := r.2.1, drate := r.2.2 }
  let s4 := if r.1 = 0 then (s3.put (CAN_CTL_MODE k.val) modeOff).modCan k fun c => { c with mode := modeOff, nextMode := none }
    else if r.1 = roleHost && r.2.1 = 0 then s3.askMode k modeDetect
    else s3.askMode k modeNormal
  if old = 0 && s4.unserved seg && !s4.spareFree then s4.canPost (Fin.ofNat 9 seg) 0x0E08 [] else s4

/-- The eight segments. -/
def Sys.loadCan (s : Sys) : Sys := (List.range 8).foldl Sys.loadSegment s

end Sys2Proof.Machine
end

