-- ==== Sys2Proof/Machine/Fabric.lean ====
section
/-!
DEFINITION. The structure fabric (spec/08_structure_image_and_fabric.md): sampling and filtering of input channels (R247,
R249), outputs and their apply instants (R248), timed switching (R250, R251), DALI lines (R253 to R256), the scrub and the
failures of its configuration memory and cells (R259 to R262), the bank supplies (R263), and release (R264).
-/
namespace Sys2Proof.Machine

/-- FAB_STAT.STATE. -/
abbrev fabOff : Nat := 0
abbrev fabRun : Nat := 1
abbrev fabReload : Nat := 2
abbrev fabFailed : Nat := 3

/-- VOT_STAT.CUFF. -/
abbrev cuffLive : Nat := 0
abbrev cuffHolding : Nat := 1
abbrev cuffReleased : Nat := 2

/-- Quality bits (R107). -/
abbrev qBad : Nat := 1
abbrev qStale : Nat := 2
abbrev qStuck : Nat := 4
abbrev qChatter : Nat := 8
abbrev qRange : Nat := 16
abbrev qFailed : Nat := 32
abbrev qInit : Nat := 128
abbrev qExcess : Nat := 256

/-- A channel that has sampled nothing and drives nothing. -/
def Channel.zero : Channel where
  level := false
  since := 0
  stamp := 0
  accepted := false
  lastEdge := 0
  edges := 0
  base := 0
  held := 0
  chatter := false
  quiet := 0
  stuck := false
  reference := 0
  ranged := false
  count := 0
  excess := 0
  excessSeen := 0
  rise := none
  lastPulse := none
  conversions := []
  value := 0
  dac := 0
  aux := 0
  qual := qInit
  init := true
  driven := false
  state := false
  pending := none
  switchTime := 0
  pwmNext := none
  cellFailed := false
  spare := none
  fresh := false

/-- A line with nothing queued. -/
def DaliLine.zero : DaliLine where
  lastSeq := 0
  queue := []
  sending := none
  onBus := false
  attempts := 0
  copy := 0
  answering := false
  retrying := false
  response := 0
  completed := 0
  failed := false
  qual := qInit
  init := true

/-- A channel's running state. -/
def Sys.chan (s : Sys) (k : Nat) : Channel := lookupD Channel.zero s.fab.channels k

/-- A channel's running state given. -/
def Sys.setChan (s : Sys) (k : Nat) (c : Channel) : Sys := { s with fab := { s.fab with channels := putKey s.fab.channels k c } }

/-- A channel's running state changed. -/
def Sys.modChan (s : Sys) (k : Nat) (f : Channel → Channel) : Sys := s.setChan k (f (s.chan k))

/-- A channel's record. -/
def Sys.chanRec (s : Sys) (k : Nat) : ChanRec := Sys2Proof.Machine.chanRec s.image k

/-- The 192 channels. -/
def allChannels : List Nat := List.range 192

/-- A line's running state. -/
def Sys.dali (s : Sys) (l : Nat) : DaliLine := lookupD DaliLine.zero s.fab.lines l

/-- A line's running state changed, with FAB_DLSTATl's QFILL and STATE after it. -/
def Sys.modDali (s : Sys) (l : Nat) (f : DaliLine → DaliLine) : Sys :=
  let d := f (s.dali l)
  let st := if (lineRec s.image l).isNone then 0 else if d.failed then 3 else if d.sending.isSome then 2 else 1
  (({ s with fab := { s.fab with lines := putKey s.fab.lines l d } }).put (FAB_DLSTAT_QFILL l) d.queue.length).put (FAB_DLSTAT_STATE l) st

/-- An event of a channel, under the locker of its main point (R249, R265). -/
def Sys.chanPost (s : Sys) (k code : Nat) (vals : List (Nat × Nat)) : Sys :=
  s.post code (s.pointLocker (s.chanRec k).point) ((k, 1) :: vals)

/-- An event of a DALI line, under the locker of its command point. -/
def Sys.linePost (s : Sys) (l code : Nat) (vals : List (Nat × Nat)) : Sys :=
  s.post code (match lineRec s.image l with
    | some r => s.pointLocker r.cmdpt
    | none => 0) ((l, 1) :: vals)

/-! ## What keeps a channel from working -/

/-- The bank of a channel is released (R263). -/
def Sys.bankFails (s : Sys) (k : Nat) : Bool := s.bit FAB_BANK_BFAIL (k / 32)

/-- The cell, the bank or the fabric of a channel has failed (R249). -/
def Sys.chanFails (s : Sys) (k : Nat) : Bool :=
  s.get FAB_STAT_STATE == fabFailed || ((s.chan k).cellFailed && (s.chan k).spare.isNone) || s.bankFails k

/-- Outputs may be driven: the fabric runs and the cuff is not RELEASED. -/
def Sys.mayDrive (s : Sys) (k : Nat) : Bool :=
  s.get FAB_STAT_STATE == fabRun && s.get VOT_STAT_CUFF != cuffReleased && !s.chanFails k && !(s.chan k).fresh

/-! ## Release (R264) -/

/-- A channel's output released: undriven, no pending switch, no waveform. -/
def Channel.release (c : Channel) : Channel := { c with driven := false, pending := none, pwmNext := none }

/-- A line released: its queue is emptied and its frame abandoned. -/
def DaliLine.release (d : DaliLine) : DaliLine :=
  { d with queue := [], sending := none, onBus := false, attempts := 0, copy := 0, answering := false, retrying := false }

/-- The line that a channel sends or receives for. -/
def Sys.lineOf (s : Sys) (k : Nat) : Option LineRec := (lineRecs s.image).find? fun r => r.tx == k || r.rx == k

/-- One channel released, with its line when it sends for one. -/
def Sys.releaseChan (s : Sys) (k : Nat) : Sys :=
  let s1 := s.modChan k Channel.release
  match (lineRecs s.image).find? fun r => r.tx == k with
  | some r => s1.modDali r.line DaliLine.release
  | none => s1

/-- Every local channel and DALI line released. -/
def Sys.releaseAll (s : Sys) : Sys := allChannels.foldl Sys.releaseChan s

/-! ## Input filtering (R249) -/

/-- A level as the function sees it, after INV. -/
def ChanRec.high (r : ChanRec) (level : Bool) : Bool := level != r.inv

/-- The 1 µs sample at or after the present fabric clock (R247). -/
def Sys.sampleClock (s : Sys) : Nat := (s.fclk + 199) / 200 * 200

/-- A pulse that has lasted MINW counts, or goes to the excess count when it starts less than MININT after the last one counted. -/
def Channel.pulse (r : ChanRec) (now : Nat) (c : Channel) : Channel :=
  match c.rise with
  | none => c
  | some t =>
    if now < t + 200 * bits r.p2 0 16 then c
    else
      let near : Bool := match c.lastPulse with
        | some q => t < q + 200 * r.p1
        | none => false
      if near then { c with rise := none, excess := (c.excess + 1) % 2 ^ 32 }
      else { c with rise := none, lastPulse := some t, count := (c.count + 1) % 2 ^ 32 }

/-- An accepted edge: it is stamped, ends STUCK, counts for chatter, and begins or ends a pulse. -/
def Sys.acceptEdge (s : Sys) (k : Nat) : Sys :=
  let r := s.chanRec k
  let c := s.chan k
  let c1 := { c with accepted := c.level, lastEdge := c.stamp % 2 ^ 32, quiet := 0, stuck := false }
  if r.func = 5 then
    let up := r.high c.level
    let c2 := if up then c1 else c1.pulse r c.since
    s.setChan k { c2 with rise := if up then some c.since else none }
  else
    let s1 := if c.stuck then s.chanPost k 0x1008 [] else s
    let e := c.edges + 1
    if r.chmax != 0 && r.chmax < e && !c.chatter then
      (s1.chanPost k 0x1009 []).setChan k { c1 with edges := e, chatter := true, held := c.base }
    else s1.setChan k { c1 with edges := e }

/-- The channel filters a digital pin. -/
def ChanRec.digital (r : ChanRec) : Bool := r.func == 1 || r.func == 5

/-- The level has stood unchanged for DEB µs and differs from the accepted one. -/
def Channel.due (r : ChanRec) (now : Nat) (c : Channel) : Bool := c.level != c.accepted && c.since + 200 * r.deb ≤ now

/-- What the passing of time brings to a channel: a level accepted, a pulse counted. -/
def Sys.settleChan (s : Sys) (k : Nat) : Sys :=
  let r := s.chanRec k
  if !r.digital || s.chanFails k then s
  else
    let s1 := if (s.chan k).due r s.fclk then s.acceptEdge k else s
    if r.func = 5 then s1.modChan k (Channel.pulse r s.fclk) else s1

/-- R249: a pin's level changes, `clocks` fabric clocks after the last event. The edge is stamped with TIME at the first 1 µs sample that
shows it; with no debounce it is accepted there. -/
def Sys.pinEdge (s0 : Sys) (k : Nat) (level : Bool) (clocks : Nat) : Sys :=
  let s := (s0.elapse clocks).settleChan k
  if 192 ≤ k || (s.chan k).level = level then s
  else (s.modChan k fun c => { c with level := level, since := s.sampleClock, stamp := (s.elapse (s.sampleClock - s.fclk)).ang.time }).settleChan k

def execPinEdge (uc : Nat) (level : Bool) (clocks : Nat) (s : State) : Host.Outcome State Fault Refusal :=
  run (fun y => y.pinEdge uc level clocks) s

/-- R249: a level that has stood for DEB µs is accepted. -/
def Sys.levelAccepted (s : Sys) (k : Nat) : Sys :=
  let c := s.chan k
  if c.level = c.accepted then s.settleChan k
  else (s.elapse (c.since + 200 * (s.chanRec k).deb - s.fclk)).settleChan k

def execLevelAccepted (uc : Nat) (s : State) : Host.Outcome State Fault Refusal := run (fun y => y.levelAccepted uc) s

/-- R249: no edge or change for TOUT cycles. -/
def Sys.stuckTimeout (s : Sys) (k : Nat) : Sys :=
  let r := s.chanRec k
  let c := s.chan k
  if (r.func == 1 || r.func == 3) && r.tout != 0 && r.tout ≤ c.quiet && !c.stuck then
    (s.chanPost k 0x1007 []).setChan k { c with stuck := true }
  else s

def execStuckTimeout (uc : Nat) (s : State) : Host.Outcome State Fault Refusal := run (fun y => y.stuckTimeout uc) s

/-- What the end of a cycle's edges, at its sample instant, brings to a channel: a cycle more without an edge, and where a chatter window
starts with the next cycle the end of CHATTER after a whole window with at most CHMAX edges. `cycle` is that next cycle (R247, R249). -/
def Sys.chanCycle (cycle : Nat) (s : Sys) (k : Nat) : Sys :=
  let r := s.chanRec k
  let c := s.chan k
  if r.func = 0 then s
  else
    let c1 := { c with quiet := c.quiet + 1 }
    if r.func = 1 && r.chmax != 0 && cycle % Nat.max r.chwin 1 == 0 then
      let ends := c.chatter && c.edges ≤ r.chmax
      let s1 := if ends then s.chanPost k 0x100A [] else s
      s1.setChan k { c1 with edges := 0, base := c.value, chatter := c.chatter && !ends }
    else s.setChan k c1

/-! ## Sampling (R247) -/

/-- The open collector bank (R19, R21). -/
def Sys.openBank (s : Sys) : Nat := if s.col.bankB then 0x20080000 else 0x20000000

/-- A word of the open bank. -/
def Sys.setBank (s : Sys) (point v : Nat) : Sys := s.wr (s.openBank + 4 * point) 4 v

/-- The mean of the last 2^AVG conversions, rounded down; with fewer the spec states none. -/
def Sys.analogMean (s : Sys) (r : ChanRec) (c : Channel) : Nat × Sys :=
  let k := 2 ^ bits r.p2 16 3
  if k ≤ c.conversions.length then (((c.conversions.take k).foldl (· + ·) 0) / k, s)
  else (s.draw.1 % 65536, s.draw.2)

/-- An analog channel that works is sampled: range, and a change beyond SDELTA from the value at the last restart. -/
def Sys.sampleAnalog (s : Sys) (k : Nat) : Sys :=
  let r := s.chanRec k
  let m := s.analogMean r (s.chan k)
  let v := m.1
  let s1 := m.2
  let c := s1.chan k
  let out := v < bits r.p1 0 16 || bits r.p1 16 16 < v
  let moved := bits r.p2 0 16 < (if v < c.reference then c.reference - v else v - c.reference)
  let s2 := if moved && c.stuck then s1.chanPost k 0x1008 [] else s1
  let s3 := if out && !c.ranged then s2.chanPost k 0x100B [] else s2
  let stuck := c.stuck && !moved
  s3.setChan k { c with
    value := v, ranged := out, stuck := stuck, init := false
    quiet := if moved || c.init then 0 else c.quiet, reference := if moved || c.init then v else c.reference
    qual := (if out then qRange else 0) + (if stuck then qStuck else 0) }

/-- The value and the quality of a channel that works. -/
def Sys.sampleOk (s0 : Sys) (k : Nat) : Sys :=
  let s := s0.settleChan k
  let r := s.chanRec k
  let c := s.chan k
  if r.func = 1 then
    let v := if c.chatter then c.held else if r.high c.accepted then 1 else 0
    s.setChan k { c with
      value := v, aux := c.lastEdge, init := false
      qual := (if c.stuck then qStuck else 0) + (if c.chatter then qChatter else 0) }
  else if r.func = 3 then s.sampleAnalog k
  else if r.func = 5 then
    s.setChan k { c with value := c.count, aux := c.excess, excessSeen := c.excess, init := false, qual := if c.excess = c.excessSeen then 0 else qExcess }
  else if r.func = 9 then s.setChan k { c with aux := c.switchTime, init := false, qual := 0 }
  else s.setChan k { c with init := false, qual := 0 }

/-- A channel at the sample instant, its points written into the open bank. Inputs keep sampling through a global reload (R264). -/
def Sys.sampleChan (s : Sys) (k : Nat) : Sys :=
  let r := s.chanRec k
  if r.func = 0 then s
  else
    let s1 := if s.chanFails k then s.modChan k fun c => { c with qual := qBad + qFailed + (if c.init then qInit else 0) }
      else if s.get FAB_STAT_STATE = fabRun || s.get FAB_STAT_STATE = fabReload then s.sampleOk k else s
    let c := s1.chan k
    let s2 := if r.func = 1 || r.func = 3 || r.func = 5 then s1.setBank r.point c.value else s1
    if r.auxen then s2.setBank r.auxpt c.aux else s2

/-- A DALI line at the sample instant: its response, and the quality of its two channels (R255, R256). -/
def Sys.sampleLine (s : Sys) (r : LineRec) : Sys :=
  let bad := s.chanFails r.tx || s.chanFails r.rx
  let d := s.dali r.line
  let q := if bad || d.failed then qBad + qFailed + (if bad && d.init then qInit else 0) else 0
  let s1 := s.modDali r.line fun d => { d with qual := q, init := d.init && bad }
  s1.setBank r.rsppt d.response

/-- Conversions of an analog channel, the newest last, taken into its memory of the last 64. -/
def Sys.convert (s : Sys) (x : Nat × List Nat) : Sys :=
  s.modChan x.1 fun c => { c with conversions := (x.2.reverse.map (fun v => v % 65536) ++ c.conversions).take 64 }

/-- An angle of the cycle comes: on a grid that runs TIME is there or counts toward it. -/
def Sys.angleComes (s : Sys) (angle : Nat) : Bool := !s.ang.requested || s.arrives (s.ang.start + angle)

/-- The instant of an angle of the cycle. -/
def Sys.reachAngle (s : Sys) (angle : Nat) : Sys := if s.ang.requested then s.reach (s.ang.start + angle) else s

/-- R247: at the cycle's start plus SAMPLE every input channel is taken, and its edges count for the next cycle from then on. -/
def Sys.channelSample (s0 : Sys) (conversions : List (Nat × List Nat)) : Sys :=
  if !s0.angleComes (structSample s0.image) then s0
  else
    let s := conversions.foldl Sys.convert (s0.reachAngle (structSample s0.image))
    allChannels.foldl (Sys.chanCycle (s.ang.cycle + 1)) ((lineRecs s.image).foldl Sys.sampleLine (allChannels.foldl Sys.sampleChan s))

def execChannelSample (conversions : List (Nat × List Nat)) (s : State) : Host.Outcome State Fault Refusal :=
  run (fun y => y.channelSample conversions) s

/-- A quality word of the cycle context in control SRAM (R19, R109). -/
def Sys.setQuality (s : Sys) (src q : Nat) : Sys := s.wr (0x201A0000 + qualityOffset src) 2 q

/-- The quality of a channel's source: that of its last sample, or the fabric's failure (R249, R262). -/
def Sys.channelQuality (s : Sys) (k : Nat) : Nat :=
  let c := s.chan k
  if s.get FAB_STAT_STATE = fabFailed then qBad + qFailed + (if c.init then qInit else 0) else c.qual

/-- The quality of a DALI line's source. -/
def Sys.lineQuality (s : Sys) (l : Nat) : Nat :=
  let d := s.dali l
  if s.get FAB_STAT_STATE = fabFailed then qBad + qFailed + (if d.init then qInit else 0) else d.qual

/-- The quality words of the sources 0 to 207 in the cycle context (R108, R109): unused channels and lines carry 0. -/
def Sys.localSources (s : Sys) : Sys :=
  let used := ((allChannels.filter fun k => (s.chanRec k).func != 0).map fun k => (k, s.channelQuality k))
    ++ (lineRecs s.image).map fun r => (192 + r.line, s.lineQuality r.line)
  used.foldl (fun s x => s.setQuality x.1 x.2) { s with mem := memZero s.mem 0x201A0040 0x1A0 }

/-! ## Outputs (R248, R250, R251, R253) -/

/-- A word of the output stage (R19). -/
def Sys.stageWord (s : Sys) (point : Nat) : Nat := s.rd (0x20100000 + 4 * point) 4

/-- The apply angle of a channel (R240). -/
def Sys.applyAngle (s : Sys) (r : ChanRec) : Nat := if r.appdef then structApply s.image else r.apply

/-- A pending switch that is due executes. -/
def Channel.switchDue (time : Nat) (c : Channel) : Channel :=
  match c.pending with
  | some w => if w.angle ≤ time then { c with pending := none, state := w.dest, driven := true, switchTime := w.angle % 2 ^ 32 } else c
  | none => c

/-- A FUNC 9 channel takes its word at its apply instant (R250, R251). -/
def Channel.takeSwitch (lead time word : Nat) (c0 : Channel) : Channel :=
  let c := c0.switchDue time
  let target := word.testBit 16
  let arm := word.testBit 17
  if !arm || (c.driven && c.state = target) then { c with pending := none, value := word }
  else
    match c.pending with
    | some w => if w.word = word then { c with value := word }
      else { c with value := word, pending := some ⟨target, time + (bits word 0 16 + 2 ^ 17 - lead - time % 65536) % 65536, word⟩ }
    | none => { c with value := word, pending := some ⟨target, time + (bits word 0 16 + 2 ^ 17 - lead - time % 65536) % 65536, word⟩ }

/-- The duty of a PWM word. -/
def pwmDuty (word : Nat) : Nat := (if sint 32 word < 0 then 0 else if sint 32 word > 65536 then 65536 else sint 32 word).toNat

/-- The code of an analog output; the DAC uses bits [15:4]. -/
def dacCode (word : Nat) : Nat := (if sint 32 word < 0 then 0 else if sint 32 word > 65535 then 65535 else sint 32 word).toNat

/-- A DALI line takes the command word at its apply instant (R253). -/
def Sys.takeFrame (s : Sys) (r : LineRec) : Sys :=
  let w := s.stageWord r.cmdpt
  let d := s.dali r.line
  let seq := bits w 28 4
  if seq = d.lastSeq || d.failed then s
  else if 8 ≤ d.queue.length then
    ((s.modDali r.line fun d => { d with lastSeq := seq }).incSat (FAB_DLSTAT_DROPS r.line)).linePost r.line 0x1010 [(seq, 1)]
  else s.modDali r.line fun d => { d with lastSeq := seq, queue := d.queue ++ [⟨bits w 0 24, bits w 24 2, seq⟩] }

/-- The output stage's word of a point is lost in this cycle (R364). -/
def Sys.wordLost (s : Sys) (point : Nat) : Bool := s.mi.droppedPoints.contains point

/-- A channel at its apply instant. -/
def Sys.applyChan (s : Sys) (k : Nat) : Sys :=
  let r := s.chanRec k
  if !s.mayDrive k || s.wordLost r.point then s
  else if r.func = 2 then s.modChan k fun c => { c with driven := true, value := s.stageWord r.point }
  else if r.func = 4 then s.modChan k fun c => { c with driven := true, value := dacCode (s.stageWord r.point), dac := dacCode (s.stageWord r.point) / 16 }
  else if r.func = 6 then
    s.modChan k fun c => if c.driven then { c with pwmNext := some (pwmDuty (s.stageWord r.point)) }
      else { c with driven := true, value := pwmDuty (s.stageWord r.point) }
  else if r.func = 9 then s.modChan k (Channel.takeSwitch (bits r.p1 0 16) s.ang.time (s.stageWord r.point))
  else if r.func = 7 then
    match (lineRecs s.image).find? fun x => x.tx == k with
    | some x => if s.wordLost x.cmdpt then s else (s.modChan k fun c => { c with driven := true }).takeFrame x
    | none => s
  else s

/-- The level of a channel's pin (R246, R251, R252): what the channel drives, after INV, or what the carrier gives an undriven pin. A
modulated output shows its waveform; a DALI transmitter rests at the high bus level, after TXINV. -/
def Sys.pinLevel (s : Sys) (k : Nat) : Bool :=
  let r := s.chanRec k
  let c := s.chan k
  if !c.driven then c.level
  else if r.func = 2 then (c.value != 0) != r.inv
  else if r.func = 9 then c.state != r.inv
  else if r.func = 6 then (if c.value = 0 then r.inv else if c.value = 65536 then !r.inv else Config.waveform s.fclk k)
  else match (lineRecs s.image).find? fun x => x.tx == k with
    | some x => if (s.dali x.line).onBus then Config.waveform s.fclk k else !x.txinv
    | none => c.level

/-- R248: the output channels with an apply angle take their words when TIME reaches the cycle's start plus that angle. -/
def Sys.outputApply (s0 : Sys) (angle : Nat) : Sys :=
  if !s0.angleComes angle then s0
  else
    let s := s0.reachAngle angle
    (allChannels.filter fun k => s.applyAngle (s.chanRec k) == angle).foldl Sys.applyChan s

/-- R250: a pending switch executes when TIME reaches its angle. -/
def Sys.timedSwitch (s : Sys) (k : Nat) : Sys :=
  match (s.chan k).pending with
  | some w => let s1 := s.reach w.angle; s1.modChan k (Channel.switchDue s1.ang.time)
  | none => s

def execTimedSwitch (uc : Nat) (s : State) : Host.Outcome State Fault Refusal := run (fun y => y.timedSwitch uc) s

/-- R248: at its period boundary a PWM channel takes the duty last applied. -/
def Sys.pwmBoundary (s : Sys) (k : Nat) : Sys :=
  s.modChan k fun c => match c.pwmNext with
    | some d => { c with value := d, pwmNext := none }
    | none => c

def execPwmPeriodBoundary (uc : Nat) (s : State) : Host.Outcome State Fault Refusal := run (fun y => y.pwmBoundary uc) s

/-! ## DALI (R254 to R256) -/

/-- A frame completes with its flags and data in the RSPPT value. -/
def DaliLine.complete (d : DaliLine) (seq v : Nat) : DaliLine :=
  let k := (d.completed + 1) % 65536
  { d with completed := k, response := v + seq * 2 ^ 12 + k * 2 ^ 16 }

/-- The frame being sent completes. -/
def DaliLine.finish (d : DaliLine) (v : Nat) : DaliLine :=
  match d.sending with
  | some f => { d.complete f.seq v with sending := none, onBus := false, attempts := 0, copy := 0, answering := false, retrying := false }
  | none => d

abbrev daliAns : Nat := 2 ^ 8
abbrev daliNoAns : Nat := 2 ^ 9
abbrev daliErr : Nat := 2 ^ 10
abbrev daliFail : Nat := 2 ^ 11

/-- A line starts its next frame, or the second copy of FORM 0b10. -/
def DaliLine.start (d : DaliLine) : DaliLine :=
  if d.failed then d
  else match d.sending with
    | some _ => if d.copy = 2 && !d.onBus && !d.retrying then { d with onBus := true } else d
    | none => match d.queue with
      | f :: rest => { d with queue := rest, sending := some f, onBus := true, attempts := 0, copy := 1 }
      | [] => d

def Sys.daliFrameSend (s : Sys) (l : Nat) : Sys :=
  match lineRec s.image l with
  | some r => if s.mayDrive r.tx then s.modDali l DaliLine.start else s
  | none => s

def execDaliFrameSend (line : Fin 16) (s : State) : Host.Outcome State Fault Refusal := run (fun y => y.daliFrameSend line.val) s

/-- The last bit of a forward frame leaves the bus. A copy of FORM 0b10 has no answer window, and the second one completes the
frame. -/
def DaliLine.frameEnd (d : DaliLine) : DaliLine :=
  match d.sending with
  | some f =>
    if !d.onBus then d
    else if f.form ≤ 1 then { d with onBus := false, answering := true }
    else if f.form = 2 && d.copy = 1 then { d with onBus := false, copy := 2 }
    else d.finish 0
  | none => d

def execDaliForwardFrameEnd (line : Fin 16) (s : State) : Host.Outcome State Fault Refusal :=
  run (fun y => y.modDali line.val DaliLine.frameEnd) s

/-- A collision stops the frame; after the third failed attempt it has failed with 0x1011. -/
def Sys.daliCollision (s : Sys) (l : Nat) : Sys :=
  let d := s.dali l
  match d.sending with
  | some f =>
    if !d.onBus then s
    else if 2 ≤ d.attempts then
      ((s.modDali l fun d => d.finish daliFail).incSat (FAB_DLSTAT_FAILS l)).linePost l 0x1011 [(f.seq, 1)]
    else s.modDali l fun d => { d with onBus := false, attempts := d.attempts + 1, retrying := true }
  | none => s

def execDaliCollision (line : Fin 16) (s : State) : Host.Outcome State Fault Refusal := run (fun y => y.daliCollision line.val) s

/-- 20 ms after a collision the frame is sent again. -/
def execDaliRetry (line : Fin 16) (s : State) : Host.Outcome State Fault Refusal :=
  run (fun y => y.modDali line.val fun d => if d.retrying then { d with retrying := false, onBus := true } else d) s

/-- The answer window closes without a start bit. -/
def execDaliAnswerWindowClose (line : Fin 16) (s : State) : Host.Outcome State Fault Refusal :=
  run (fun y => y.modDali line.val fun d => if d.answering then d.finish daliNoAns else d) s

/-- A backward frame in the answer window. -/
def execDaliBackwardFrame (line : Fin 16) (data : Nat) (bad : Bool) (s : State) : Host.Outcome State Fault Refusal :=
  run (fun y => y.modDali line.val fun d => if d.answering then d.finish (if bad then daliErr else data % 256 + daliAns) else d) s

/-- R256: the line FAILED; the frame in work and every queued frame complete with FAIL. -/
def DaliLine.failAll (d : DaliLine) : DaliLine :=
  let d1 := d.finish daliFail
  let d2 := d1.queue.foldl (fun x f => x.complete f.seq daliFail) d1
  { d2 with queue := [], failed := true }

/-- A line's RXUC shows the bus high, after RXINV. -/
def Sys.busHigh (s : Sys) (r : LineRec) : Bool := (s.chan r.rx).level != r.rxinv

/-- The bus of a line has been low for 500 ms. -/
def Sys.daliLineFailed (s : Sys) (l : Nat) : Sys :=
  match lineRec s.image l with
  | some r =>
    if (s.dali l).failed || s.busHigh r then s
    else ((s.elapse ((s.chan r.rx).since + clocksPerSecond / 2 - s.fclk)).modDali l DaliLine.failAll).linePost l 0x100E []
  | none => s

def execDaliLineFailed (line : Fin 16) (s : State) : Host.Outcome State Fault Refusal := run (fun y => y.daliLineFailed line.val) s

/-- The bus of a failed line has been high for 100 ms. -/
def Sys.daliLineRestored (s : Sys) (l : Nat) : Sys :=
  match lineRec s.image l with
  | some r =>
    if !(s.dali l).failed || !s.busHigh r then s
    else ((s.elapse ((s.chan r.rx).since + clocksPerSecond / 10 - s.fclk)).modDali l fun d => { d with failed := false }).linePost l 0x100F []
  | none => s

def execDaliLineRestored (line : Fin 16) (s : State) : Host.Outcome State Fault Refusal := run (fun y => y.daliLineRestored line.val) s

/-! ## Cells, spares and the configuration memory (R259 to R262) -/

/-- FAB_SPMAP of spare `j`: USED and UC. -/
def Sys.spareUsed (s : Sys) (j : Nat) : Bool :=
  if j % 2 = 0 then s.on (FAB_SPMAP_USED0 (j / 2)) else s.on (FAB_SPMAP_USED1 (j / 2))
def Sys.spareUc (s : Sys) (j : Nat) : Nat := if j % 2 = 0 then s.get (FAB_SPMAP_UC0 (j / 2)) else s.get (FAB_SPMAP_UC1 (j / 2))
def Sys.setSpare (s : Sys) (j : Nat) (used : Bool) (uc : Nat) : Sys :=
  let s1 := if j % 2 = 0 then (s.putB (FAB_SPMAP_USED0 (j / 2)) used).put (FAB_SPMAP_UC0 (j / 2)) uc
    else (s.putB (FAB_SPMAP_USED1 (j / 2)) used).put (FAB_SPMAP_UC1 (j / 2)) uc
  s1.put FAB_STAT_SPFREE ((List.range 8).filter fun i => !s1.spareUsed i).length

/-- The lowest-numbered free spare. -/
def Sys.freeSpare (s : Sys) : Option Nat := (List.range 8).find? fun j => !s.spareUsed j

/-- A channel whose cell failed waits for a spare, which it takes while SPAREN is 1, or stays released with 0x1006 when none is free. -/
def Sys.wantSpare (s : Sys) (k : Nat) : Sys :=
  if s.freeSpare.isNone then s.chanPost k 0x1006 [] else { s with fab := { s.fab with wait := insertAsc k s.fab.wait } }

/-- With the last spare gone the channels that still wait stay released, each with 0x1006 (R261). -/
def Sys.spareGone (s : Sys) : Sys :=
  if s.freeSpare.isSome then s
  else { s.fab.wait.foldl (fun y k => y.chanPost k 0x1006 []) s with fab := { s.fab with wait := [] } }

/-- A failed cell entered in the loft's system record (R261). -/
def Sys.recordCell (s : Sys) (cell : Nat) : Sys := { s with loft := { s.loft with failedCells := insertAsc cell s.loft.failedCells } }

/-- R260: the cell of a channel fails with a cause; cells 192 to 199 are the spares. -/
def Sys.cellFailed (s : Sys) (cell cause : Nat) : Sys :=
  if cell < 192 then
    if (s.chan cell).cellFailed then s
    else
      let s1 := ((s.releaseChan cell).modChan cell fun c => { c with cellFailed := true }).recordCell cell
      (s1.chanPost cell 0x1004 [(cause, 1)]).wantSpare cell
  else if cell < 200 then
    let j := cell - 192
    let k := s.spareUc j
    if s.spareUsed j && k = 0xFF then s
    else
      let s1 := (s.setSpare j true 0xFF).recordCell cell
      if s.spareUsed j then
        (((s1.releaseChan k).modChan k fun c => { c with spare := none }).chanPost k 0x1004 [(cause, 1)]).wantSpare k
      else s1.spareGone
  else s

def execCellFailed (cell cause : Nat) (s : State) : Host.Outcome State Fault Refusal := run (fun y => y.cellFailed cell cause) s

/-- R260: the lowest-numbered free spare takes over a channel that waits for one; its record comes from the set in use. -/
def Sys.spareCellIn (s : Sys) (k : Nat) : Sys :=
  match s.freeSpare with
  | some j =>
    if s.fab.wait.contains k && s.on FAB_CTL_SPAREN && s.dramUp then
      let s1 := (s.setSpare j true k).modChan k fun c => { c with
        spare := some j, init := true, qual := qInit, value := if (s.chanRec k).func = 5 then c.value else 0 }
      let s2 := { s1 with
        fab := { s1.fab with wait := s1.fab.wait.filter fun x => x != k }
        loft := { s1.loft with spareCells := putKey s1.loft.spareCells k j } }
      (s2.chanPost k 0x1005 [(j, 1)]).spareGone
    else s
  | none => s

def execSpareCellIn (uc : Nat) (s : State) : Host.Outcome State Fault Refusal := run (fun y => y.spareCellIn uc) s

/-- R262: the fabric FAILED. -/
def Sys.fabricFailed (s : Sys) : Sys :=
  if s.get FAB_STAT_STATE = fabFailed then s else (s.releaseAll.put FAB_STAT_STATE fabFailed).note 0x1001

def execFabricFailed (s : State) : Host.Outcome State Fault Refusal := run Sys.fabricFailed s

/-- R259: an uncorrectable word of the global region. A fabric that is not loaded has nothing to reload, and a FAILED one returns only
through a cold start (R262). -/
def Sys.globalWord (s : Sys) : Sys :=
  let st := s.get FAB_STAT_STATE
  let again : Bool := match s.fab.lastGlobal with
    | some t => s.fclk < t + 60 * clocksPerSecond
    | none => false
  let s1 := { s with fab := { s.fab with lastGlobal := some s.fclk } }
  if st = fabOff || st = fabFailed then s
  else if again || !s.dramUp then s1.fabricFailed else (s1.releaseAll.put FAB_STAT_STATE fabReload).note 0x1012

/-- R259: a configuration word scrubbed. The spec does not say which words make up the global region and which a cell's: where an
uncorrectable word lies is open. -/
def Sys.fabricScrub (s : Sys) (corrected uncorrectable : Bool) : Sys :=
  let last := s.fab.scrubAt = 16383
  let s1 := { s with fab := { s.fab with scrubAt := if last then 0 else s.fab.scrubAt + 1 } }
  let s2 := if last then s1.incWrap FAB_SCRUB_PASSES else s1
  let s3 := if corrected then s2.incSat FAB_SCRUB_CORR else s2
  if uncorrectable then
    let r := s3.draw.1 % 201
    if r = 0 then s3.draw.2.globalWord else s3.draw.2.cellFailed (r - 1) 2
  else s3

def execFabricScrubWord (corrected uncorrectable : Bool) (s : State) : Host.Outcome State Fault Refusal :=
  run (fun y => y.fabricScrub corrected uncorrectable) s

/-- R259: the reload of the global region ends. -/
def Sys.globalReloadDone (s : Sys) (success : Bool) : Sys :=
  if s.get FAB_STAT_STATE != fabReload then s
  else if success && s.dramUp then s.put FAB_STAT_STATE fabRun else s.fabricFailed

def execGlobalReloadDone (success : Bool) (s : State) : Host.Outcome State Fault Refusal := run (fun y => y.globalReloadDone success) s

/-! ## Bank supplies (R263) -/

/-- The class of a supply in millivolts as FAB_BANK codes it. -/
def bankClass (mv : Nat) : Nat := if mv < 500 then 0 else if 1710 ≤ mv && mv ≤ 1890 then 1 else if 3135 ≤ mv && mv ≤ 3465 then 2 else 3

/-- VIOb of FAB_BANK. -/
def bankField (b : Nat) : Fld := ⟨FAB_BANK, 2 * b, 2⟩

/-- A used bank's supply leaves its band. -/
def Sys.bankLost (s : Sys) (b mv : Nat) : Sys :=
  let s1 := s.put (bankField b) (bankClass mv)
  let vio := bankVio s.image b
  if vio = 0 || bankClass mv = vio || s.bit FAB_BANK_BFAIL b then s1
  else (((List.range 32).map fun i => 32 * b + i).foldl Sys.releaseChan (s1.putBit FAB_BANK_BFAIL b true)).post 0x100C 0 [(b, 1)]

def execBankSupplyLost (bank : Fin 6) (millivolts : Nat) (s : State) : Host.Outcome State Fault Refusal :=
  run (fun y => y.bankLost bank.val millivolts) s

/-- A bank's supply returns to its band: its channels sample again with INIT. -/
def Sys.bankRestored (s : Sys) (b mv : Nat) : Sys :=
  let s1 := s.put (bankField b) (bankClass mv)
  if bankClass mv != bankVio s.image b || !s.bit FAB_BANK_BFAIL b then s1
  else
    let s2 := ((List.range 32).map fun i => 32 * b + i).foldl (fun s k => s.modChan k fun c => { c with init := true, qual := qInit }) s1
    (s2.putBit FAB_BANK_BFAIL b false).post 0x100D 0 [(b, 1)]

def execBankSupplyRestored (bank : Fin 6) (millivolts : Nat) (s : State) : Host.Outcome State Fault Refusal :=
  run (fun y => y.bankRestored bank.val millivolts) s

/-! ## Loading (R257, R258) -/

/-- The bytes of entry `i` of a section. -/
def entryBytes (m : List Host.Cell) (ty i : Nat) : List Nat := let x := sectionOf m ty; memBytes m (x.entry i) x.esize

/-- The bytes of the line records that name a channel. -/
def lineBytes (m : List Host.Cell) (k : Nat) : List (List Nat) :=
  let x := sectionOf m 0x03
  (List.range x.count).filterMap fun i => let r := lineRecAt m (x.entry i); if r.tx = k || r.rx = k then some (memBytes m (x.entry i) 16) else none

/-- The records of a channel are byte-identical in two images. -/
def sameChannel (old new : List Host.Cell) (k : Nat) : Bool :=
  entryBytes old 0x02 k == entryBytes new 0x02 k && entryBytes old 0x01 (k / 32) == entryBytes new 0x01 (k / 32) && lineBytes old k == lineBytes new k

/-- A channel whose record changed restarts: only its pin's level and its cell remain. -/
def Channel.restart (c : Channel) : Channel :=
  { Channel.zero with level := c.level, since := c.since, stamp := c.stamp, accepted := c.level, cellFailed := c.cellFailed, spare := c.spare, fresh := true }

/-- The fabric loaded with an image: a channel whose records are unchanged goes on, and a bank whose supply the new VIO names, or that is
unused, is released no more (R258, R263). -/
def Sys.loadFabric (s : Sys) (new : List Host.Cell) : Sys :=
  let old := s.image
  let kept := (lineRecs new).filter fun r => sameChannel old new r.tx
  let s1 := allChannels.foldl (fun s k => if sameChannel old new k then s else s.modChan k Channel.restart) s
  let s2 := { s1 with fab := { s1.fab with image := new, lines := s1.fab.lines.filter fun x => kept.any fun r => r.line == x.1 } }
  let s3 := (List.range 16).foldl (fun s l => s.modDali l fun d => d) s2
  (List.range 6).foldl (fun s b =>
    if s.bit FAB_BANK_BFAIL b && (bankVio new b == 0 || bankVio new b == s.get (bankField b)) then s.putBit FAB_BANK_BFAIL b false else s) s3

end Sys2Proof.Machine
end

