-- ==== Sys2Proof/Machine/Hitil.lean ====
section
/-!
DEFINITION. The station exchange (spec/09_hitil_station_exchange.md): the station table (R268 to R270), frames and tags (R274 to R283),
the EPOCH and the keys (R284, R285), the life of a station (R286 to R289), emission (R266, R277, R291) and activation (R292), with the
CAN commands that reach the exchange (R297, R300).
-/
namespace Sys2Proof.Machine

/-! ## The station table (R268 to R270) -/

/-- A station record (R269). -/
structure StationRec where
  index : Nat
  cls : Nat
  stype : Nat
  wdn : Nat
  incnt : Nat
  outcnt : Nat
  infirst : Nat
  outfirst : Nat
  txofs : Nat
  pdly : Nat
  uid : Nat
deriving DecidableEq, Repr

def stationRecAt (m : List Host.Cell) (a : Nat) : StationRec :=
  let w := fun k => memRead m (a + 4 * k) 4
  ⟨bits (w 0) 0 11, bits (w 0) 12 4, bits (w 0) 16 8, bits (w 0) 24 4, bits (w 1) 0 16, bits (w 1) 16 16, bits (w 2) 0 17, bits (w 3) 0 17,
   bits (w 4) 0 22, bits (w 5) 0 16, memRead m (a + 24) 8⟩

/-- The records of the station table, in the image's order. -/
def stationRecs (m : List Host.Cell) : List StationRec :=
  let x := sectionOf m 0x08
  (List.range x.count).map fun i => stationRecAt m (x.entry i)

/-- The record of a station. -/
def stationRec (m : List Host.Cell) (i : Nat) : Option StationRec := (stationRecs m).find? fun r => r.index == i

/-- The bus of a station: 0 to 7 a segment, 8 NET2 (R268, R283). -/
def busOf (i : Nat) : Nat := if i < 1024 then 8 else (i - 1024) / 32

/-- A station's address on its segment. -/
def canAddress (i : Nat) : Nat := (i - 1024) % 32

/-- The buses that carry stations, in ascending number. -/
def busesUsed (m : List Host.Cell) : List Nat := (List.range 9).filter fun b => (stationRecs m).any fun r => busOf r.index == b

/-- The records put in ascending station index. -/
def insertRec (r : StationRec) : List StationRec → List StationRec
  | [] => [r]
  | x :: xs => if r.index ≤ x.index then r :: x :: xs else x :: insertRec r xs

/-- The stations of a bus in ascending index. -/
def busStations (m : List Host.Cell) (b : Nat) : List StationRec :=
  ((stationRecs m).filter fun r => busOf r.index == b).foldl (fun l r => insertRec r l) []

/-- HIT_SSTAT.STATE (R286). -/
abbrev stWaiting : Nat := 1
abbrev stJoining : Nat := 2
abbrev stOnline : Nat := 3
abbrev stMissing : Nat := 4
abbrev stLost : Nat := 5
abbrev stReturning : Nat := 6

/-- A station that has never been admitted. -/
def Station.zero : Station where
  state := stWaiting
  miss := 0
  missTotal := 0
  joins := 0
  fstate := false
  sfault := false
  last := 0
  address := none
  admitAt := none
  rejoin := false
  fragments := []
  setDone := false
  setOk := false
  setFault := false
  setState := false

def Sys.station (s : Sys) (i : Nat) : Station := lookupD Station.zero s.hit.stations i
def Sys.modStation (s : Sys) (i : Nat) (f : Station → Station) : Sys :=
  { s with hit := { s.hit with stations := putKey s.hit.stations i (f (s.station i)) } }

/-- An event of a station, under locker 0 (R293). -/
def Sys.stationPost (s : Sys) (i code : Nat) (vals : List (Nat × Nat)) : Sys := s.post code 0 ((i, 2) :: vals)

/-- The exchange runs on an active set. -/
def Sys.exchanging (s : Sys) : Bool := s.on HIT_CTL_RUN && s.prog.active

/-! ## Keys and tags (R282, R283) -/

/-- The key of a table entry. -/
def Sys.hitKey (s : Sys) (entry : Nat) : Option Nat := (s.hit.keys.find? fun k => k.1 == entry).map fun k => k.2.2

/-- "hitil". -/
def hitilInfo : List Nat := [0x68, 0x69, 0x74, 0x69, 0x6C]

/-- Ke of a station. -/
def Sys.stationKey (s : Sys) (i : Nat) : Option (List Nat) :=
  (s.hitKey i).map fun k => hkdfSha256 (bytesLE 32 k) (bytesLE 8 s.hit.epoch) (hitilInfo ++ bytesLE 2 i) 32

/-- Kg of a bus. -/
def Sys.busKey (s : Sys) (b : Nat) : Option (List Nat) :=
  (s.hitKey (0x8000 + b)).map fun k => hkdfSha256 (bytesLE 32 k) (bytesLE 8 s.hit.epoch) (hitilInfo ++ [0x2D, 0x62] ++ [b]) 32

/-- The leftmost `n` bytes of a frame's tag as one number, first byte highest. -/
def hitilTag (key : List Nat) (cycle station kind fragment : Nat) (aad : List Nat) (n : Nat) : Nat :=
  numBE ((gcmTag key (bytesLE 8 cycle ++ bytesLE 2 station ++ [kind % 256, fragment % 256]) aad []).take n)

/-- The Hitil header on Ethernet (R274). -/
def hitilHeader (ver kind station flags len cycle : Nat) : List Nat :=
  [ver % 256, kind % 256] ++ bytesLE 2 station ++ bytesLE 2 flags ++ bytesLE 2 len ++ bytesLE 8 cycle

/-- Words as bytes. -/
def wordBytes (ws : List Nat) : List Nat := (ws.map (bytesLE 4)).flatten

/-- The identifier of a CAN frame (R279). -/
def hitilId (kind address fragment : Nat) : Nat := kind % 8 * 256 + address % 32 * 8 + fragment % 8

/-- The keys of a bus are there: its bus key and each station's. -/
def Sys.busKeyed (s : Sys) (b : Nat) : Bool :=
  !s.hit.auth || ((s.hitKey (0x8000 + b)).isSome && (busStations s.image b).all fun r => (s.hitKey r.index).isSome)

/-- R285: buses without their keys stop, each with 0x0F0C. -/
def Sys.checkKeys (s : Sys) : Sys :=
  if !s.exchanging then s
  else ((busesUsed s.image).filter fun b => !s.busKeyed b && !s.hit.keyless.contains b).foldl
    (fun s b => { s.post 0x0F0C 0 [(b, 1)] with hit := { s.hit with keyless := insertAsc b s.hit.keyless } }) s

/-! ## EPOCH (R284) -/

/-- Every station waits; one that is to join again stays so marked (R292). -/
def Sys.allWait (s : Sys) : Sys :=
  { s with hit := { s.hit with stations := s.hit.stations.map fun x =>
      (x.1, { x.2 with state := stWaiting, miss := 0, admitAt := none, fragments := [], setDone := false }) } }

/-- A new EPOCH drawn. -/
def Sys.newEpoch (s : Sys) : Sys :=
  let d := s.drawRandom
  ({ d.2 with hit := { d.2.hit with epoch := d.1 % 2 ^ 64 } }).allWait

/-- Setting RUN draws an EPOCH. -/
def Sys.hitRunSet (s : Sys) : Sys := if s.on HIT_CTL_RUN then s else ((s.putB HIT_CTL_RUN true).newEpoch).checkKeys

def execHitRunSet (s : State) : Host.Outcome State Fault Refusal := run Sys.hitRunSet s

/-- The first beacon after the keys of a bus have returned: a new EPOCH, with 0x0F0D. -/
def Sys.keysReturn (s : Sys) : Sys :=
  let back := s.hit.keyless.filter fun b => s.busKeyed b
  if back.isEmpty then s
  else ({ s with hit := { s.hit with keyless := s.hit.keyless.filter fun b => !s.busKeyed b } }.note 0x0F0D).newEpoch

/-! ## Frames out -/

/-- The bus may carry the exchange's frames: its keys are there, and NET2 is UP (R285, R317). -/
def Sys.busOpen (s : Sys) (b : Nat) : Bool :=
  s.exchanging && !s.hit.stopped && !s.hit.keyless.contains b && (b != 8 || s.get (NET_LINK_STATE 2) == 2)

/-- A frame on NET2 (R274): its EtherType, header, payload and tag under a key. -/
def Sys.sendEth (s : Sys) (key : Option (List Nat)) (dest kind station flags cycle : Nat) (payload : List Nat) : Sys :=
  let aad := hitilHeader 1 kind station flags payload.length cycle ++ payload
  let tag := match key with
    | some k => if s.hit.auth then hitilTag k cycle station kind 0 aad 8 else 0
    | none => 0
  let f : HitilFrame := ⟨8, s.get HIT_ETYPE_ETYPE, 2, dest, 1, kind, station, flags, payload.length, cycle, 0, payload, tag⟩
  { s with hit := { s.hit with sent := s.hit.sent ++ [f] } }

/-- The DLC for a number of data bytes: the least that holds them. -/
def dlcFor (n : Nat) : Nat := ((List.range 16).find? fun d => n ≤ dlcLen true d).getD 15

/-- Entries of the exchange move into the queues of a segment while there is room. -/
def Sys.refill (s : Sys) (seg : Nat) : Sys :=
  let k := s.canOf seg
  s.hit.backlog.foldl (fun s e =>
    let q1 := e.2.1 == 1
    let c := s.canAt k
    if e.1 = seg && (c.queue q1).length < 16 then s.putCan k (c.withQueue q1 (c.queue q1 ++ [e.2.2]))
    else { s with hit := { s.hit with backlog := s.hit.backlog ++ [e] } }) { s with hit := { s.hit with backlog := [] } }

/-- A frame on a segment: the leading bytes, its tag and zeros up to a data length (R280). -/
def Sys.sendCan (s : Sys) (key : Option (List Nat)) (seg q kind address station cycle fragment : Nat) (body : List Nat) : Sys :=
  let id := hitilId kind address fragment
  let tag := match key with
    | some k => if s.hit.auth then bytesBE 4 (hitilTag k cycle station kind fragment (bytesLE 2 id ++ body) 4) else []
    | none => []
  let data := body ++ tag
  let dlc := dlcFor data.length
  let n := dlcLen true dlc
  let r : CanRecord := { id := id, ide := false, rtr := false, dlc := dlc, fdf := true, brs := true, esi := false, len := n, status := 0, time := 0, tag := 0, att := 0,
                         data := (data ++ List.replicate 64 0).take n, source := 0, slot := 0 }
  let f : HitilFrame := ⟨seg, 0, 0, address, 1, kind, station, 0, n, cycle, fragment, body, numBE tag⟩
  Sys.refill { s with hit := { s.hit with backlog := s.hit.backlog ++ [(seg, q, r)], sent := s.hit.sent ++ [f] } } seg

/-- Words of a CAN fragment (R280). -/
def Sys.fragWords (s : Sys) : Nat := if s.hit.auth then 14 else 15

/-- Fragments of a set of `c` words. -/
def Sys.fragCount (s : Sys) (c : Nat) : Nat := Nat.max 1 ((c + s.fragWords - 1) / s.fragWords)

/-- The four leading bytes and the words of a fragment. -/
def canBody (cycle flags : Nat) (ws : List Nat) : List Nat := bytesLE 2 cycle ++ [flags % 256, ws.length] ++ wordBytes ws

/-- The beacon's payload (R277), announcing the next cycle. -/
def Sys.beaconPayload (s : Sys) : List Nat :=
  let l := s.cycleLen
  bytesLE 8 (s.ang.start + l) ++ bytesLE 4 (s.get ANG_FREQ_F) ++ bytesLE 4 l ++ bytesLE 4 (structSample s.image) ++ bytesLE 4 (structApply s.image)
    ++ bytesLE 4 s.ang.phg ++ bytesLE 4 s.ang.phc ++ bytesLE 4 (s.get VOT_STAT_CUFF + 4 * s.get ANG_STAT_STATE) ++ bytesLE 8 s.hit.epoch ++ bytesLE 4 s.ang.phv

/-- A beacon on a bus. -/
def Sys.sendBeacon (s : Sys) (b : Nat) : Sys :=
  let n := s.ang.cycle + 1
  if b = 8 then s.sendEth (s.busKey 8) 0xFFFFFFFFFFFF 1 0xFFFF 0 n s.beaconPayload
  else s.sendCan (s.busKey b) b 1 1 0 0xFFFF n 0 (bytesLE 8 n ++ s.beaconPayload)

/-- FLAGS of an output frame (R276, R291, R292). -/
def Sys.outFlags (s : Sys) (rejoin : Bool) : Nat :=
  (if s.get VOT_STAT_CUFF = cuffHolding then 1 else 0) + (if s.get VOT_STAT_CUFF = cuffReleased then 2 else 0) + (if rejoin then 4 else 0)

/-- A station is due in a cycle (R270). -/
def Sys.stationDue (s : Sys) (r : StationRec) (n : Nat) : Bool := scanDue s.image r.cls n

/-- The output set of a station that is due: one frame on NET2, fragments on a segment. A station that waits gets none, unless it is
to join again and its address is known. -/
def Sys.sendOutputs (s : Sys) (r : StationRec) : Sys :=
  let st := s.station r.index
  let n := s.ang.cycle
  let send := st.state != stWaiting || (st.rejoin && st.address.isSome)
  if !send || !s.stationDue r n then s
  else
    let flags := s.outFlags st.rejoin
    let ws := if s.get VOT_STAT_CUFF = cuffReleased then [] else (List.range r.outcnt).map fun k => s.stageWord (r.outfirst + k)
    if busOf r.index = 8 then s.sendEth (s.stationKey r.index) (st.address.getD 0) 2 r.index flags n (wordBytes ws)
    else
      let w := s.fragWords
      (List.range (s.fragCount ws.length)).foldl (fun s f =>
        s.sendCan (s.stationKey r.index) (busOf r.index) 0 2 (canAddress r.index) r.index n f (canBody n flags ((ws.drop (w * f)).take w))) s

/-- R266, R278: at PHV the beacon, then the outputs of the due stations, on every bus that carries stations. -/
def Sys.hitEmit (s0 : Sys) : Sys :=
  if !s0.exchanging then s0
  else
    let s1 := if s0.hit.stopped && s0.get VOT_STAT_CUFF = cuffLive then { s0 with hit := { s0.hit with stopped := false } } else s0
    let s2 := s1.checkKeys.keysReturn
    let s3 := { s2 with hit := { s2.hit with sent := [] } }
    let s4 := ((busesUsed s3.image).filter fun b => s3.busOpen b).foldl
      (fun s b => (busStations s.image b).foldl Sys.sendOutputs (s.sendBeacon b)) s3
    if s4.hit.stopped then s4 else { s4 with hit := { s4.hit with beacon := s4.ang.cycle + 1 } }

/-! ## Frames in (R281, R285, R287, R288) -/

/-- The full cycle number of 16 bits, its upper bits those of the current beacon (R280). -/
def Sys.fullCycle (s : Sys) (c16 : Nat) : Nat := s.hit.beacon / 65536 * 65536 + c16 % 65536

/-- A frame with a failed tag. -/
def Sys.tagFails (s : Sys) (i kind : Nat) : Sys :=
  (s.incWrap HIT_TAGERR_COUNT).postLimited (0x0F090000 + i) clocksPerSecond 0x0F09 0 [(i, 2), (kind, 1)]

/-- The tag that a frame of a station must carry, or none while AUTH is 0. -/
def Sys.tagOk (s : Sys) (bus station kind cycle fragment : Nat) (aad : List Nat) (tag : Nat) : Bool :=
  !s.hit.auth || (match s.stationKey station with
    | some k => hitilTag k cycle station kind fragment aad (if bus = 8 then 8 else 4) == tag
    | none => false)

/-- The additional data of an input frame. -/
def inputAad (f : HitilInput) : List Nat :=
  if f.bus = 8 then hitilHeader f.ver 3 f.station f.flags f.len f.cycle ++ wordBytes f.words
  else bytesLE 2 (hitilId 3 (canAddress f.station) f.fragment) ++ canBody f.cycle f.flags f.words

/-- The fragment holds the words that its place in the set asks for. -/
def Sys.wordsRight (s : Sys) (r : StationRec) (f : HitilInput) : Bool :=
  if f.bus = 8 then f.fragment == 0 && f.words.length == r.incnt
  else f.fragment < s.fragCount r.incnt && f.words.length == Nat.min s.fragWords (r.incnt - s.fragWords * f.fragment)

/-- A late frame (R22, R288). -/
def Sys.lateFrame (s : Sys) : Sys :=
  let s1 := s.incWrap HIT_LATE_COUNT
  if s.hit.latePosted = some s.col.openCycle then s1
  else { s1.note 0x0F0A with hit := { s1.hit with latePosted := some s.col.openCycle } }

/-- A set is complete: its flags are kept, and its words are written when OUTOK is 1. -/
def Sys.setComplete (s : Sys) (r : StationRec) (frags : List (Nat × Nat × List Nat)) : Sys :=
  let ok := frags.all fun f => f.2.1.testBit 0
  let s1 := s.modStation r.index fun st => { st with
    fragments := frags, setDone := true, setOk := ok
    setFault := frags.any fun f => f.2.1.testBit 1
    setState := frags.any fun f => f.2.1.testBit 2 }
  if ok then
    frags.foldl (fun s f => (mapIx (fun i w => (i, w)) 0 f.2.2).foldl (fun s (x : Nat × Nat) => s.setBank (r.infirst + s.fragWords * f.1 + x.1) x.2) s) s1
  else s1

/-- A frame or fragment that has passed every check. -/
def Sys.takeInput (s : Sys) (r : StationRec) (f : HitilInput) : Sys :=
  let frags := putKey (s.station r.index).fragments f.fragment (f.flags, f.words)
  let need := if f.bus = 8 then 1 else s.fragCount r.incnt
  if frags.length = need then s.setComplete r frags else s.modStation r.index fun st => { st with fragments := frags }

/-- An input frame checked against the table, the tag, the open bank and its form. -/
def Sys.hitilInput (s : Sys) (f0 : HitilInput) : Sys :=
  if !s.exchanging then s
  else match stationRec s.image f0.station with
  | none => s.incWrap HIT_UNKN_COUNT
  | some r =>
    let st := s.station r.index
    let cycle := if f0.bus = 8 then f0.cycle else s.fullCycle f0.cycle
    if busOf r.index != f0.bus || st.state = stWaiting || st.address != some f0.source then s.incWrap HIT_UNKN_COUNT
    else if !s.tagOk f0.bus f0.station 3 cycle f0.fragment (inputAad f0) f0.tag then s.tagFails f0.station 3
    else if cycle < s.col.openCycle then s.lateFrame
    else if s.col.openCycle < cycle || !s.stationDue r cycle || f0.ver != 1 || f0.len != 4 * f0.words.length || !s.wordsRight r f0 then s.incWrap HIT_FMTERR_COUNT
    else s.takeInput r f0

def execHitilInputFrame (frame : HitilInput) (s : State) : Host.Outcome State Fault Refusal := run (fun y => y.hitilInput frame) s

/-! ## Joining (R289) -/

/-- A field of a join request's payload. -/
def joinField (f : JoinInput) (ofs n : Nat) : Nat := numLE ((f.payload.drop ofs).take n)

def joinAad (f : JoinInput) : List Nat :=
  if f.bus = 8 then hitilHeader f.ver 4 f.station f.flags f.len f.cycle ++ f.payload
  else bytesLE 2 (hitilId 4 (canAddress f.station) 0) ++ bytesLE 2 f.cycle ++ [f.flags % 256, f.len / 4 % 256] ++ f.payload

/-- Why a join request is refused (0x0F04), 0 when it is not. -/
def Sys.joinReason (s : Sys) (f : JoinInput) : Nat :=
  match stationRec s.image f.station with
  | none => 1
  | some r =>
    let st := s.station r.index
    let cycle := if f.bus = 8 then f.cycle else s.fullCycle f.cycle
    if busOf r.index != f.bus then 1
    else if r.stype != 0 && r.stype != joinField f 8 1 then 2
    else if r.uid != 0 && r.uid != joinField f 0 8 then 3
    else if r.incnt != joinField f 10 2 || r.outcnt != joinField f 12 2 then 4
    else if !s.tagOk f.bus f.station 4 cycle 0 (joinAad f) f.tag then 5
    else if cycle != s.ang.cycle && cycle + 1 != s.ang.cycle then 6
    else if st.state != stWaiting && st.address != some f.source then 7
    else 0

/-- A refused request is counted, with 0x0F04 at most once every 10 s for an index. -/
def Sys.joinRefused (s : Sys) (f : JoinInput) (reason : Nat) : Sys :=
  let s1 := if reason = 1 || reason = 7 then s.incWrap HIT_UNKN_COUNT
    else if reason = 5 then s.tagFails f.station 4
    else s.incWrap HIT_FMTERR_COUNT
  s1.postLimited (0x0F040000 + f.station) (10 * clocksPerSecond) 0x0F04 0 [(f.station, 2), (reason, 1)]

/-- A join request checked in order; the admission may go out from the next cycle on. -/
def Sys.joinRequest (s : Sys) (f : JoinInput) : Sys :=
  if !s.exchanging then s
  else if f.ver != 1 || f.len != 16 || f.payload.length != 16 then s.incWrap HIT_FMTERR_COUNT
  else
    let reason := s.joinReason f
    if reason != 0 then s.joinRefused f reason
    else s.modStation f.station fun st => { st with
      address := some f.source, admitAt := some (s.ang.cycle + 1)
      state := if st.state = stWaiting then stWaiting else stJoining }

def execJoinRequest (frame : JoinInput) (s : State) : Host.Outcome State Fault Refusal := run (fun y => y.joinRequest frame) s

/-- The admission frame's payload (R275). -/
def Sys.admitPayload (s : Sys) (r : StationRec) : List Nat :=
  let c := scanClass s.image r.cls
  [c.1, c.2, r.wdn, 0] ++ bytesLE 4 r.txofs ++ bytesLE 2 r.pdly ++ List.replicate 6 0

/-- The admission sent between PHG and PHC of the cycle after the request, and at no other time (R278); the station enters JOINING. -/
def Sys.admitFrame (s0 : Sys) (i : Nat) : Sys :=
  match stationRec s0.image i, (s0.station i).admitAt with
  | some r, some c =>
    if s0.ang.cycle != c || s0.ang.start + s0.ang.phc ≤ s0.ang.time || !s0.arrives (s0.ang.start + s0.ang.phg) || !s0.busOpen (busOf i) then s0
    else
      let s := s0.reach (s0.ang.start + s0.ang.phg)
      let n := s.ang.cycle
      let st := s.station i
      let s1 := if busOf i = 8 then s.sendEth (s.stationKey i) (st.address.getD 0) 5 i 0 n (s.admitPayload r)
        else s.sendCan (s.stationKey i) (busOf i) 1 5 (canAddress i) i n 0 (bytesLE 2 n ++ [0, 4] ++ s.admitPayload r)
      (s1.modStation i fun st => { st with state := stJoining, miss := 0, admitAt := none, rejoin := false, joins := Nat.min (st.joins + 1) 255 }).stationPost i 0x0F03 []
  | _, _ => s0

def execAdmit (station : Nat) (s : State) : Host.Outcome State Fault Refusal := run (fun y => y.admitFrame station) s

/-! ## The close of a cycle (R286, R287) -/

/-- The state after an accepted set. -/
def Sys.stationAccepted (s : Sys) (i n : Nat) : Sys :=
  let st := s.station i
  let s1 := if st.setFault && !st.sfault then s.stationPost i 0x0F0E [] else s
  let s2 := if st.state = stJoining || st.state = stOnline then s1 else s1.stationPost i 0x0F08 []
  s2.modStation i fun x => { x with state := stOnline, miss := 0, last := n, sfault := st.setFault, fstate := st.setState }

/-- The state after a due cycle without an accepted set. -/
def Sys.stationMissed (s : Sys) (i : Nat) : Sys :=
  let st := s.station i
  let m := Nat.min (st.miss + 1) 15
  let s1 := s.modStation i fun x => { x with
    missTotal := (x.missTotal + 1) % 2 ^ 32, miss := if st.state = stWaiting then x.miss else m, fstate := if st.setDone then st.setState else x.fstate }
  let move := fun (x : Sys) (dest : Nat) => x.modStation i fun y => { y with state := dest }
  if st.state = stJoining then (if !st.setDone && s.hit.lostn ≤ m then move s1 stWaiting else s1)
  else if st.state = stOnline || st.state = stMissing then
    if s.hit.lostn ≤ m then (move s1 stLost).stationPost i 0x0F06 []
    else if st.state = stOnline then (move s1 stMissing).stationPost i 0x0F05 []
    else s1
  else if st.state = stLost then (if st.setDone then (move s1 stReturning).stationPost i 0x0F07 [] else s1)
  else if st.state = stReturning then (if st.setDone then s1 else (move s1 stLost).stationPost i 0x0F06 [])
  else s1

/-- The quality bits of a station. -/
def Sys.stationQuality (s : Sys) (i : Nat) : Nat :=
  let st := s.station i
  if s.hit.keyless.contains (busOf i) then qBad + qFailed
  else if st.state = stWaiting || st.state = stJoining then qBad + qInit
  else if st.state = stOnline then (if st.sfault then qBad else 0)
  else if st.state = stMissing then qStale
  else if st.state = stLost then qBad + qStale + qFailed
  else qBad + qStale + qInit

/-- A station that is due, at the close of cycle `n`. -/
def Sys.closeStation (n : Nat) (s : Sys) (r : StationRec) : Sys :=
  if !s.stationDue r n then s
  else
    let st := s.station r.index
    let s1 := if st.setDone && st.setOk && st.state != stWaiting then s.stationAccepted r.index n else s.stationMissed r.index
    let s2 := s1.modStation r.index fun x => { x with fragments := [], setDone := false, setOk := false }
    let now := (s2.station r.index).state
    let s3 := if now = stWaiting || now = stJoining then (List.range r.incnt).foldl (fun s k => s.setBank (r.infirst + k) 0) s2 else s2
    s3.setQuality (512 + r.index) (s3.stationQuality r.index)

/-- Every station at the close of cycle `n`. -/
def Sys.closeStations (s : Sys) (n : Nat) : Sys := (stationRecs s.image).foldl (Sys.closeStation n) s

/-! ## Activation (R292) -/

/-- The bytes of a station's record. -/
def stationBytes (m : List Host.Cell) (i : Nat) : List Nat :=
  let x := sectionOf m 0x08
  match (List.range x.count).find? fun k => memRead m (x.entry k) 4 % 2048 == i with
  | some k => memBytes m (x.entry k) 32
  | none => []

/-- The scan class records of an image. -/
def scanBytes (m : List Host.Cell) : List Nat := let x := sectionOf m 0x05; memBytes m x.off (x.count * x.esize)

/-- The stations of a new image; those of an unchanged record keep their state, the others wait and are to join again. LOSTN and AUTH
take effect, and buses whose keys are missing stop (R285). -/
def Sys.loadStations (s : Sys) (old new : List Host.Cell) : Sys :=
  let all := structSample old != structSample new || structApply old != structApply new || scanBytes old != scanBytes new
  let keep := fun (r : StationRec) => !all && stationBytes old r.index == stationBytes new r.index
  let next := (stationRecs new).map fun r =>
    let st := s.station r.index
    (r.index, if keep r then st else { Station.zero with
      joins := st.joins, missTotal := st.missTotal, last := st.last, address := st.address, rejoin := st.address.isSome })
  Sys.checkKeys { s with hit := { s.hit with
    stations := next, lostn := s.get HIT_CTL_LOSTN, auth := s.on HIT_CTL_AUTH
    keyless := s.hit.keyless.filter fun b => s.on HIT_CTL_AUTH && (busesUsed new).contains b } }

/-- HIT_STAT (ONLINE, LINKOK, KEYOK, CONFIG) as it reads. -/
def Sys.hitStat (s : Sys) : Nat :=
  let rs := if s.prog.active then stationRecs s.image else []
  let on := (rs.filter fun r => (s.station r.index).state == stOnline || (s.station r.index).state == stMissing).length
  on * 65536 + (if s.get (NET_LINK_STATE 2) = 2 && s.get (NET_LINK_SPEED 2) = 3 then 2 ^ 13 else 0)
    + (if s.prog.active && (busesUsed s.image).all fun b => s.busKeyed b then 2 ^ 12 else 0) + rs.length

/-- HIT_SSTAT, HIT_SMISS and HIT_SLAST of the selected station as they read. -/
def Sys.hitSelected (s : Sys) : Nat × Nat × Nat :=
  let i := s.get HIT_SSEL_INDEX
  if s.prog.active && (stationRec s.image i).isSome then
    let st := s.station i
    (st.miss * 2 ^ 24 + st.joins * 256 + (if st.fstate then 16 else 0) + st.state, st.missTotal, st.last % 2 ^ 32)
  else (0, 0, 0)

/-! ## CAN commands that reach the exchange -/

/-- The entry waits for a queue of a segment. -/
def waitsFor (seg : Nat) (q1 : Bool) (e : Nat × Nat × CanRecord) : Bool := e.1 == seg && (e.2.1 == 1) == q1

/-- Entries of a queue of a segment that an abort discards now. -/
def Sys.abortLoss (s : Sys) (seg : Nat) (q1 : Bool) : Nat :=
  let k := s.canOf seg
  let waiting := ((s.canAt k).queue q1).length + (s.hit.backlog.filter (waitsFor seg q1)).length
  if s.on (CAN_TXQ_ACTIVE k.val) && s.on (CAN_TXQ_ACTQ k.val) == q1 then waiting - 1 else waiting

/-- R300: a queue of a Hitil segment aborted at its deadline. An abort that finds only the frame on the bus discards it if its attempt fails. -/
def Sys.abortSegment (q1 : Bool) (s : Sys) (seg : Nat) : Sys :=
  if s.canRole (s.canOf seg) != roleHitil then s
  else
    let s1 := s.canAbortQueue (s.canOf seg) q1
    let s2 : Sys := { s1 with hit := { s1.hit with backlog := s1.hit.backlog.filter fun e => !waitsFor seg q1 e } }
    if s.abortLoss seg q1 = 0 then s2.modCan (s.canOf seg) fun c => { c with abortDue := c.abortActive } else s2.countAbort (s.canOf seg)

def Sys.abortHitil (s : Sys) (q1 : Bool) : Sys := (List.range 8).foldl (Sys.abortSegment q1) s

/-- A transmit attempt ends: the frame is sent and its entry leaves the queue, or the entry stays. -/
def Sys.canTxDone (s : Sys) (k : Fin 9) (sent : Bool) : Sys :=
  if !s.on (CAN_TXQ_ACTIVE k.val) then s
  else if sent then
    let q1 := s.on (CAN_TXQ_ACTQ k.val)
    let s1 := ((s.putB (CAN_TXQ_ACTIVE k.val) false).incWrap (CAN_TXCNT_COUNT k.val)).canLeave k q1 0
    (s1.canCounters k (s1.get (CAN_ERR_TEC k.val) - 1) (s1.get (CAN_ERR_REC k.val))).refill (s.segOf k)
  else s.attemptFails k

def execCanTxComplete (k : Fin 9) (sent : Bool) (s : State) : Host.Outcome State Fault Refusal := run (fun y => y.canTxDone k sent) s

/-- A frame of a Hitil segment as the exchange reads it: its bytes before the padding hold W words and, with AUTH, a tag. A join request
comes in fragment 0 (R280). -/
def Sys.canToHitil (s : Sys) (k : Fin 9) (f : CanInput) : Sys :=
  let seg := s.segOf k
  let i := 1024 + 32 * seg + bits f.id 3 5
  let w := nth 0 f.data 3
  let ws := (chunks 4 w (f.data.drop 4)).take w |>.map numLE
  let tag := if s.hit.auth then numBE ((f.data.drop (4 + 4 * w)).take 4) else 0
  let cycle := numLE (f.data.take 2)
  if bits f.id 8 3 = 3 then
    s.hitilInput { bus := seg, source := 0, ver := 1, station := i, flags := nth 0 f.data 2, len := 4 * w, cycle := cycle, fragment := bits f.id 0 3, words := ws, tag := tag }
  else if bits f.id 8 3 = 4 && bits f.id 0 3 = 0 then
    s.joinRequest { bus := seg, source := 0, ver := 1, station := i, flags := nth 0 f.data 2, len := 4 * w, cycle := cycle, payload := (f.data.drop 4).take 16,
                    tag := if s.hit.auth then numBE ((f.data.drop 20).take 4) else 0 }
  else s.incWrap HIT_FMTERR_COUNT

/-- R297: a frame on the bus, from its start-of-frame bit to its end. A controller in NORMAL takes a frame with BRS under the protocol
exception while the data rate is not locked (R307); one in LISTEN delivers it when it decodes. -/
def Sys.canReceive (s0 : Sys) (k : Fin 9) (f : CanInput) : Sys :=
  let s := s0.elapse f.clocks
  let c := s.canAt k
  let late := s.searching k && f.arbOk && f.fdf && f.brs
  if c.failed || c.mode = modeOff || (c.mode != modeDetect && c.busOff != 0) then s
  else if c.mode = modeDetect then s.searchFrame k f
  else if late && c.mode = modeNormal then s.searchLate k f
  else
    let s1 := if late then s.searchLate k f else s
    if !f.arbOk || !f.dataOk then s1
    else
      let s2 := s1.goodReception k
      if s.canRole k = roleHitil then
        if !f.ide && 1 ≤ bits f.id 8 3 && bits f.id 8 3 ≤ 5 then s2.canToHitil k f else s2.incWrap (CAN_FOREIGN_COUNT k.val)
      else s2.toFifo k f s0.ang.time

def execCanFrameReceived (k : Fin 9) (frame : CanInput) (s : State) : Host.Outcome State Fault Refusal := run (fun y => y.canReceive k frame) s

/-- R248 with R300: the channels of an apply angle; at the header's APPLY the outputs of the cycle before are no longer sent. -/
def execOutputApply (angle : Nat) (s : State) : Host.Outcome State Fault Refusal :=
  run (fun y => let z := y.outputApply angle; if angle = structApply y.image && y.angleComes angle then z.abortHitil false else z) s

end Sys2Proof.Machine
end

