-- ==== Sys2Proof/Machine/Integrity.lean ====
section
/-!
DEFINITION. Memory integrity (spec/13_memory_integrity_and_spares.md): the code and its decoder (R351, R352), the scrubbers (R369), DRAM
pages, poison and failure (R357 to R361), lane rows (R363), control SRAM (R364), loft sectors (R367) and the repair record (R368).
-/
namespace Sys2Proof.Machine

/-! ## The code (R351, R352) -/

/-- A byte times α in GF(2^8) with the polynomial of R351. -/
def rsTimes (x : Byte) : Byte := if x.msb then (x <<< 1) ^^^ 0x1D#8 else x <<< 1

/-- A product of GF(2^8), by the low `k` bits of the second factor. -/
def rsMul (a b : Byte) : Nat → Byte
  | 0 => 0
  | k + 1 => rsTimes (rsMul a (b >>> 1) k) ^^^ (if b.getLsbD 0 then a else 0)

/-- α to the power `k`. -/
def rsAlpha : Nat → Byte
  | 0 => 1
  | k + 1 => rsTimes (rsAlpha k)

/-- The check bytes p0 to p3 of 32 data bytes: the remainder modulo the generator, whose coefficients below x^4 are those of
(x − 1)(x − α)(x − α²)(x − α³). -/
def rsCheck (data : List Byte) : List Byte :=
  data.foldl (fun (p : List Byte) d =>
    let f := d ^^^ p.getD 0 0
    [p.getD 1 0 ^^^ rsMul 0x0F f 8, p.getD 2 0 ^^^ rsMul 0x36 f 8, p.getD 3 0 ^^^ rsMul 0x78 f 8, rsMul 0x40 f 8]) [0, 0, 0, 0]

/-- Syndrome `j` of 36 bytes. -/
def rsSyndrome (c : List Byte) (j : Nat) : Byte := c.foldl (fun acc b => rsMul acc (rsAlpha j) 8 ^^^ b) 0

/-- The syndromes of an error of value `v` at byte `i`. -/
def rsErrorSyndrome (i : Nat) (v : Byte) (j : Nat) : Byte := rsMul v (rsAlpha (j * (35 - i))) 8

/-- What a decoder does: CLEAN, CORRECTED with the errors it takes away, or UNCORRECTABLE. -/
inductive Decoded where
  | clean
  | corrected (errors : List (Nat × Byte))
  | uncorrectable
deriving DecidableEq, Repr

/-- The errors have the syndromes of the word. -/
def rsExplains (c : List Byte) (es : List (Nat × Byte)) : Bool :=
  (List.range 4).all fun j => es.foldl (fun acc e => acc ^^^ rsErrorSyndrome e.1 e.2 j) 0 == rsSyndrome c j

/-- The inverse in the code's field, 0 for 0: the 254th power. -/
def rsInv (x : Byte) : Byte :=
  let m := fun a b => rsMul a b 8
  let x2 := m x x
  let x4 := m x2 x2
  let x8 := m x4 x4
  let x16 := m x8 x8
  let x32 := m x16 x16
  let x64 := m x32 x32
  m (m (m x2 x4) (m x8 x16)) (m (m x32 x64) (m x64 x64))

/-- The single error that explains the word. -/
def rsOne (c : List Byte) : Option (List (Nat × Byte)) :=
  ((List.range 36).find? fun i => rsExplains c [(i, rsSyndrome c 0)]).map fun i => [(i, rsSyndrome c 0)]

/-- The pair of errors at bytes `i` and `k` that S0 and S1 ask for. -/
def rsPair (c : List Byte) (i k : Nat) : List (Nat × Byte) :=
  let x := rsAlpha (35 - i)
  let y := rsAlpha (35 - k)
  let a := rsMul (rsMul (rsSyndrome c 0) y 8 ^^^ rsSyndrome c 1) (rsInv (x ^^^ y)) 8
  [(i, a), (k, rsSyndrome c 0 ^^^ a)]

/-- The two errors that explain the word. -/
def rsTwo (c : List Byte) : Option (List (Nat × Byte)) :=
  (((List.range 36).map fun i => ((List.range i).map fun k => rsPair c k i)).flatten).find? fun es => rsExplains c es

/-- The decoder of a mode over 36 bytes: C1D3, or C2. -/
def rsDecode (c2 : Bool) (c : List Byte) : Decoded :=
  if (List.range 4).all fun j => rsSyndrome c j == 0 then .clean
  else match rsOne c with
    | some es => .corrected es
    | none => if c2 then (match rsTwo c with
        | some es => .corrected es
        | none => .uncorrectable) else .uncorrectable

/-! ## Faults in a word -/

/-- A scrubbed word's faults: what a read finds XORed onto its 36 bytes. The code is linear, so these alone decide the outcome. -/
def faultBytes (bad : List Nat) : List Byte := (List.range 36).map fun i => BitVec.ofNat 8 (nth 0 bad i)

/-- The data bytes of a word changed by a pattern. -/
def Sys.xorWord (s : Sys) (a : Nat) (p : List Byte) : Sys :=
  { s with mem := (mapIx (fun i b => (i, b)) 0 (p.take 32)).foldl (fun m (x : Nat × Byte) =>
      if x.2 = 0 then m else memSetByte m (a + x.1) (memByte m (a + x.1) ^^^ x.2)) s.mem }

/-- What stays wrong after a correction. -/
def residue (p : List Byte) (es : List (Nat × Byte)) : List Byte :=
  mapIx (fun i b => es.foldl (fun acc e => if e.1 = i then acc ^^^ e.2 else acc) b) 0 p

/-- The memories of MEM_UEI.MEM. -/
abbrev memDram : Nat := 0
abbrev memCtl : Nat := 5
abbrev memLoft : Nat := 6

/-- The mode bit of a memory (MEM_CTL.MODE). -/
def Sys.modeC2 (s : Sys) (mem : Nat) : Bool :=
  (s.get MEM_CTL_MODE).testBit (if mem = memDram then 0 else if mem ≤ 4 then 1 else if mem = memCtl then 2 else 3)

/-- MEM_UEA and MEM_UEI show an uncorrectable word. -/
def Sys.showUe (s : Sys) (mem addr req : Nat) : Sys :=
  (((s.setWord MEM_UEA addr).put MEM_UEI_MEM mem).put MEM_UEI_REQ req).putB MEM_UEI_VALID true

/-! ## DRAM (R355 to R361) -/

/-- The data page of a module address, and the check page of its word, by physical number. -/
def dataPage (a : Nat) : Nat := (a - 0x80000000) / 4096
def checkPage (a : Nat) : Nat := 229376 + (a - 0x80000000) / 32768

/-- R361: the DRAM fails. -/
def Sys.dramFails (s : Sys) : Sys := if s.get MEM_STAT_DRAM = dramFailed then s else (s.put MEM_STAT_DRAM dramFailed).note 0x0C04

/-- The page holds the larder, the pantry or the point mirror, or their check bytes. -/
def vitalPage (p : Nat) : Bool :=
  let vital := fun q => q < 1024 || (196608 ≤ q && q < 229376)
  if p < 229376 then vital p else p < 258048 && (List.range 8).any fun i => vital (8 * (p - 229376) + i)

/-- R358 to R360: a page starts its copy into the lowest free spare. -/
def Sys.retirePage (s : Sys) (p : Nat) : Sys :=
  if s.mi.pageCopies.any fun r => r.target == p then s
  else match freeOf 4096 s.mi.pagesUsed with
    | some k => { s with mi := { s.mi with pageCopies := s.mi.pageCopies ++ [⟨p, k, 0, false⟩], pagesUsed := k :: s.mi.pagesUsed } }
    | none => let s1 := s.note 0x0C03; if vitalPage p then s1.dramFails else s1

/-- R357: a word whose data is lost enters the poison table, or is written as zero. -/
def Sys.poisonWord (s : Sys) (a : Nat) : Sys :=
  if s.mi.poison.contains a then s
  else if s.mi.poison.length < 64 then { s with mi := { s.mi with poison := a :: s.mi.poison } }
  else { s with mem := memZero s.mem a 32 }.post 0x0C05 0 [(a, 4)]

/-- An UNCORRECTABLE read of a DRAM word by a requester. -/
def Sys.dramUe (s : Sys) (a req : Nat) : Sys :=
  let times := (s.fclk :: s.mi.ueTimes).filter fun t => s.fclk < t + clocksPerSecond
  let s1 := (((s.incSat MEM_DUE_COUNT).showUe memDram a req).post 0x0C02 0 [(a, 4), (req, 1)]).poisonWord a
  let s2 := { s1 with mi := { s1.mi with ueTimes := times.take 16 } }
  let s3 := if s2.on MEM_CTL_AUTORET then s2.retirePage (dataPage a) else s2
  if 16 ≤ times.length then s3.dramFails else s3

/-- The bytes of a row that are enabled written; an entry of 256 or more is a byte whose enable is 0. -/
def memPutSome (m : List Host.Cell) (a : Nat) : List Nat → List Host.Cell
  | [] => m
  | b :: bs => memPutSome (if b < 256 then memSetByte m a (BitVec.ofNat 8 b) else m) (a + 1) bs

/-- The part of a row of bytes at `a` that falls into word `g`, with its address. -/
def wordPart (a g : Nat) (bs : List Nat) : Nat × List Nat :=
  let lo := Nat.max (32 * g) a
  (lo, (bs.drop (lo - a)).take (32 * g + 32 - lo))

/-- A write of one DRAM word, or of part of it: a part is a read-modify-write, discarded where the word is uncorrectable (R354). -/
def Sys.dramWord (req a : Nat) (bs : List Nat) (s : Sys × Bool) (g : Nat) : Sys × Bool :=
  let p := wordPart a g bs
  let whole := p.2.length == 32 && p.2.all fun b => b < 256
  if s.1.mi.poison.contains (32 * g) && !whole then (s.1.dramUe (32 * g) req, true)
  else
    let s1 := { s.1 with mem := memPutSome s.1.mem p.1 p.2 }
    (if whole then s1.heal (32 * g) 32 else s1, s.2)

/-- Bytes written to DRAM; the answer says that a word was uncorrectable. -/
def Sys.dramPut (s : Sys) (req a : Nat) (bs : List Nat) : Sys × Bool := (granulesOf a bs.length).foldl (Sys.dramWord req a bs) (s, false)

/-- Bytes read from DRAM: the uncorrectable words are counted, and the answer says that there was one (R353, R357). -/
def Sys.dramGet (s : Sys) (req a n : Nat) : Sys × Bool :=
  let bad := s.mi.poison.filter fun g => g < a + n && a < g + 32
  (bad.foldl (fun y g => y.dramUe g req) s, !bad.isEmpty)

/-- A correction entered in a history of at most `n` items: the item comes first, its distinct words with it. -/
def noteCorrection (n : Nat) (h : List (Nat × List Nat)) (item word : Nat) : List (Nat × List Nat) :=
  ((item, insertAsc word (lookupD [] h item)) :: h.filter fun x => x.1 != item).take n

/-- The run of consecutive passes in which a word was corrected, this pass included. -/
def Sys.scrubRun (s : Sys) (mem a : Nat) : Nat × Sys :=
  let pass := lookupD 0 s.mi.passes mem
  let old := lookupD (0, 0) s.mi.runs a
  let run := if old.2 = 0 then 1 else if old.1 = pass then old.2 else if old.1 + 1 = pass then old.2 + 1 else 1
  (run, { s with mi := { s.mi with runs := putKey s.mi.runs a (pass, run) } })

/-- A correction counted against a page, at a word corrected in `run` consecutive passes. -/
def Sys.countCorrection (a run : Nat) (s : Sys) (p : Nat) : Sys :=
  let h := noteCorrection 256 s.mi.dramHist p a
  let s1 := { s with mi := { s.mi with dramHist := h } }
  if s1.on MEM_CTL_AUTORET && (s1.get MEM_THR_PCE ≤ (lookupD [] h p).length || s1.get MEM_THR_SCE ≤ run) then
    Sys.retirePage { s1 with mi := { s1.mi with dramHist := h.filter fun x => x.1 != p } } p
  else s1

/-- A CORRECTED scrub read of a DRAM word, with its errors: those in the data count against the data page, those in the check bytes against
the check page (R358). -/
def Sys.dramCe (s : Sys) (a : Nat) (es : List (Nat × Byte)) : Sys :=
  let r := (s.incSat MEM_DCE_COUNT).scrubRun memDram a
  ((if es.any fun e => e.1 < 32 then [dataPage a] else []) ++ (if es.any fun e => 32 ≤ e.1 then [checkPage a] else [])).foldl
    (Sys.countCorrection a r.1) r.2

/-! ## The repair record (R368) -/

/-- A copy of the repair record in the loft. -/
def repairCopy (k : Nat) : Nat := 0x10000 + 0x10000 * k

def Sys.repairOk (s : Sys) (k : Nat) : Bool :=
  s.loftRd (repairCopy k + 0x10) 4 == 1 && s.loftRd (repairCopy k + 0x0C) 4 == crc32 (s.loftBytes (repairCopy k + 0x20) 0xFFE0)

/-- The copy with the higher SEQ of those that are valid. -/
def Sys.repairNewest (s : Sys) : Option Nat :=
  newerSlot (s.repairOk 0) (s.repairOk 1) (s.loftRd (repairCopy 0 + 4) 4) (s.loftRd (repairCopy 1 + 4) 4)

/-- The body of the record put into memory at `a`. -/
def Integrity.body (x : Integrity) (m : List Host.Cell) (a : Nat) : List Host.Cell :=
  let m0 := memZero m (a + 0x20) 0xFFE0
  let m1 := (mapIx (fun i p => (i, p)) 0 x.pages).foldl (fun m (e : Nat × Nat × Nat) =>
    memWrite m (a + 0x20 + 4 * e.1) 4 (e.2.1 + e.2.2 * 2 ^ 18 + (if e.2.1 < 229376 then 1 else 2) * 2 ^ 30)) m0
  let m2 := x.rows.foldl (fun m e => memWrite m (a + 0x4020 + 128 * (e.1 / 8192) + 2 * e.2) 2 (e.1 % 8192 + 2 ^ 15)) m1
  x.wear.foldl (fun m e => memWrite m (a + 0x4220 + 4 * e.1) 4 (Nat.min e.2 0xFFFFFFFF)) m2

/-- The record written into the copy that does not hold the higher SEQ: the body, then CRC, then DONE. -/
def Sys.writeRepair (s : Sys) : Sys :=
  let k := match s.repairNewest with
    | some n => 1 - n
    | none => 0
  let seq := match s.repairNewest with
    | some n => s.loftRd (repairCopy n + 4) 4 + 1
    | none => 1
  let o := repairCopy k
  let s0 := s.loftWr (o + 0x10) 4 0
  let s1 := Sys.wearLoft { s0 with mem := s0.mi.body s0.mem (loftBase + o) } (o + 0x20) 0xFFE0
  let s2 := (((s1.loftWr o 4 0x100).loftWr (o + 4) 4 seq).loftWr (o + 8) 4 s1.mi.pages.length)
  (s2.loftWr (o + 0x0C) 4 (crc32 (s2.loftBytes (o + 0x20) 0xFFE0))).loftWr (o + 0x10) 4 1

/-- R359: the copy of a page ends; `bad` are the words of it that were UNCORRECTABLE. A DRAM that has failed ends no copy (R361). -/
def Sys.pageRetired (s : Sys) (page : Nat) (bad : List Nat) : Sys :=
  match if s.dramUp then s.mi.pageCopies.find? fun r => r.target == page else none with
  | none => s
  | some r =>
    let base := if page < 229376 then 0x80000000 + 4096 * page else 0x80000000 + 32768 * (page - 229376)
    let s1 := bad.foldl (fun s w => s.poisonWord (base + 32 * w)) s
    let s2 := { s1 with mi := { s1.mi with
      pageCopies := s1.mi.pageCopies.filter fun x => x.target != page, pages := putKey s1.mi.pages page r.spare } }
    ((s2.put MEM_SPARE_DPFREE (4096 - s2.mi.pagesUsed.length)).post 0x0C01 0 [(page, 4), (r.spare, 2)]).writeRepair

def execPageRetired (page : Nat) (bad : List Nat) (s : State) : Host.Outcome State Fault Refusal := run (fun y => y.pageRetired page bad) s

/-! ## Lane SRAM (R363) -/

/-- MEM_LROW.FREEn. -/
def rowFree (n : Nat) : Fld := ⟨MEM_LROW, 8 * n, 7⟩

/-- A row starts its copy into the lowest free spare row of its lane, or stays with 0x0C08. -/
def Sys.repairRow (s : Sys) (n : Fin 4) (row : Nat) : Sys :=
  let t := 8192 * n.val + row
  if s.mi.rowCopies.any fun r => r.target == t then s
  else match (List.range 64).find? fun k => !s.mi.rowsUsed.contains (64 * n.val + k) with
    | some k => { s with mi := { s.mi with rowCopies := s.mi.rowCopies ++ [⟨t, k, n.val, false⟩], rowsUsed := (64 * n.val + k) :: s.mi.rowsUsed } }
    | none => s.laneNote 0x0C08 n

/-- An UNCORRECTABLE word of a lane: a lane that runs is removed with cause 5, a target begins its reintegration again, and the row
is repaired. -/
def Sys.laneUe (s : Sys) (n : Fin 4) (row addr req : Nat) : Sys :=
  let s1 := (((s.incSat MEM_LUE_COUNT).showUe (n.val + 1) addr req).post 0x0C06 0 [(n.val, 1), (row, 2)])
  let s2 := if s1.runs n then s1.removeLane n 5
    else if s1.laneState n = lanePrecopy || s1.laneState n = laneFinal then s1.endCopy.setLaneState n laneReload
    else s1
  s2.repairRow n row

/-- A CORRECTED scrub read of a lane's word. -/
def Sys.laneCe (s : Sys) (n : Fin 4) (row a : Nat) : Sys :=
  let t := 8192 * n.val + row
  let r := (s.incSat (MEM_LCE_COUNT n.val)).scrubRun (n.val + 1) a
  let h := noteCorrection 8192 r.2.mi.rowHist t a
  let s1 := { r.2 with mi := { r.2.mi with rowHist := h } }
  if s1.get MEM_THR_RCE ≤ (lookupD [] h t).length || 2 ≤ r.1 then
    Sys.repairRow { s1 with mi := { s1.mi with rowHist := h.filter fun x => x.1 != t } } n row
  else s1

/-- The copy of a row ends; `bad` says that it met an UNCORRECTABLE word. A lane in RESET may have waited for it. -/
def Sys.rowRepaired (s : Sys) (n : Fin 4) (row : Nat) (bad : Bool) : Sys :=
  let t := 8192 * n.val + row
  match s.mi.rowCopies.find? fun r => r.target == t with
  | none => s
  | some r =>
    let s1 := if bad then s.laneUe n row (laneBase n + 1024 * row) 7 else s
    let s2 := { s1 with mi := { s1.mi with rowCopies := s1.mi.rowCopies.filter fun x => x.target != t, rows := putKey s1.mi.rows t r.spare } }
    let left := 64 - (s2.mi.rowsUsed.filter fun k => k / 64 == n.val).length
    let s3 := ((s2.put (rowFree n.val) left).post 0x0C07 0 [(n.val, 1), (row, 2), (r.spare, 1)]).writeRepair
    if s3.laneState n = laneReset then s3.startNext else s3

def execRowRepairDone (lane : Fin 4) (row : Nat) (bad : Bool) (s : State) : Host.Outcome State Fault Refusal :=
  run (fun y => y.rowRepaired lane row bad) s

/-! ## Control SRAM (R364) -/

/-- The region of an offset in control SRAM, in the order of R19. -/
def ctlRegion (o : Nat) : Nat :=
  if o < 0x80000 then 0 else if o < 0x100000 then 1 else if o < 0x180000 then 2 else if o < 0x190000 then 3
  else if o < 0x1A0000 then 4 else if o < 0x1A1000 then 5 else 6

/-- The points of a word. -/
def pointsOf (o : Nat) : List Nat := (List.range 8).map fun i => o / 32 * 8 + i

/-- A station table entry lost: its station waits, with REJOIN; or a frame is discarded. Where they lie in the working area is not the
spec's, so which it is stays open. -/
def Sys.stationWordLost (s : Sys) : Sys :=
  let d := s.draw
  match (stationRecs s.image)[d.1 % ((stationRecs s.image).length + 1)]? with
  | some r => d.2.modStation r.index fun st => { st with state := stWaiting, miss := 0, rejoin := true, admitAt := none, fragments := [], setDone := false }
  | none => d.2

/-- An UNCORRECTABLE word of control SRAM at offset `o`, by region. -/
def Sys.ctlUe (s : Sys) (o req : Nat) : Sys :=
  let r := ctlRegion o
  let s1 := ((s.incSat MEM_CSUE_COUNT).showUe memCtl (0x20000000 + o) req).post 0x0C09 0 [(r, 1), (o, 4)]
  if r ≤ 1 then { s1 with mem := memZero s1.mem (0x20000000 + o / 32 * 32) 32 }
  else if r = 2 then { s1 with mi := { s1.mi with droppedPoints := s1.mi.droppedPoints ++ pointsOf (o - 0x100000) } }
  else if r = 3 then s1.dropBlock
  else if r = 4 then
    let k := (o - 0x190000) / 32
    { s1 with chg := { s1.chg with queue := ((mapIx (fun i c => (i, c)) 0 s1.chg.queue).filter fun x => x.1 / 2 != k).map fun x => x.2 } }
  else if r = 5 then s1.requestRestart
  else s1.stationWordLost

/-- A CORRECTED scrub read of control SRAM; the second of two consecutive passes is reported. -/
def Sys.ctlCe (s : Sys) (a : Nat) : Sys :=
  let r := (s.incSat MEM_CSCE_COUNT).scrubRun memCtl a
  if r.1 = 2 then r.2.note 0x0C0A else r.2

/-! ## The loft (R367) -/

/-- An UNCORRECTABLE word of the loft. -/
def Sys.loftUe (s : Sys) (o req : Nat) : Sys :=
  let s1 := (s.showUe memLoft (loftBase + o) req).post 0x0C0C 0 [(loftBase + o, 4)]
  if o < 0xF00000 then s1.replaceSector (o / 4096) false else s1

/-- A CORRECTED scrub read of the loft. -/
def Sys.loftCe (s : Sys) (o : Nat) : Sys :=
  let l := o / 4096
  let s1 := s.incSat MEM_LFCE_COUNT
  let h := noteCorrection 4096 s1.mi.loftHist l o
  let s2 := { s1 with mi := { s1.mi with loftHist := h } }
  if l < 3840 && s2.get MEM_THR_SECE ≤ (lookupD [] h l).length then
    Sys.replaceSector { s2 with mi := { s2.mi with loftHist := h.filter fun x => x.1 != l } } l false
  else s2

/-- The copy of a sector ends with the spare's tag; `bad` are the words that are written as zero. -/
def Sys.sectorReplaced (s : Sys) (l : Nat) (bad : List Nat) : Sys :=
  match s.mi.sectorCopies.find? fun r => r.target == l with
  | none => s
  | some r =>
    let s1 := bad.foldl (fun s w => { s with mem := memZero s.mem (loftBase + 4096 * l + 32 * w) 32 }) s
    let s2 := { s1 with mi := { s1.mi with
      sectorCopies := s1.mi.sectorCopies.filter fun x => x.target != l, sectors := putKey s1.mi.sectors l (3840 + r.spare) } }
    let s3 := (s2.countSector l 128).put MEM_SPARE_LSFREE (256 - s2.mi.sectorsUsed.length)
    let s4 := s3.post 0x0C0B 0 [(l, 2), (3840 + r.spare, 2)]
    if r.wear then s4.note 0x0C0E else s4

def execSectorReplaced (sector : Nat) (bad : List Nat) (s : State) : Host.Outcome State Fault Refusal := run (fun y => y.sectorReplaced sector bad) s

/-- R367: the write counts added to the repair record. -/
def Sys.saveWear (s : Sys) : Sys :=
  let wear := s.mi.writes.foldl (fun w e => putKey w e.1 (lookupD 0 w e.1 + e.2)) s.mi.wear
  Sys.writeRepair { s with mi := { s.mi with wear := wear, writes := [] } }

def execWearCountSave (s : State) : Host.Outcome State Fault Refusal := run Sys.saveWear s

/-! ## Scrubbing (R369) -/

/-- The last word that a memory's scrubber reads in a pass. -/
def lastScrubbed (mem : Nat) : Nat := if mem = memDram then 0x37FFFFE0 else if mem ≤ 4 then 0x7FFFE0 else if mem = memCtl then 0x1FFFE0 else 0xFFFFE0

/-- The word scrubbed is the last of a pass. -/
def Sys.endPass (s : Sys) (mem : Nat) : Sys :=
  let s1 := { s with mi := { s.mi with passes := putKey s.mi.passes mem (lookupD 0 s.mi.passes mem + 1) } }
  if mem = memDram then s1.incWrap MEM_SCRUB_PASSES else s1

/-- The module address of offset `o` in a memory. -/
def memoryBase (mem : Nat) : Nat :=
  if mem = memDram then 0x80000000 else if mem ≤ 4 then laneBase (Fin.ofNat 4 (mem - 1)) else if mem = memCtl then 0x20000000 else loftBase

/-- The scrubber of the memory runs. -/
def Sys.scrubs (s : Sys) (mem : Nat) : Bool :=
  if mem = memDram then s.get MEM_STAT_DRAM == dramRun
  else if mem ≤ 4 then
    let st := s.laneState (Fin.ofNat 4 (mem - 1))
    st != laneReset && st != laneReload && st != laneRetired && s.domUp (mem + 1)
  else if mem = memCtl then s.domUp 1
  else mem = memLoft

/-- An UNCORRECTABLE scrub read. -/
def Sys.scrubUe (s : Sys) (mem o : Nat) : Sys :=
  if mem = memDram then s.dramUe (0x80000000 + o) 15
  else if mem ≤ 4 then s.laneUe (Fin.ofNat 4 (mem - 1)) (o / 1024) (memoryBase mem + o) 15
  else if mem = memCtl then s.ctlUe o 15
  else s.loftUe o 15

/-- A CORRECTED scrub read. -/
def Sys.scrubCe (s : Sys) (mem o : Nat) (es : List (Nat × Byte)) : Sys :=
  if mem = memDram then s.dramCe (0x80000000 + o) es
  else if mem ≤ 4 then s.laneCe (Fin.ofNat 4 (mem - 1)) (o / 1024) (memoryBase mem + o)
  else if mem = memCtl then s.ctlCe (0x20000000 + o)
  else s.loftCe o

/-- A word read by the scrubber of a memory, at offset `off` of it, with the faults that it holds. A corrected word is written back. -/
def Sys.scrubWord (s : Sys) (mem off : Nat) (bad : List Nat) : Sys :=
  let o := off / 32 * 32
  if !s.scrubs mem || lastScrubbed mem < o then s
  else
    let p := faultBytes bad
    let a := memoryBase mem + o
    let poisoned := mem == memDram && s.mi.poison.contains a
    let s1 := match rsDecode (s.modeC2 mem) p with
      | .clean => let t := s.xorWord a p; if poisoned then t.scrubUe mem o else t
      | .corrected es => let t := s.xorWord a (residue p es); if poisoned then t.scrubUe mem o else t.scrubCe mem o es
      | .uncorrectable => (s.xorWord a p).scrubUe mem o
    if o = lastScrubbed mem then s1.endPass mem else s1

def execScrubWord (mem : Nat) (addr : Nat) (bad : List Nat) (s : State) : Host.Outcome State Fault Refusal := run (fun y => y.scrubWord mem addr bad) s

/-! ## Forced repair (MEM_RCMD) -/

/-- The page that a spare page serves. -/
def Sys.servedPage (s : Sys) (spare : Nat) : Option Nat := (s.mi.pages.find? fun e => e.2 == spare).map fun e => e.1

def Sys.forcedRepair (s : Sys) (data : Nat) : Sys :=
  let ix := bits data 0 18
  let kind := bits data 30 2
  if kind = 1 then
    if ix < 258048 then s.retirePage ix
    else match s.servedPage (ix - 258048) with
      | some p => s.retirePage p
      | none => s.note 0x0C11
  else if kind = 2 then (if ix < 8192 then s.repairRow (Fin.ofNat 4 (bits data 28 2)) ix else s.note 0x0C11)
  else if kind = 3 then (if ix < 3840 then s.replaceSector ix false else s.note 0x0C11)
  else s

def execForcedRepair (data : Nat) (s : State) : Host.Outcome State Fault Refusal := run (fun y => y.forcedRepair data) s

end Sys2Proof.Machine
end

