-- ==== Sys2Proof/Machine/Dma.lean ====
section
/-!
DEFINITION. The DMA engine with its descriptors, lockers and CAN rings, the arbiter and the semaphores
(spec/12_dma_arbiter_semaphores.md).
-/
namespace Sys2Proof.Machine

/-! ## Channels (R329 to R335) -/

/-- DMA_CHSTAT.STATE. -/
abbrev chIdle : Nat := 0
abbrev chRun : Nat := 1
abbrev chStopped : Nat := 2
abbrev chError : Nat := 3

def Sys.chState (s : Sys) (c : Fin 16) : Nat := s.get (DMA_CHSTAT_STATE c.val)

/-- A tagged channel's locker; an untagged one acts for the house. -/
def Sys.chLocker (s : Sys) (c : Fin 16) : Nat := if s.on (DMA_CHLK_LKEN c.val) then s.get (DMA_CHLK_LOCKER c.val) else 0

/-- An event of a channel, under its locker (R336). -/
def Sys.chPost (s : Sys) (c : Fin 16) (code : Nat) : Sys := s.post code (s.chLocker c) [(c.val, 1)]

def Sys.setDesc (s : Sys) (c : Fin 16) (d : Option Descriptor) : Sys := { s with dma := s.dma.set c { desc := d } }

/-- A descriptor address lies in the area of the channel's class. -/
def descArea (c : Fin 16) (a : Nat) : Bool :=
  (0x80400000 ≤ a && a + 32 ≤ 0x84000000) || (10 ≤ c.val && 0x10000000 ≤ a && a + 32 ≤ 0x10100000)

/-- A descriptor read from memory (R330). -/
def descriptorAt (m : List Host.Cell) (a : Nat) : Descriptor :=
  { at_ := a, src := memRead m a 8, dst := memRead m (a + 8) 8, len := bits (memRead m (a + 16) 4) 0 24, ctl := memRead m (a + 20) 4,
    next := memRead m (a + 24) 4, lenHigh := bits (memRead m (a + 16) 4) 24 8 }

def Descriptor.swap (d : Descriptor) : Nat := bits d.ctl 0 2
def Descriptor.ssp (d : Descriptor) : Nat := bits d.ctl 2 2
def Descriptor.dsp (d : Descriptor) : Nat := bits d.ctl 4 2
def Descriptor.irq (d : Descriptor) : Bool := d.ctl.testBit 8
def Descriptor.last (d : Descriptor) : Bool := d.ctl.testBit 9

/-- The unit that SWAP rearranges (R332). -/
def Descriptor.swapUnit (d : Descriptor) : Nat := if d.swap = 0 then 1 else if d.swap = 1 then 2 else 4

/-- STATUS 0x01 (R331). -/
def Descriptor.malformed (d : Descriptor) : Bool :=
  d.len == 0 || d.lenHigh != 0 || bits d.ctl 6 2 != 0 || bits d.ctl 10 22 != 0 || 1 < d.ssp || 1 < d.dsp
    || d.src % d.swapUnit != 0 || d.dst % d.swapUnit != 0 || d.len % d.swapUnit != 0

/-- `[a, a + n)` lies in `[lo, hi)`. -/
def within (a n lo hi : Nat) : Bool := lo ≤ a && a + n ≤ hi

/-- A host data channel reaches a range of module addresses. -/
def hostReach (source : Bool) (a n : Nat) : Bool := within a n 0x80400000 0xB0000000 || (source && within a n 0x80000000 0x80400000)

/-- The ranges of R27 beside the register blocks and the boot ROM. -/
def mgmtRanges : List (Nat × Nat) :=
  [(0x10000000, 0x10100000), (0x20000000, 0x20200000), (0x30000000, 0x31000000), (0x50000000, 0x50800000), (0x51000000, 0x51800000),
   (0x52000000, 0x52800000), (0x53000000, 0x53800000), (0x80000000, 0xB8000000)]

/-- A write through the window of a voting lane is beyond the management core's reach (R30, with the lanes that R69 counts as voting). -/
def Sys.laneBarred (s : Sys) (a n : Nat) : Bool :=
  allLanes.any fun k => s.receives k && a < laneBase k + 0x800000 && laneBase k < a + n

def Sys.mgmtReach (s : Sys) (source : Bool) (a n : Nat) : Bool :=
  (mgmtRanges.any fun r => within a n r.1 r.2) && (source || !s.laneBarred a n)

/-- STATUS 0x02 (R331). A module address of 4 GiB or more lies outside every reach. -/
def Sys.outOfClass (s : Sys) (c : Fin 16) (d : Descriptor) : Bool :=
  if c.val < 10 then
    (d.ssp == 1 && d.dsp == 1) || (d.ssp == 0 && !hostReach true d.src d.len) || (d.dsp == 0 && !hostReach false d.dst d.len)
  else d.ssp == 1 || d.dsp == 1 || !s.mgmtReach true d.src d.len || !s.mgmtReach false d.dst d.len

/-- A 64 KiB unit of DRAM is assigned to a locker (R434). -/
def Sys.lockerUnit (s : Sys) (t u : Nat) : Bool :=
  (List.range 64).any fun k =>
    s.on (LCK_RNGA_EN k) && s.get (LCK_RNGA_LOCKER k) == t && within u 1 (s.get (LCK_RNGA_BASE k)) (s.get (LCK_RNGA_BASE k) + s.get (LCK_RNGS_SIZE k))

/-- A tagged channel reaches `n` bytes at `a`: every unit lies in a range of its locker, or, for a source, in the mirror (R336). -/
def Sys.tagReach (s : Sys) (t : Nat) (source : Bool) (a n : Nat) : Bool :=
  (List.range ((a + n - 1) / 65536 + 1 - a / 65536)).all fun i =>
    let u := a / 65536 + i
    (source && within u 1 0x8000 0x8040) || s.lockerUnit t u

/-- STATUS 0x03 (R331, R336). -/
def Sys.outOfLocker (s : Sys) (c : Fin 16) (d : Descriptor) : Bool :=
  let ok := fun (source : Bool) (a : Nat) => s.tagReach (s.get (DMA_CHLK_LOCKER c.val)) source a d.len
  s.on (DMA_CHLK_LKEN c.val) && ((d.ssp == 0 && !ok true d.src) || (d.dsp == 0 && !ok false d.dst))

/-- The lane whose window holds an address, if one does (R27). -/
def windowOf (a : Nat) : Option (Fin 4) := allLanes.find? fun n => laneBase n ≤ a && a < laneBase n + 0x800000

/-- A lane's window acts as an absent peer: the lane is retired (R30), or its domain is down. -/
def Sys.laneAbsent (s : Sys) (n : Fin 4) : Bool := s.laneState n == laneRetired || !s.peerUp (2 + n.val)

/-- A write of the management core to the loft window; its last MiB is the spare range (R366). -/
def Sys.loftStore (s : Sys) (a size v : Nat) : Sys :=
  if 0x30F00000 ≤ a then s.note 0x0C11
  else s.loftWr (a - loftBase) size v

/-- A domain of an address has gone: the host's link, DRAM, a lane or the control SRAM. -/
def Sys.rangeAbsent (s : Sys) (host : Bool) (a : Nat) : Bool :=
  if host then !s.pwr.linkUp || !s.domUp 14
  else if 0x80000000 ≤ a then s.dramGap.isSome
  else match windowOf a with
  | some n => s.laneAbsent n
  | none => 0x20000000 ≤ a && a < 0x30000000 && !s.peerUp 1

/-- Bytes written at a module address; the answer says that a DRAM word was uncorrectable (R354). -/
def Sys.dmaPut (s : Sys) (req a : Nat) (bs : List Nat) : Sys × Bool :=
  if 0x80000000 ≤ a then s.dramPut req a bs
  else if within a 1 loftBase 0x31000000 then (s.loftStore a bs.length (numLE bs), false)
  else (s.putRow a bs, false)

/-- A STATUS written back with RESID. In a domain that has gone the write is discarded (R387). -/
def Sys.writeBack (s : Sys) (c : Fin 16) (d : Descriptor) (status resid : Nat) : Sys :=
  let wb := bytesLE 4 (resid % 2 ^ 24 + status * 2 ^ 24)
  let s1 := match if 0x80000000 ≤ d.at_ then s.dramGap else none with
    | some g => s.dropWrite g
    | none => (s.dmaPut (16 + c.val) (d.at_ + 28) wb).1
  (s1.put (DMA_CHSTAT_STATUS c.val) status).put (DMA_CHRES_RESID c.val) resid

/-- DMA_INT bit of a channel; bits 0 to 7 signal their vectors (R340). -/
def Sys.dmaInt (s : Sys) (c : Fin 16) : Sys := s.signal ⟨DMA_INT, c.val, 1⟩ (s.bit DMA_INTEN_CH c.val && c.val < 8) c.val

/-- A descriptor ends with an error: the channel stops in ERROR and its bit in DMA_INT sets whatever IRQ holds (R333). -/
def Sys.chFails (s : Sys) (c : Fin 16) (d : Descriptor) (status resid code : Nat) : Sys :=
  ((((s.writeBack c d status resid).put (DMA_CHSTAT_STATE c.val) chError).dmaInt c).setDesc c none).chPost c code

/-- The descriptor's source or destination domain has gone. -/
def Sys.descAbsent (s : Sys) (d : Descriptor) : Bool := s.rangeAbsent (d.ssp == 1) d.src || s.rangeAbsent (d.dsp == 1) d.dst

/-- A descriptor fetched and checked before any byte moves. One that cannot be fetched ends its list too: with 0x07 from a memory that has
gone (R387), with 0x06 from an uncorrectable word (DEDUCED, notes/assumptions/140.md). -/
def Sys.fetchDesc (s : Sys) (c : Fin 16) (a : Nat) : Sys :=
  let d := descriptorAt s.mem a
  let s1 := (s.put (DMA_CHSTAT_STATE c.val) chRun).setWord (DMA_CHCUR c.val) a
  if s1.rangeAbsent false a then s1.chFails c d 7 0 0x0B06
  else if s1.mi.poison.contains a then (s1.dramUe a (16 + c.val)).chFails c d 6 0 0x0B05
  else if d.malformed then s1.chFails c d 1 d.len 0x0B01
  else if s1.outOfClass c d then s1.chFails c d 2 d.len 0x0B02
  else if s1.outOfLocker c d then s1.chFails c d 3 d.len 0x0B03
  else if s1.descAbsent d then s1.chFails c d 7 d.len 0x0B06
  else s1.setDesc c (some d)

/-- The registers of a channel are closed to the host, or to everyone (R329, block 0x0B). -/
def chRefuses (who : Agent) (c : Fin 16) : Bool := who == .host && 10 ≤ c.val
def chMissing (c : Fin 16) : Bool := c == 8 || c == 9

/-- A write of GO. -/
def Sys.dmaGo (s : Sys) (who : Agent) (c : Fin 16) : Sys :=
  if chRefuses who c then s.note 0x0112
  else if chMissing c then s
  else
    let a := 32 * s.get (DMA_CHDESC_ADDR c.val)
    if s.chState c = chRun || !descArea c a || s.on (DMA_CHLK_VOID c.val) then s.chPost c 0x0B07 else s.fetchDesc c a

def execDmaGo (who : Agent) (c : Fin 16) (s : State) : Host.Outcome State Fault Refusal := run (fun y => y.dmaGo who c) s

/-! ### Moving the bytes -/

/-- Bytes with SWAP applied in their units (R332). -/
def swapBytes (swap : Nat) (bs : List Nat) : List Nat :=
  let at_ := fun (i : Nat) => nth 0 bs i
  (List.range bs.length).map fun i =>
    if swap = 0 then at_ i
    else if swap = 1 then at_ (if i % 2 = 0 then i + 1 else i - 1)
    else if swap = 2 then at_ (i / 4 * 4 + (3 - i % 4))
    else at_ (i / 4 * 4 + (i % 4 + 2) % 4)

/-- The bytes a tagged channel reads of the mirror: a record of another locker reads as zeros (R336). -/
def Sys.mirrorFiltered (s : Sys) (c : Fin 16) (a : Nat) (bs : List Nat) : List Nat :=
  if !s.on (DMA_CHLK_LKEN c.val) then bs
  else mapIx (fun i b =>
    let x := a + i
    if within x 1 0x80000000 0x80400000 && memRead s.mem (x / 32 * 32 + 6) 2 % 1024 != s.get (DMA_CHLK_LOCKER c.val) then 0 else b) 0 bs

/-- The bursts of a descriptor, each with its offset and length: at most 256 bytes, cut at 4 KiB of the host side (R333). -/
def burstsFrom (d : Descriptor) : Nat → Nat → List (Nat × Nat)
  | 0, _ => []
  | fuel + 1, ofs =>
    if d.len ≤ ofs then []
    else
      let h := if d.ssp = 1 then d.src else d.dst
      let room := if d.ssp = 1 || d.dsp = 1 then 4096 - (h + ofs) % 4096 else 256
      let n := Nat.min (Nat.min 256 room) (d.len - ofs)
      (ofs, n) :: burstsFrom d fuel (ofs + n)

def Descriptor.bursts (d : Descriptor) : List (Nat × Nat) := burstsFrom d (d.len / 128 + 2) 0

/-- The source bytes of one burst. Those of the spare sectors read 0 and post 0x0C11 (R366). -/
def Sys.burstRead (s : Sys) (c : Fin 16) (d : Descriptor) (b : Nat × Nat) : Sys × List Nat :=
  let a := d.src + b.1
  if d.ssp = 1 then (s, memBytes s.hostMem a b.2)
  else if a < 0x31000000 && 0x30F00000 < a + b.2 then (s.note 0x0C11, memBytes s.mem a b.2)
  else (s, s.mirrorFiltered c a (memBytes s.mem a b.2))

/-- One burst read, swapped and written; the answer says that it met an uncorrectable word, of which a source read writes nothing (R335). -/
def Sys.burst (s : Sys) (c : Fin 16) (d : Descriptor) (b : Nat × Nat) : Sys × Bool :=
  let got := if d.ssp = 1 then (s, false) else s.dramGet (16 + c.val) (d.src + b.1) b.2
  if got.2 then got
  else
    let r := got.1.burstRead c d b
    let bs := swapBytes d.swap r.2
    let w := if d.dsp = 1 then ({ r.1 with hostMem := memPutBytes r.1.hostMem (d.dst + b.1) bs }, false) else r.1.dmaPut (16 + c.val) (d.dst + b.1) bs
    if w.2 then w else (w.1.setWord (DMA_CHBYT c.val) (w.1.word (DMA_CHBYT c.val) + b.2), false)

/-- Bursts in order, up to the first that fails: its offset. -/
def Sys.runBursts (s : Sys) (c : Fin 16) (d : Descriptor) : List (Nat × Nat) → Sys × Option Nat
  | [] => (s, none)
  | b :: rest => let r := s.burst c d b; if r.2 then (r.1, some b.1) else Sys.runBursts r.1 c d rest

/-- The bytes of `k` bursts. -/
def Descriptor.moved (d : Descriptor) (k : Nat) : Nat := (d.bursts.take k).foldl (fun n b => n + b.2) 0

/-- `k` bursts moved: an uncorrectable word ends the descriptor with STATUS 0x06, else `after` goes on. -/
def Sys.moveBursts (s : Sys) (c : Fin 16) (d : Descriptor) (k : Nat) (after : Sys → Sys) : Sys :=
  let r := s.runBursts c d (d.bursts.take k)
  match r.2 with
  | some ofs => r.1.chFails c d 6 (d.len - ofs) 0x0B05
  | none => after r.1

/-- How many bursts had been moved at an event whose moment within the descriptor the command leaves open: a free number below `n`. -/
def Sys.burstsOpen (s : Sys) (n : Nat) : Sys × Nat := (s.draw.2, s.draw.1 % Nat.max 1 n)

/-- A descriptor ends with an error after a number of its bursts that is open (R335). -/
def Sys.failsMidway (s : Sys) (c : Fin 16) (d : Descriptor) (status code : Nat) : Sys :=
  let m := s.burstsOpen d.bursts.length
  m.1.moveBursts c d m.2 fun t => t.chFails c d status (d.len - d.moved m.2) code

/-- The channel goes on after a descriptor with STATUS 0x00. -/
def Sys.afterDesc (s : Sys) (c : Fin 16) (d : Descriptor) : Sys :=
  let s1 := if d.irq then s.dmaInt c else s
  if d.last then (s1.put (DMA_CHSTAT_STATE c.val) chIdle).setDesc c none
  else
    let a := d.next / 32 * 32
    if descArea c a then s1.fetchDesc c a
    else (((s1.put (DMA_CHSTAT_STATE c.val) chError).dmaInt c).setDesc c none).chPost c 0x0B07

/-- A descriptor's last burst ends, or a burst of it fails: on an uncorrectable word, on a domain that has gone down since it was fetched, or
on a range that LCK or R30 has taken away since (R434). -/
def Sys.descDone (s : Sys) (c : Fin 16) : Sys :=
  match s.dma[c].desc with
  | none => s
  | some d =>
    if s.descAbsent d then s.failsMidway c d 7 0x0B06
    else if s.outOfClass c d then s.failsMidway c d 2 0x0B02
    else if s.outOfLocker c d then s.failsMidway c d 3 0x0B03
    else s.moveBursts c d d.bursts.length fun t => (t.writeBack c d 0 0).afterDesc c d

def execDmaDescriptorDone (c : Fin 16) (s : State) : Host.Outcome State Fault Refusal := run (fun y => y.descDone c) s

/-- R334: a running channel aborted after a number of bursts that is open. When the last burst had ended, STATUS is 0x00 and IRQ acts. -/
def Sys.chAbort (s : Sys) (c : Fin 16) : Sys :=
  match s.dma[c].desc with
  | none => s
  | some d =>
    if s.descAbsent d then s.failsMidway c d 7 0x0B06
    else
      let m := s.burstsOpen (d.bursts.length + 1)
      let n := d.moved m.2
      m.1.moveBursts c d m.2 fun t =>
        let t1 := t.writeBack c d (if n = d.len then 0 else 4) (d.len - n)
        let t2 := if d.irq && n = d.len then t1.dmaInt c else t1
        ((t2.put (DMA_CHSTAT_STATE c.val) chStopped).setDesc c none).chPost c 0x0B08

/-- A write of ABORT. -/
def Sys.dmaAbort (s : Sys) (who : Agent) (c : Fin 16) : Sys :=
  if chRefuses who c then s.note 0x0112 else if chMissing c then s else if s.chState c = chRun then s.chAbort c else s

def execDmaAbort (who : Agent) (c : Fin 16) (s : State) : Host.Outcome State Fault Refusal := run (fun y => y.dmaAbort who c) s

/-- A host request without completion for 50 ms ends the descriptor with STATUS 0x05. -/
def Sys.completionTimeout (s : Sys) (c : Fin 16) : Sys :=
  match s.dma[c].desc with
  | none => s
  | some d => if d.ssp != 1 && d.dsp != 1 then s else s.failsMidway c d 5 0x0B04

def execDmaCompletionTimeout (c : Fin 16) (s : State) : Host.Outcome State Fault Refusal := run (fun y => y.completionTimeout c) s

/-! ## Tags (R336, R337) -/

/-- R337: VOID ends a binding; a running channel is aborted. LOCKER and LKEN stay. -/
def Sys.bindingVoid (s : Sys) (c : Fin 16) : Sys :=
  let s1 := s.putB (DMA_CHLK_VOID c.val) true
  if s1.chState c = chRun then s1.chAbort c else s1

def execBindingVoid (c : Fin 16) (s : State) : Host.Outcome State Fault Refusal := run (fun y => y.bindingVoid c) s

/-- A write of DMA_CHLKc by the firmware. -/
def Sys.chlkWrite (s : Sys) (c : Fin 16) (data : Nat) : Sys :=
  let changes := bits data 0 10 != s.get (DMA_CHLK_LOCKER c.val) || data.testBit 16 != s.on (DMA_CHLK_LKEN c.val)
  if chMissing c then s
  else if data.testBit 17 then (if s.chState c = chRun && changes then s.chPost c 0x0B07 else s.bindingVoid c)
  else if s.chState c = chRun then (if changes || s.on (DMA_CHLK_VOID c.val) then s.chPost c 0x0B07 else s)
  else s.storeWord (DMA_CHLK c.val) data

def execDmaChlkWrite (c : Fin 16) (data : Nat) (s : State) : Host.Outcome State Fault Refusal := run (fun y => y.chlkWrite c data) s

/-! ## CAN rings (R338, R339) -/

/-- The ring's fields are in range (R339). -/
def ringCfgOk (ring data : Nat) : Bool :=
  let low := bits data 8 5
  let high := bits data 16 6
  4 ≤ bits data 0 4 && bits data 0 4 ≤ 12 && low < high && high ≤ (if ring = 0 then 32 else 16)

/-- An event of a ring. -/
def Sys.ringPost (s : Sys) (seg ring code : Nat) : Sys := s.post code 0 [(seg, 1), (ring, 1)]

/-- The ring lies wholly in the module data structures region, and its segment is a host segment. -/
def Sys.ringMayRun (s : Sys) (seg ring log2 : Nat) : Bool :=
  let b := 32 * s.get (DMA_CRBASE_BASE seg ring)
  within b (96 * 2 ^ log2) 0x80400000 0x84000000 && s.canRole (s.canOf seg) == roleHost

/-- A write of DMA_CRCFG. While EN is 1 only a write that clears it and leaves the other fields alone is taken. -/
def Sys.crcfgWrite (s : Sys) (seg ring data : Nat) : Sys :=
  let a := DMA_CRCFG seg ring
  let same := bits data 0 4 == s.get (DMA_CRCFG_LOG2 seg ring) && bits data 8 5 == s.get (DMA_CRCFG_LOW seg ring) && bits data 16 6 == s.get (DMA_CRCFG_HIGH seg ring)
  if s.on (DMA_CRCFG_EN seg ring) then
    (if same && !data.testBit 31 then s.putB (DMA_CRCFG_EN seg ring) false else s.ringPost seg ring 0x0B09)
  else if !ringCfgOk ring data then s.ringPost seg ring 0x0B09
  else if data.testBit 31 && !s.ringMayRun seg ring (bits data 0 4) then (s.storeWord a (data % 2 ^ 31)).ringPost seg ring 0x0B0A
  else s.storeWord a data

def execCanRingEnable (_who : Agent) (k : Fin 8) (r : Fin 3) (data : Nat) (s : State) : Host.Outcome State Fault Refusal :=
  run (fun y => y.crcfgWrite k.val r.val data) s

/-- Channel 8 moves a received record into ring 0 of a segment. -/
def Sys.ringDrain (s : Sys) (seg : Nat) : Sys :=
  let k := s.canOf seg
  let c := s.canAt k
  let fill := c.fifo.length
  let low := s.get (DMA_CRCFG_LOW seg 0)
  let runs := if fill ≤ low then false else c.draining || s.get (DMA_CRCFG_HIGH seg 0) ≤ fill
  let s1 := s.modCan k fun c => { c with draining := runs }
  let head := s.get (DMA_CRHEAD_HEAD seg 0)
  let size := s.ringSize seg 0
  match c.fifo with
  | [] => s1
  | r :: rest =>
    if !runs || !s.on (DMA_CRCFG_EN seg 0) || s.dramGap.isSome || head = s.get (DMA_CRTAIL_TAIL seg 0) % size then s1
    else
      let seq := (c.rxSeq + 1) % 2 ^ 32
      let s2 := s1.putRow (s.ringAddr seg 0 head) ({ r with tag := seq }.toBytes 0)
      let s3 := (s2.modCan k fun c => { c with fifo := rest, rxSeq := seq, draining := low < rest.length }).put (DMA_CRHEAD_HEAD seg 0) ((head + 1) % size)
      (s3.setWord (DMA_CHBYT 8) (s.word (DMA_CHBYT 8) + 96)).signal ⟨DMA_CANINT, seg, 1⟩ (s.on ⟨DMA_CANINTEN, seg, 1⟩) 8

def execCanRingDrain (k : Fin 8) (s : State) : Host.Outcome State Fault Refusal := run (fun y => y.ringDrain k.val) s

/-- Channel 9 moves a record from ring 1 or 2 of a host segment into Q0 or Q1. -/
def Sys.ringFeed (s : Sys) (seg ring : Nat) : Sys :=
  let k := s.canOf seg
  let c := s.canAt k
  let q1 := ring == 2
  let fill := (c.queue q1).length
  let high := s.get (DMA_CRCFG_HIGH seg ring)
  let pauses := if high ≤ fill then true else c.pausing.contains ring && s.get (DMA_CRCFG_LOW seg ring) < fill
  let mark := fun (x : Bool) (c : CanCtl) => { c with pausing := if x then insertAsc ring c.pausing else c.pausing.filter fun r => r != ring }
  let s1 := s.modCan k (mark pauses)
  let fetch := s.get (DMA_CRHEAD_FETCH seg ring)
  let size := s.ringSize seg ring
  if pauses || !s.on (DMA_CRCFG_EN seg ring) || s.canRole k != roleHost || s.dramGap.isSome || fetch = s.get (DMA_CRTAIL_TAIL seg ring) % size || c.failed then s1
  else
    let r := canRecordAt s.mem (s.ringAddr seg ring fetch) ring fetch
    let bad := r.refused (s.get (CAN_RATE_DRATE k.val))
    let s2 := (s1.modCan k fun c => mark (high ≤ fill + 1) (c.withQueue q1 (c.queue q1 ++ [{ r with status := if bad then 4 else 0 }]))).put (DMA_CRHEAD_FETCH seg ring) ((fetch + 1) % size)
    let s3 := (s2.setWord (DMA_CHBYT 9) (s.word (DMA_CHBYT 9) + 96)).flushRefused k q1 16
    if bad then s3.refusedPost k else s3

def execCanRingFeed (k : Fin 8) (r : Fin 2) (s : State) : Host.Outcome State Fault Refusal := run (fun y => y.ringFeed k.val (r.val + 1)) s

/-! ## The arbiter (R341 to R345) -/

def Sys.requester (s : Sys) (r : Nat) : Requester := lookupD Requester.zero s.arb.requesters r
def Sys.modRequester (s : Sys) (r : Nat) (f : Requester → Requester) : Sys :=
  { s with arb := { s.arb with requesters := putKey s.arb.requesters r (f (s.requester r)) } }

/-- The wait of a pending request brought up to the present clock; under MASK it does not count. -/
def Requester.count (now : Nat) (masked : Bool) (q : Requester) : Requester :=
  match q.stamp with
  | none => { q with countedAt := now }
  | some _ =>
    let w := if masked then q.wait else q.wait + (now - q.countedAt)
    { q with wait := w, countedAt := now, overdue := q.overdue || (q.waitMax != 0 && q.waitMax ≤ w) }

/-- Every wait brought up to the present clock. -/
def Sys.countWaits (s : Sys) : Sys :=
  (List.range 32).foldl (fun s r => s.modRequester r (Requester.count s.fclk (s.bit ARB_MASK_MASK r))) s

/-- A request presented now, if the requester has none pending and neither RESET nor FAULT is asserted. -/
def Sys.present (s : Sys) (r : Nat) : Sys :=
  let q := s.requester r
  if 32 ≤ r || q.stamp.isSome || q.reset || q.fault then s
  else s.modRequester r fun q => { q with
    stamp := some s.fclk, wait := 0, countedAt := s.fclk, overdue := false, cls := s.get (ARB_RCFG_CLASS r), waitMax := s.get (ARB_RCFG_WAITMAX r) }

/-- The request takes part in arbitration. -/
def Sys.competes (s : Sys) (r : Nat) : Bool :=
  let q := s.requester r
  q.stamp.isSome && !q.reset && !q.fault && !s.bit ARB_MASK_MASK r

/-- Requester `a` goes before requester `b` (R342); `a` has the lower ID. -/
def Requester.before (a b : Requester) : Bool :=
  let older := a.stamp.getD 0 ≤ b.stamp.getD 0
  if a.overdue != b.overdue then a.overdue
  else if a.overdue then older
  else if a.cls != b.cls then a.cls < b.cls
  else older

/-- The request that wins the phase. -/
def Sys.winner (s : Sys) : Option Nat :=
  ((List.range 32).filter fun r => s.competes r).foldl (fun best r =>
    match best with
    | none => some r
    | some b => if (s.requester b).before (s.requester r) then some b else some r) none

/-- R343: the requesters `asking` present their requests, and on the next clock the phase begins. -/
def Sys.toPhase (s : Sys) (asking : List Nat) : Sys := ((asking.foldl Sys.present s).elapse 1).countWaits

/-- R342, R343: an arbitration phase; `asking` are the requesters that have presented a request since the last one, on the clock before. -/
def Sys.arbitrate (s0 : Sys) (asking : List Nat) : Sys :=
  let s := s0.toPhase asking
  match s.winner with
  | none => { s with arb := { s.arb with grant := none } }
  | some r =>
    let q := s.requester r
    let s1 := if q.overdue then s.incSat (ARB_RSTAT_OVERDUE r) else s
    let s2 := s1.put (ARB_RSTAT_MAXWAIT r) (Nat.max (s1.get (ARB_RSTAT_MAXWAIT r)) (Nat.min q.wait 65535))
    let s3 := s2.modRequester r fun q => { q with stamp := none, wait := 0, overdue := false }
    { s3 with arb := { s3.arb with grant := some r } }

def execArbitration (present : List Nat) (s : State) : Host.Outcome State Fault Refusal := run (fun y => y.arbitrate present) s

/-- A request's wait reaches WAITMAX. -/
def Sys.requestOverdue (s0 : Sys) (r : Nat) : Sys :=
  let s := s0.countWaits
  let q := s.requester r
  if q.stamp.isNone || q.waitMax = 0 || s.bit ARB_MASK_MASK r then s
  else (s.elapse (q.waitMax - q.wait)).countWaits

def execRequestOverdue (r : Fin 32) (s : State) : Host.Outcome State Fault Refusal := run (fun y => y.requestOverdue r.val) s

/-- R344: a write of ARB_RCFGr. A waiting request takes the new values at the next phase, its stamp and wait kept. -/
def Sys.rcfgWrite (s0 : Sys) (r data : Nat) : Sys :=
  let s := (s0.countWaits).storeWord (ARB_RCFG r) data
  s.modRequester r fun q => if q.stamp.isSome then { q with
      cls := s.get (ARB_RCFG_CLASS r), waitMax := s.get (ARB_RCFG_WAITMAX r)
      overdue := s.get (ARB_RCFG_WAITMAX r) != 0 && s.get (ARB_RCFG_WAITMAX r) ≤ q.wait }
    else q

def execArbRcfgWrite (r : Fin 32) (data : Nat) (s : State) : Host.Outcome State Fault Refusal := run (fun y => y.rcfgWrite r.val data) s

/-! ## Semaphores (R346 to R348) -/

def Sys.semaphore (s : Sys) (k : Nat) : Semaphore := lookupD { owner := none, orphan := false } s.arb.semaphores k

/-- A semaphore given, with its bits in ARB_SEMH and ARB_SEMO. -/
def Sys.setSemaphore (s : Sys) (k : Nat) (x : Semaphore) : Sys :=
  let s1 := { s with arb := { s.arb with semaphores := putKey s.arb.semaphores k x } }
  (s1.putBit (ARB_SEMH_BITS (k / 32)) (k % 32) x.owner.isSome).putBit (ARB_SEMO_BITS (k / 32)) (k % 32) x.orphan

/-- The requester ID of an agent (R341, R346). -/
def agentId : Agent → Nat
  | .host => 10
  | .mgmt => 8

/-- A read of ARB_SEMs tries to acquire it. -/
def Sys.semAcquire (s : Sys) (who : Agent) (k : Nat) : Sys :=
  let x := s.semaphore k
  let s1 := if x.owner.isNone then s.setSemaphore k { x with owner := some (agentId who) } else s
  let y := s1.semaphore k
  let got := y.owner == some (agentId who)
  s1.answer ((if got then 2 ^ 31 else 0) + (if y.orphan then 2 ^ 30 else 0) + 2 ^ 24 + y.owner.getD 0 * 2 ^ 16)

def execSemaphoreAcquire (who : Agent) (sem : Fin 64) (s : State) : Host.Outcome State Fault Refusal := run (fun y => y.semAcquire who sem.val) s

/-- The owner's write of REL or CLRORPH; anyone else's changes nothing (0x0A02). -/
def Sys.semWrite (s : Sys) (who : Agent) (k : Nat) (rel : Bool) : Sys :=
  let x := s.semaphore k
  if x.owner != some (agentId who) then s.post 0x0A02 0 [(k, 1)]
  else s.setSemaphore k (if rel then { owner := none, orphan := false } else { x with orphan := false })

def execRel (who : Agent) (sem : Fin 64) (s : State) : Host.Outcome State Fault Refusal := run (fun y => y.semWrite who sem.val true) s
def execClrorph (who : Agent) (sem : Fin 64) (s : State) : Host.Outcome State Fault Refusal := run (fun y => y.semWrite who sem.val false) s

/-- R348: the semaphores of a requester released and marked. -/
def Sys.orphanAll (s : Sys) (r : Nat) : Sys :=
  ((List.range 64).filter fun k => (s.semaphore k).owner == some r).foldl
    (fun s k => (s.setSemaphore k { owner := none, orphan := true }).post 0x0A01 0 [(k, 1), (r, 1)]) s

/-- R345, R348: a RESET or FAULT sideband asserts: the requester's grant ends, its pending request is withdrawn, since only MASK keeps the age
stamp (DEDUCED, notes/assumptions/141.md), and its semaphores are released. -/
def Sys.sideband (s : Sys) (r : Nat) (reset on : Bool) : Sys :=
  let s1 := s.countWaits.modRequester r fun q => if reset then { q with reset := on } else { q with fault := on }
  if !on then s1
  else
    let s2 := if s1.arb.grant = some r then { s1.post 0x0A04 0 [(r, 1)] with arb := { s1.arb with grant := none } } else s1
    (s2.modRequester r fun q => { q with stamp := none, wait := 0, overdue := false }).orphanAll r

/-- The requesters of a domain (R341). -/
def requestersOf (d : Nat) : List Nat :=
  if d = 1 then [0, 1, 3, 6, 7] else if d = 6 then [4] else if d = 7 then [5] else if d = 8 then [14]
  else if d = 9 then 2 :: (List.range 16).map (fun k => 16 + k) else if d = 10 then [15] else if 11 ≤ d && d ≤ 13 then [d] else []

/-- The RESET sidebands of a domain's requesters. -/
def Sys.sidebands (s : Sys) (d : Nat) (on : Bool) : Sys := (requestersOf d).foldl (fun s r => s.sideband r true on) s

end Sys2Proof.Machine
end

