-- ==== Sys2Proof/Machine/Rtc.lean ====
section
/-!
DEFINITION. The cellar and the real-time clock (spec/15_cellar_and_rtc.md R395 to R412): the integrity word, crossing writes, the
adjustments, the alarm, the periodic event, the compensation, and the cell.
-/
namespace Sys2Proof.Machine

/-! ## Integrity (R398) -/

/-- INTEG as R398 forms it. -/
def Sys.integ (s : Sys) : Nat :=
  let words := (List.range 8).map (fun k => s.word (CEL_SCR k))
    ++ [s.word CEL_TAMP, s.word RTC_TCT, s.word RTC_TCK, s.word RTC_ALMS, s.word RTC_ALMR, s.word RTC_ALMLAST, s.word RTC_ALMNEXT,
        s.word RTC_PER, s.get RTC_STAT_VALID + 2 * s.get RTC_ALMST_ARMED + 4 * s.get RTC_PER_PEREN]
  crc32 (bytesLE 32 s.rtc.root ++ (words.map (bytesLE 4)).flatten) ^^^ 0x5C3AA3C5

/-- The cellar recomputes INTEG after a change of a covered item. -/
def Sys.reseal (s : Sys) : Sys := s.setWord CEL_INTEG s.integ

/-! ## Time in ticks -/

/-- The ticks of the crystal that the counters need to gain `need`, found next to the quotient by the rate. -/
def Rtc.ticksFor (r : Rtc) (need : Nat) : Nat :=
  let k0 := need * 2 ^ 32 / (Int.ofNat (2 ^ 32) - r.comp).toNat
  ((List.range 8).map fun i => k0 + i - 3).find? (fun k => need ≤ r.gain k) |>.getD need

/-- `k` ticks of the crystal pass. -/
def Sys.passTicks (s : Sys) (k : Nat) : Sys := s.elapse ((k * 390625 - s.lfxo + 63) / 64)

/-- Time passes until the counters have gained `need`. -/
def Sys.gainTicks (s : Sys) (need : Nat) : Sys := if need = 0 then s else s.passTicks (s.rtc.ticksFor need)

/-- Time passes until the seconds counter reaches `t` by counting, if it lies below. -/
def Sys.reachSec (s : Sys) (t : Nat) : Sys := if t ≤ s.rtc.sec then s else s.gainTicks ((t - s.rtc.sec) * 32768 - s.rtc.sub)

/-! ## The alarm (R408 to R410) -/

/-- The alarm fires: `skips` occurrences passed by an adjustment, or 0 when it was reached by counting. Without VMAIN its events are
posted at the next start. -/
def Sys.fireAlarm (s : Sys) (last next skips : Nat) : Sys :=
  let s1 := (((s.putB RTC_ALMST_SKIPPED (skips != 0)).put RTC_ALMST_SKIPCNT (Nat.min skips 65535)).setWord RTC_ALMLAST last).setWord RTC_ALMNEXT next
  let s2 := (if s.rtc.almr = 0 then s1.put RTC_ALMST_ARMED 0 else s1).signal RTC_INT_ALM (s.on RTC_INTEN_ALM) 15
  let s3 := { s2.putB RTC_ALMST_OFFPWR s.pwr.inReset with rtc := { s2.rtc with skipped := 0 } }
  let code := if skips = 0 then 0x0503 else 0x0504
  let data := if skips = 0 then 0 else pack [(Nat.min skips 65535, 2)]
  let s4 := if s.pwr.inReset then { s3 with pwr := { s3.pwr with postAtStart := s3.pwr.postAtStart ++ [(code, data), (0x0505, 0)] } }
    else s3.postBy 8 code 0 data
  s4.reseal

/-- The occurrence at ALMNEXT is taken by counting. -/
def Sys.takeOccurrence (s : Sys) : Sys :=
  let n := s.word RTC_ALMNEXT
  s.fireAlarm n (n + s.rtc.almr) 0

/-- R409: the alarm fires: once for the occurrences that an adjustment passed, else when the counter reaches ALMNEXT. -/
def Sys.alarmFire (s : Sys) : Sys :=
  if !s.on RTC_ALMST_ARMED then s
  else if s.rtc.skipped != 0 then
    (s.passTicks 1).fireAlarm s.rtc.skipLast (if s.rtc.almr = 0 then s.word RTC_ALMNEXT else s.rtc.skipLast + s.rtc.almr) s.rtc.skipped
  else (s.reachSec (s.word RTC_ALMNEXT)).takeOccurrence

def execAlarmFire (s : State) : Host.Outcome State Fault Refusal := run Sys.alarmFire s

/-- R409: a forward adjustment to `t2` passes the occurrences from ALMNEXT up to it. -/
def Sys.passOccurrences (s : Sys) (t2 : Nat) : Sys :=
  let n := s.word RTC_ALMNEXT
  if !s.on RTC_ALMST_ARMED || t2 < n then s
  else
    let j := if s.rtc.almr = 0 then 1 else (t2 - n) / s.rtc.almr + 1
    { s with rtc := { s.rtc with skipped := j, skipLast := n + (j - 1) * s.rtc.almr } }

/-! ## Crossing writes (R405) -/

/-- A write crosses into the cellar, unless another is crossing. -/
def Sys.cross (s : Sys) (addr value sec sub : Nat) : Sys :=
  if s.on RTC_STAT_BUSY then s.note 0x0507
  else { s.put RTC_STAT_BUSY 1 with rtc := { s.rtc with write := some ⟨addr, value, sec, sub⟩ } }

/-- RTC_CMD written with one command bit. -/
def Sys.rtcCommand (s : Sys) (bit : Nat) : Sys := s.cross RTC_CMD bit s.rtc.sec s.rtc.sub

/-- SET takes the values of RTC_SETS and RTC_SETF as they stand. -/
def execRtcSet (_who : Agent) (s : State) : Host.Outcome State Fault Refusal :=
  run (fun y => y.cross RTC_CMD 1 (y.word RTC_SETS) (y.get RTC_SETF_SUB)) s

/-- SHIFT takes RTC_SHIFT as it stands, or is refused (R406). -/
def Sys.shiftCmd (s : Sys) : Sys :=
  if !s.on RTC_STAT_VALID || 16384 < (sint 16 (s.get RTC_SHIFT_K)).natAbs || s.on RTC_STAT_SHPEND then s.note 0x0507
  else s.cross RTC_CMD 2 (s.get RTC_SHIFT_K) 0

def execShift (_who : Agent) (s : State) : Host.Outcome State Fault Refusal := run Sys.shiftCmd s

/-- The alarm cannot be armed: the RTC is not valid, or a single occurrence does not lie ahead (R408). -/
def Sys.armRefused (s : Sys) : Bool := !s.on RTC_STAT_VALID || (s.word RTC_ALMR == 0 && decide (s.word RTC_ALMS ≤ s.rtc.sec))

def execAlmarm (_who : Agent) (s : State) : Host.Outcome State Fault Refusal :=
  run (fun y => if y.armRefused then y.note 0x0507 else y.rtcCommand 4) s

def execAlmoff (_who : Agent) (s : State) : Host.Outcome State Fault Refusal := run (fun y => y.rtcCommand 8) s

def execPeron (_who : Agent) (s : State) : Host.Outcome State Fault Refusal :=
  run (fun y => if y.get RTC_PER_P = 0 then y.note 0x0507 else y.rtcCommand 16) s

def execPeroff (_who : Agent) (s : State) : Host.Outcome State Fault Refusal := run (fun y => y.rtcCommand 32) s

/-- RTC_WDAY, the day number and the calendar follow a new time. -/
def Sys.setWeekday (s : Sys) : Sys :=
  { s.put RTC_WDAY_WDAY (weekdayOf (s.rtc.sec / 86400)) with rtc := { s.rtc with day := s.rtc.sec / 86400 } }

/-- One more adjustment. -/
def Sys.countAdjust (s : Sys) : Sys := s.incWrap RTC_STAT_ADJCNT

/-- SET takes effect: an occurrence that is due goes first, against the old time (R406, R409). -/
def Sys.setEffect (s0 : Sys) (sec sub : Nat) : Sys :=
  let s := if s0.on RTC_ALMST_ARMED && decide (s0.word RTC_ALMNEXT ≤ s0.rtc.sec) && s0.rtc.skipped == 0 then s0.takeOccurrence else s0
  let old := s.rtc.sec
  let valid := s.on RTC_STAT_VALID
  let s1 := (({ s with rtc := { s.rtc with sec := sec, sub := sub, shift := none } }.put RTC_STAT_SHPEND 0).put RTC_STAT_VALID 1).countAdjust
  let s2 := s1.setWeekday.post 0x0501 0 [(old, 4), (sec, 4)]
  if valid && old < sec then s2.passOccurrences sec else s2

/-- ALMARM takes effect (R408). -/
def Sys.armEffect (s : Sys) : Sys :=
  if s.armRefused then s.note 0x0507
  else
    let a := s.word RTC_ALMS
    let r := s.word RTC_ALMR
    let now := s.rtc.sec
    let next := if now < a then a else a + ((now - a) / r + 1) * r
    { ((s.put RTC_ALMST_ARMED 1).setWord RTC_ALMLAST now).setWord RTC_ALMNEXT next with rtc := { s.rtc with almr := r, skipped := 0 } }

/-- A command of RTC_CMD takes effect. -/
def Sys.commandEffect (s : Sys) (w : CellarWrite) : Sys :=
  if w.value = 1 then s.setEffect w.sec w.sub
  else if w.value = 2 then { s.put RTC_STAT_SHPEND 1 with rtc := { s.rtc with shift := some (sint 16 w.sec) } }
  else if w.value = 4 then s.armEffect
  else if w.value = 8 then { s.put RTC_ALMST_ARMED 0 with rtc := { s.rtc with skipped := 0 } }
  else if w.value = 16 then
    { s.put RTC_PER_PEREN 1 with rtc := { s.rtc with period := s.get RTC_PER_P, perCount := 0, perAt := 128 * s.get RTC_PER_P } }
  else if w.value = 32 then s.put RTC_PER_PEREN 0
  else s

/-- R405: the crossing write takes effect at the second tick. -/
def Sys.cellarEffect (s0 : Sys) : Sys :=
  match s0.rtc.write with
  | none => s0
  | some w =>
    let s1 := s0.passTicks 2
    let s2 := { s1.put RTC_STAT_BUSY 0 with rtc := { s1.rtc with write := none } }
    let s3 := if w.addr = RTC_CMD then s2.commandEffect w else s2.storeWord w.addr w.value
    let s4 := if s3.on RTC_CTL_TCEN then s3 else { s3 with rtc := { s3.rtc with comp := 0 } }
    s4.reseal

def execCellarWriteEffect (s : State) : Host.Outcome State Fault Refusal := run Sys.cellarEffect s

/-- R406: a pending shift moves the time at the next carry into seconds, which would lead to (S, 0). -/
def Sys.shiftApply (s0 : Sys) : Sys :=
  match s0.rtc.shift with
  | none => s0
  | some k =>
    let s := s0.gainTicks (32768 - s0.rtc.sub)
    let r := if 0 ≤ k then { s.rtc with sub := k.toNat, shift := none }
      else { s.rtc with sec := (s.rtc.sec + 2 ^ 32 - 1) % 2 ^ 32, sub := (32768 + k).toNat, shift := none }
    (({ s with rtc := r }.put RTC_STAT_SHPEND 0).countAdjust).post 0x0502 0 [(unsint 16 k, 2)]

def execShiftApply (s : State) : Host.Outcome State Fault Refusal := run Sys.shiftApply s

/-! ## Events of the counters -/

/-- R401: the tick after the last second. -/
def Sys.rtcWrap (s0 : Sys) : Sys :=
  let s := if s0.rtc.sec = 2 ^ 32 - 1 then s0.gainTicks (32768 - s0.rtc.sub) else s0
  if !s.rtc.wrapped then s
  else (({ s with rtc := { s.rtc with wrapped := false } }.put RTC_STAT_VALID 0).note 0x0508).reseal

def execRtcWrap (s : State) : Host.Outcome State Fault Refusal := run Sys.rtcWrap s

/-- R403: the day number changes and RTC_WDAY advances. -/
def Sys.dayChange (s0 : Sys) : Sys :=
  let s := if s0.rtc.sec / 86400 = s0.rtc.day && s0.rtc.sec % 86400 = 86399 then s0.gainTicks (32768 - s0.rtc.sub) else s0
  if s.rtc.sec / 86400 = s.rtc.day then s
  else
    let w := s.get RTC_WDAY_WDAY
    { s.put RTC_WDAY_WDAY (if w = 7 then 1 else w + 1) with rtc := { s.rtc with day := s.rtc.sec / 86400 } }

def execRtcDayChange (s : State) : Host.Outcome State Fault Refusal := run Sys.dayChange s

/-- The calendar registers latched from the counters (R404). -/
def Sys.latchCalendar (s : Sys) : Sys :=
  let c := civilOf s.rtc.sec
  let s1 := ((s.setWord RTC_TIMES s.rtc.sec).setWord RTC_TIMEF s.rtc.sub).setWord RTC_CAL0 (c.year * 65536 + c.month * 256 + c.day)
  s1.setWord RTC_CAL1 (c.second / 3600 * 65536 + c.second / 60 % 60 * 256 + c.second % 60)

def Sys.timesRead (s : Sys) : Sys := s.latchCalendar.answer s.rtc.sec

def execRtcTimesRead (_who : Agent) (s : State) : Host.Outcome State Fault Refusal := run Sys.timesRead s

/-- R411: the periodic event, P units of counted time after the one before. -/
def Sys.periodic (s0 : Sys) : Sys :=
  if !s0.on RTC_PER_PEREN then s0
  else
    let s := s0.gainTicks (s0.rtc.perAt - s0.rtc.perCount)
    { s.putB RTC_INT_PER true with rtc := { s.rtc with perAt := s.rtc.perAt + 128 * s.rtc.period } }

def execPeriodicEvent (s : State) : Host.Outcome State Fault Refusal := run Sys.periodic s

/-! ## Compensation (R407) -/

/-- The crystal's error in units of 1/6,553,600 of 1/64 ppm: OFS and K · dT² / 100. -/
def errorUnits (ofs k dt : Int) : Int := ofs * 102400 + k * dt * dt

/-- R407: a measurement of the cellar's temperature in 0.1 °C. How E is rounded in RTC_TEMP is open. -/
def Sys.tempMeasure (s : Sys) (temp : Int) : Sys :=
  if !s.on RTC_CTL_TCEN then s
  else
    let dt := temp - sint 16 (s.get RTC_TCT_T0)
    let raw := errorUnits (sint 16 (s.get RTC_TCT_OFS)) (sint 16 (s.get RTC_TCK_K)) dt
    let lim : Int := 255 * 64 * 102400
    let e := if raw < -lim then -lim else if raw > lim then lim else raw
    let c := (2 * e.natAbs * 2 ^ 32 + 64 * 102400 * 1000000) / (2 * 64 * 102400 * 1000000)
    let shown := divOpen e.natAbs 102400
    let s1 := (s.put RTC_TEMP_T (unsint 16 temp)).put RTC_TEMP_E (unsint 16 (if e < 0 then -(Int.ofNat shown) else Int.ofNat shown))
    { s1 with rtc := { s1.rtc with comp := if e < 0 then -(Int.ofNat c) else Int.ofNat c } }

def execRtcTempMeasure (temperature : Int) (s : State) : Host.Outcome State Fault Refusal := run (fun y => y.tempMeasure temperature) s

/-! ## Supply and cell (R396, R397) -/

/-- R396: the retention detector trips. -/
def execRetentionTrip (s : State) : Host.Outcome State Fault Refusal := run (fun y => { y with rtc := { y.rtc with retlost := true } }) s

/-- R397: a measurement of VCELL in mV. -/
def Sys.cellMeasured (s : Sys) (mv : Nat) : Sys :=
  if !s.on MGT_STAT_FWRUN then s
  else
    let v := Nat.min mv 65535
    let s1 := (s.put CEL_CELL_MV v).put (MGT_SEN_VALUE 13) v
    let t := s.get CEL_CLOW_MV
    if v < t then
      let s2 := s1.put CEL_CELL_LOW 1
      if s.mgt.cellWarned then s2 else { s2.post 0x0602 0 [(v, 2)] with mgt := { s2.mgt with cellWarned := true } }
    else if t + 100 ≤ v && s.mgt.cellWarned then { s1.post 0x0603 0 [(v, 2)] with mgt := { s1.mgt with cellWarned := false } }
    else s1

def execCellMeasurement (millivolts : Nat) (s : State) : Host.Outcome State Fault Refusal := run (fun y => y.cellMeasured millivolts) s

/-! ## The check at a start (R399, R400) -/

/-- R399: the cellar is lost. -/
def Sys.cellarLost (s : Sys) : Bool := s.rtc.retlost || s.word CEL_INTEG != s.integ

/-- The registers whose every field is the cellar's: their reset values apply at the cellar-lost start. -/
def cellarWords : List Nat :=
  [RTC_WDAY, RTC_ALMS, RTC_ALMR, RTC_ALMST, RTC_ALMLAST, RTC_ALMNEXT, RTC_PER, RTC_INT, RTC_TCT, RTC_TCK, CEL_TAMP]
    ++ (List.range 8).map CEL_SCR

/-- R400: a lost cellar initialised, with the reset values of the fields that its register tables mark as the cellar's. -/
def Sys.cellarInit (s : Sys) : Sys :=
  let s1 := cellarWords.foldl (fun x a => x.setReg a (regReset a)) s
  let s2 := ((s1.put RTC_STAT_VALID 0).put RTC_STAT_ADJCNT 0).put RTC_CTL_TCEN 1
  let r := { s2.rtc with sec := 0, sub := 0, day := 0, wrapped := false, skipped := 0, retlost := false, root := 0, perCount := 0, perAt := 0
                         shift := none, almr := 0, period := 0 }
  ({ s2 with rtc := r, loft := { s2.loft with removedAt := [] } }.reseal.put CEL_STAT_LOST 1).note 0x0601

end Sys2Proof.Machine
end

