-- ==== Sys2Proof/Machine/Keys.lean ====
section
/-!
DEFINITION. Fuses, the key store and tamper (spec/16_keys_tamper_lockers.md R415 to R429): fuse burns, the root and derived keys, the key
operations, revocation, and what a tamper source does.
-/
namespace Sys2Proof.Machine

/-! ## Fuses (R415, R416) -/

/-- A word of the fuse block. -/
def fuseWord (f : List (Nat × Nat)) (w : Nat) : Nat := lookupD 0 f w % 2 ^ 32

/-- Bits of a word blown: a blown bit stays. -/
def blow (f : List (Nat × Nat)) (w b : Nat) : List (Nat × Nat) := putKey f w (fuseWord f w ||| b % 2 ^ 32)

/-- Blown bits of a word. -/
def popCount (w : Nat) : Nat := ((List.range 32).filter fun k => w.testBit k).length

/-- The bits of a word that hold a reserved field. -/
def reservedBits (w : Nat) : Nat :=
  if w = 3 then 0xFF000000 else if w = 4 then 0xFFFFFC00 else if w = 7 || 28 ≤ w then 0xFFFFFFFF else 0

/-- The bits of a word that Trelsen burns. -/
def trelsenBits (w : Nat) : Nat := if w ≤ 3 || (8 ≤ w && w ≤ 15) then 0xFFFFFFFF else if w = 4 then 3 else 0

/-- The bits of a word that hold OWNHASH or TAMPEN. -/
def ownerBits (w : Nat) : Nat := if 16 ≤ w && w ≤ 23 then 0xFFFFFFFF else if w = 4 then 0x380 else 0

/-- The bits of the RETIRE field. -/
abbrev retireBits : Nat := 0x78

/-- The fuse mirror shows the fuse block (R415). -/
def Sys.mirrorFuses (s : Sys) (f : List (Nat × Nat)) : Sys :=
  let s1 := ((s.setWord SYS_UIDL (fuseWord f 0)).setWord SYS_UIDH (fuseWord f 1)).put SYS_ID_VARIANT (bits (fuseWord f 3) 16 8)
  let s2 := s1.setWord SYS_FUSE (fuseWord f 4 % 1024)
  (s2.put SYS_KEPOCH_E (popCount (fuseWord f 5) + popCount (fuseWord f 6))).put SYS_VFLOOR_COUNT
    (((List.range 4).map fun i => popCount (fuseWord f (24 + i))).foldl (· + ·) 0)

/-- A burn is refused (R416); what a word holds is judged by the bits to be blown (notes/assumptions/32.md). -/
def Sys.burnRefused (s : Sys) (w b : Nat) : Bool :=
  64 ≤ w || b &&& reservedBits w != 0 || (s.on SYS_FUSE_TLOCK && b &&& trelsenBits w != 0)
    || (s.on SYS_FUSE_OWNLOCK && b &&& ownerBits w != 0) || s.on PWR_VMON_PFW

/-- A write of KEY_FBURN.GO. One word burns at a time. -/
def Sys.fuseBurn (s : Sys) (w b : Nat) : Sys :=
  if s.keys.burning.isSome then s.note 0x0714
  else if s.burnRefused w b then ((s.put KEY_FRES_DONE 1).put KEY_FRES_CODE 0x070E).note 0x070E
  else { s.setWord KEY_FRES 0 with keys := { s.keys with burning := some (w, b) } }

def execFuseBurn (word : Nat) (bits : Nat) (s : State) : Host.Outcome State Fault Refusal :=
  run (fun y => y.fuseBurn word (bits % 2 ^ 32)) s

/-- The lanes whose RETIRE bit a word of bits names. -/
def retireLanes (b : Nat) : List (Fin 4) := allLanes.filter fun n => b.testBit (3 + n.val)

/-- A lane's retirement fuse has been tried: with success it is RETIRED with 0x1205, else the burn is tried again at the next start
(R94). A lane that is not RETIRED yet leaves what it was doing. -/
def Sys.retireBurned (ok : Bool) (s : Sys) (n : Fin 4) : Sys :=
  let s1 := { s with vot := { s.vot with burns := s.vot.burns.filter fun m => m != n } }
  if ok then
    let s2 := { s1 with loft := { s1.loft with unburned := s1.loft.unburned.filter fun m => m != n } }
    let gone := (((s2.dropTarget n).leaveRun n).gateRetired n).takeShelf.startNext
    let s3 := if s.laneState n = laneRetired then s2 else (if s.votes n then gone.noneLeft else gone).flushCheck
    s3.laneNote 0x1205 n
  else { s1.laneNote 0x1213 n with loft := { s1.loft with unburned := n :: s1.loft.unburned.filter fun m => m != n } }

/-- R416: the burn ends with its read-back. Bits that did blow stay blown. -/
def fuseBurnDone (s : State) (readBack : Nat) : State :=
  match s.sys.keys.burning with
  | none => s
  | some (w, b) =>
    let want := fuseWord s.fuses w ||| b
    let f := blow s.fuses w (readBack &&& b)
    let ok := (fuseWord s.fuses w ||| readBack % 2 ^ 32) == want && readBack % 2 ^ 32 == want
    let y := { s.sys.mirrorFuses f with keys := { s.sys.keys with burning := none } }
    let retire := w == 4 && b &&& retireBits != 0
    let code := if ok then 0 else if retire then 0x1213 else 0x070D
    let y1 := (y.put KEY_FRES_DONE 1).put KEY_FRES_CODE code
    let y2 := if retire then (retireLanes b).foldl (fun x n => x.retireBurned ((fuseWord f 4).testBit (3 + n.val)) n) y1
      else if ok then y1 else y1.post 0x070D 0 [(w, 1)]
    { s with sys := y2, fuses := f }

def execFuseBurnDone (readBack : Nat) (s : State) : Host.Outcome State Fault Refusal := .next (fuseBurnDone s readBack)

/-! ## Slots (R417 to R420) -/

abbrev slotEmpty : Nat := 0
abbrev slotValid : Nat := 1
abbrev slotRevoked : Nat := 2
abbrev rootNone : Nat := 0
abbrev rootCellar : Nat := 1
abbrev rootTest : Nat := 2

/-- UID as 8 bytes, the salt of every derivation (R418). -/
def Sys.uid (s : Sys) : List Nat := bytesLE 4 (s.word SYS_UIDL) ++ bytesLE 4 (s.word SYS_UIDH)

/-- The key in a slot. -/
def Sys.slotKey (s : Sys) (n : Nat) : KeySlot := lookupD { key := 0, info := [] } s.keys.slots n

/-- A slot's 32 bytes. -/
def Sys.keyBytes (s : Sys) (n : Nat) : List Nat := bytesLE 32 (s.slotKey n).key

/-- A slot given a key. -/
def Sys.setSlot (s : Sys) (n kind parent key : Nat) (info : List Nat) : Sys :=
  let s1 := ((s.put (KEY_SLOT_STATE n) slotValid).put (KEY_SLOT_KIND n) kind).put (KEY_SLOT_PARENT n) parent
  { s1 with keys := { s1.keys with slots := putKey s1.keys.slots n { key := key, info := info } } }

/-- A slot emptied. -/
def Sys.emptySlot (s : Sys) (n : Nat) : Sys :=
  { s.setWord (KEY_SLOT n) 0 with keys := { s.keys with slots := s.keys.slots.filter fun x => x.1 != n } }

/-- The slots that descend from a slot, found in `fuel` generations. -/
def Sys.descendants (s : Sys) (from_ : List Nat) : Nat → List Nat
  | 0 => from_
  | fuel + 1 =>
    let next := (List.range 31).filter fun k => k != 0 && s.get (KEY_SLOT_STATE k) != slotEmpty && !from_.contains k && from_.contains (s.get (KEY_SLOT_PARENT k))
    if next.isEmpty then from_ else s.descendants (from_ ++ next) fuel

/-- R420: every descendant of a slot becomes REVOKED, and the exchange drops the keys loaded from them (R285). -/
def Sys.revokeUnder (s : Sys) (n : Nat) : Sys :=
  let gone := (s.descendants [n] 31).filter fun k => k != n
  let s1 := gone.foldl (fun x k => x.put (KEY_SLOT_STATE k) slotRevoked) s
  ({ s1 with hit := { s1.hit with keys := s1.hit.keys.filter fun k => !gone.contains k.2.1 } }).checkKeys

/-- A new root in slot 0, or none, with KEY_STAT.ROOT (R417). -/
def Sys.putRoot (s : Sys) (root key : Nat) : Sys :=
  let s1 := s.revokeUnder 0
  (if root = rootNone then s1.emptySlot 0 else s1.setSlot 0 0 0 key []).put KEY_STAT_ROOT root

/-- The test root (R417). -/
def testRoot : Nat :=
  numLE (sha256 [78, 101, 114, 108, 111, 110, 32, 70, 77, 45, 54, 52, 48, 48, 32, 116, 101, 115, 116, 32, 114, 111, 111, 116])

/-- R417: the root a start loads. -/
def Sys.loadRoot (s : Sys) : Sys :=
  if !s.on SYS_FUSE_DBGDIS then s.putRoot rootTest testRoot
  else if s.rtc.root != 0 then s.putRoot rootCellar s.rtc.root else s.putRoot rootNone 0

/-- The slot descends from KHIT, a key derived from the root with the info "hitil" (R418). -/
def Sys.underHit (s : Sys) : Nat → Nat → Bool
  | _, 0 => false
  | n, fuel + 1 =>
    let p := s.get (KEY_SLOT_PARENT n)
    n != 0 && n != 31 && ((p != 0 && (s.slotKey p).info == hitilInfo && s.get (KEY_SLOT_PARENT p) == 0) || s.underHit p fuel)

/-! ## Operations (R425, R426) -/

/-- A buffer lies in management SRAM. -/
def inMgmtSram (a n : Nat) : Bool := 0x10000000 ≤ a && a + n ≤ 0x10100000

/-- The input of an operation. -/
def Sys.keyInput (s : Sys) : List Nat := memBytes s.mem (s.word KEY_SRC) (s.get KEY_SLEN_LEN)

/-- Bytes written to the output buffer. -/
def Sys.keyOut (s : Sys) (bs : List Nat) : Sys := { s with mem := memPutBytes s.mem (s.word KEY_DST) bs }

/-- An operation refused before it starts. -/
def Sys.keyRefuse (s : Sys) (code : Nat) : Sys := ((s.put KEY_RES_DONE 1).put KEY_RES_CODE code).note code

/-- An operation runs and will end with `code`. -/
def Sys.keyStart (s : Sys) (code : Nat) : Sys :=
  { (s.setWord KEY_RES 0).put KEY_STAT_BUSY 1 with keys := { s.keys with running := some (code, s.word KEY_DST, s.get KEY_DLEN_LEN) } }

/-- The refusals of R426 in its order, after a store that is busy: `needs` slots to read, each with the kinds it may have; `inOk` and
`out` judge the lengths; `target` is a slot to be written. -/
def Sys.keyOp (s : Sys) (needs : List (Nat × List Nat)) (target : Option Nat) (inOk : Nat → Bool) (out : Nat) (f : Sys → Sys × Nat) : Sys :=
  let slen := s.get KEY_SLEN_LEN
  if s.keys.running.isSome then (s.put KEY_RES_CODE 0x0714).note 0x0714
  else if needs.any fun x => x.1 == 0 && s.get KEY_STAT_ROOT == rootNone then s.keyRefuse 0x0705
  else if needs.any fun x => s.get (KEY_SLOT_STATE (x.1 % 32)) == slotEmpty || !x.2.contains (s.get (KEY_SLOT_KIND (x.1 % 32))) then s.keyRefuse 0x0701
  else if needs.any fun x => s.get (KEY_SLOT_STATE (x.1 % 32)) == slotRevoked then s.keyRefuse 0x0702
  else if !inMgmtSram (s.word KEY_SRC) slen || !inMgmtSram (s.word KEY_DST) (s.get KEY_DLEN_LEN) || !inOk slen || s.get KEY_DLEN_LEN < out
      || target.any (fun t => t == 0 || 31 ≤ t) || needs.any (fun x => 32 ≤ x.1) then s.keyRefuse 0x0706
  else (f s).1.keyStart (f s).2

/-- DERIVE. -/
def Sys.derive (s : Sys) (slot parent kind : Nat) : Sys :=
  s.keyOp [(parent, [0, 1, 2])] (some slot) (fun n => 1 ≤ n && n ≤ 64 && kind ≤ 2) 0 fun s =>
    let info := s.keyInput
    ((s.revokeUnder slot).setSlot slot kind parent (numLE (hkdfSha256 (s.keyBytes parent) s.uid info 32)) info, 0)

def execDerive (slot parent kind : Nat) (s : State) : Host.Outcome State Fault Refusal := run (fun y => y.derive slot parent kind) s

/-- ERASE. -/
def Sys.keyErase (s : Sys) (slot : Nat) : Sys :=
  s.keyOp [] (some slot) (fun _ => true) 0 fun s => ((s.revokeUnder slot).emptySlot slot, 0)

def execErase (slot : Nat) (s : State) : Host.Outcome State Fault Refusal := run (fun y => y.keyErase slot) s

/-- The parts of a GCM input: IV, AAD and the rest. -/
def gcmParts (bs : List Nat) : List Nat × List Nat × List Nat :=
  let n := numLE ((bs.drop 12).take 4)
  (bs.take 12, (bs.drop 16).take n, bs.drop (16 + n))

/-- The AAD of a GCM input lies within it, with `extra` bytes after it. -/
def Sys.gcmFits (s : Sys) (extra n : Nat) : Bool := 16 ≤ n && 16 + numLE ((s.keyInput.drop 12).take 4) + extra ≤ n

/-- GCMENC. -/
def Sys.gcmEnc (s : Sys) (slot : Nat) : Sys :=
  let p := gcmParts s.keyInput
  s.keyOp [(slot, [1])] none (s.gcmFits 0) (p.2.2.length + 16) fun s =>
    let r := gcmEncrypt (s.keyBytes slot) p.1 p.2.1 p.2.2
    (s.keyOut (r.1 ++ r.2), 0)

def execGcmenc (slot : Nat) (s : State) : Host.Outcome State Fault Refusal := run (fun y => y.gcmEnc slot) s

/-- GCMDEC: with a tag that fails the output is zeros. -/
def Sys.gcmDec (s : Sys) (slot : Nat) : Sys :=
  let p := gcmParts s.keyInput
  let n := p.2.2.length - 16
  s.keyOp [(slot, [1])] none (s.gcmFits 16) n fun s =>
    let r := gcmDecrypt (s.keyBytes slot) p.1 p.2.1 (p.2.2.take n)
    if r.2 == p.2.2.drop n then (s.keyOut r.1, 0) else (s.keyOut (List.replicate (s.get KEY_DLEN_LEN) 0), 0x0704)

def execGcmdec (slot : Nat) (s : State) : Host.Outcome State Fault Refusal := run (fun y => y.gcmDec slot) s

/-- HMAC. -/
def Sys.keyHmac (s : Sys) (slot : Nat) : Sys :=
  s.keyOp [(slot, [2])] none (fun _ => true) 32 fun s => (s.keyOut (hmacSha256 (s.keyBytes slot) s.keyInput), 0)

def execHmac (slot : Nat) (s : State) : Host.Outcome State Fault Refusal := run (fun y => y.keyHmac slot) s

/-- SHA256. -/
def Sys.keySha (s : Sys) : Sys := s.keyOp [] none (fun _ => true) 32 fun s => (s.keyOut (sha256 s.keyInput), 0)

def execSha256 (s : State) : Host.Outcome State Fault Refusal := run Sys.keySha s

/-- SIGN: the nonce of the signature is open. -/
def Sys.keySign (s : Sys) : Sys :=
  s.keyOp [(31, [3])] none (fun n => n == 32) 64 fun s =>
    let d := s.drawRandom
    (d.2.keyOut (ecdsaSign (s.slotKey 31).key s.keyInput d.1), 0)

def execSign (s : State) : Host.Outcome State Fault Refusal := run Sys.keySign s

/-- VERIFY. -/
def Sys.keyVerify (s : Sys) : Sys :=
  s.keyOp [] none (fun n => n == 160) 0 fun s =>
    let m := s.keyInput
    (s, if ecdsaVerify (m.take 64) ((m.drop 64).take 32) (m.drop 96) then 0 else 0x0704)

def execVerify (s : State) : Host.Outcome State Fault Refusal := run Sys.keyVerify s

/-- The info of ECDH's derivation: "ecdh". -/
def ecdhInfo : List Nat := [101, 99, 100, 104]

/-- ECDH: KIND comes from KEY_CMD. A peer key off the curve is out of range. -/
def Sys.keyEcdh (s : Sys) (slot kind : Nat) : Sys :=
  let peer := ecdhShared (s.slotKey 31).key s.keyInput
  s.keyOp [(31, [3])] (some slot) (fun n => n == 64 && peer.isSome && kind ≤ 2) 0 fun s =>
    ((s.revokeUnder slot).setSlot slot kind 31 (numLE (hkdfSha256 (peer.getD []) s.uid ecdhInfo 32)) ecdhInfo, 0)

def execEcdh (slot kind : Nat) (s : State) : Host.Outcome State Fault Refusal := run (fun y => y.keyEcdh slot kind) s

/-- RANDOM: bytes of the TRNG, or zeros with 0x0716 when its health test fails; then it refuses until the next module reset. -/
def Sys.keyRandom (s : Sys) (healthy : Bool) : Sys :=
  let n := s.get KEY_DLEN_LEN
  if s.keys.running.isNone && s.keys.trngFailed then s.keyRefuse 0x0716
  else s.keyOp [] none (fun _ => 1 ≤ n && n ≤ 4096) 0 fun s =>
    if healthy then
      ((List.range n).foldl (fun s i => let d := s.drawRandom; { d.2 with mem := memSetByte d.2.mem (s.word KEY_DST + i) (BitVec.ofNat 8 d.1) }) s, 0)
    else ({ s.keyOut (List.replicate n 0) with keys := { s.keys with trngFailed := true } }, 0x0716)

def execRandom (healthy : Bool) (s : State) : Host.Outcome State Fault Refusal := run (fun y => y.keyRandom healthy) s

/-- A table entry of the exchange: a station index or 0x8000 + bus. -/
def hitEntryOk (e : Nat) : Bool := e < 1280 || (0x8000 ≤ e && e ≤ 0x8008)

/-- HITLOAD: a descendant of KHIT copied into the exchange's table. -/
def Sys.hitLoad (s : Sys) (slot : Nat) : Sys :=
  let e := numLE s.keyInput
  s.keyOp [(slot, [0, 1, 2])] none (fun n => n == 2 && hitEntryOk e && s.underHit slot 32) 0 fun s =>
    ({ s with hit := { s.hit with keys := (e, slot, (s.slotKey slot).key) :: s.hit.keys.filter fun k => k.1 != e } }, 0)

def execHitload (slot : Nat) (s : State) : Host.Outcome State Fault Refusal := run (fun y => y.hitLoad slot) s

/-- R426: the operation ends. -/
def Sys.keyDone (s : Sys) : Sys :=
  match s.keys.running with
  | none => s
  | some (code, _, _) =>
    let s1 := ({ s with keys := { s.keys with running := none } }.put KEY_STAT_BUSY 0).put KEY_RES_CODE code
    let s2 := s1.put KEY_RES_DONE 1
    if code = 0 then s2 else s2.note code

def execKeyOperationDone (s : State) : Host.Outcome State Fault Refusal := run Sys.keyDone s

/-- R429: an operation aborted by tamper: its whole output buffer is zeros. -/
def Sys.keyAbort (s : Sys) : Sys :=
  match s.keys.running with
  | none => s
  | some (_, dst, n) =>
    ({ s with mem := memZero s.mem dst n, keys := { s.keys with running := some (0x0703, dst, n) } }).keyDone

end Sys2Proof.Machine
end

