-- ==== Sys2Proof/Machine/Mailbox.lean ====
section
/-!
DEFINITION. The host mailbox (R445, spec/17_startup_and_image_update.md): how a command is taken, refused and ended, and its buffer.
-/
namespace Sys2Proof.Machine

/-! ## States (UPD_STAT) -/

abbrev updBoot : Nat := 0
abbrev updWaitHost : Nat := 1
abbrev updLoading : Nat := 2
abbrev updRun : Nat := 3
abbrev updActivating : Nat := 4
abbrev updCopying : Nat := 5
abbrev pantryEmpty : Nat := 0
abbrev pantryOpen : Nat := 1
abbrev pantryVerifying : Nat := 2
abbrev pantryVerified : Nat := 3
abbrev pantryFailed : Nat := 4
abbrev pantryInUse : Nat := 5

/-- The pantry's state. -/
def Sys.pantry (s : Sys) : Nat := s.get UPD_STAT_PANTRY

/-- The warning of R383 stands: PFW_N is asserted. -/
def Sys.pfw (s : Sys) : Bool := s.on PWR_VMON_PFW

/-! ## The buffer -/

/-- Byte `k` of UPD_BUF. -/
def Sys.bufByte (s : Sys) (k : Nat) : Nat := bits (s.word (UPD_BUF (k / 4))) (8 * (k % 4)) 8

/-- The first `n` bytes of UPD_BUF. -/
def Sys.bufBytes (s : Sys) (n : Nat) : List Nat := (List.range n).map s.bufByte

/-- A word from up to four bytes. -/
def wordOf (bs : List Nat) : Nat := bs.foldr (fun b acc => b % 256 + 256 * acc) 0

/-- Bytes put into UPD_BUF from offset 0, in whole words. -/
def Sys.putBuf (s : Sys) (bs : List Nat) : Sys :=
  (List.range ((bs.length + 3) / 4)).foldl (fun s k => s.setWord (UPD_BUF k) (wordOf ((bs.drop (4 * k)).take 4))) s

/-! ## Taking and ending a command -/

/-- A command comes in: the limit of an idle session starts anew (R447). Before the first session the wait for the host goes on. -/
def Sys.touchSession (s : Sys) : Sys := if s.upd.opened then { s with upd := { s.upd with touched := s.fclk } } else s

/-- A command ends with a code: UPD_RES shows it and vector 12 is signalled while it is enabled. -/
def Sys.mbxEnd (s : Sys) (code : Nat) : Sys :=
  ({ (((s.put UPD_RES_BUSY 0).put UPD_RES_CODE code).put UPD_RES_DONE 1) with upd := { s.upd with running := none } }).signal UPD_INT_DONE (s.on UPD_INTEN_DONE) 12

/-- A command that cannot be taken ends at once with its code. -/
def Sys.mbxRefuse (s : Sys) (code : Nat) : Sys := (s.note code).mbxEnd code

/-- A command taken: it runs, and will end with `code`. -/
def Sys.mbxTake (s : Sys) (op code : Nat) : Sys :=
  { ((s.put UPD_RES_DONE 0).put UPD_RES_BUSY 1).put UPD_RES_CODE 0 with upd := { s.upd with running := some op, result := code } }

/-- How a command of the mailbox stands when it is given. -/
inductive MbxGate where
  | shut | asleep | busy | early | open
deriving DecidableEq, Repr

/-- Before the mailbox opens nothing is served; in standby a command wakes the module first; one command runs at a time; the
firmware's commands wait for it (R445). -/
def Sys.mbxGate (s : Sys) (firmware : Bool) : MbxGate :=
  if s.pwr.standby = 3 then .asleep
  else if s.get UPD_STAT_STATE = updBoot then .shut
  else if s.on UPD_RES_BUSY then .busy
  else if firmware && !s.on UPD_STAT_FW then .early
  else .open

/-- The doorbell rung in standby: while its wake is enabled the command waits for the wake (R390, R445). One given before it is the
command that runs. -/
def Sys.mbxAsleep (s : Sys) (op : Nat) : Sys :=
  if s.get PWR_SBCFG_HOSTDB = 0 || s.on UPD_RES_BUSY then s
  else
    let s1 := s.mbxTake op 0
    { s1 with upd := { s1.upd with asleep := true }, pwr := { s1.pwr with wakeHeld := some (s1.pwr.wakeHeld.getD 3) } }

/-- A doorbell that the host rings during a standby entry is held as a wake (R389). -/
def Sys.ringDoorbell (s : Sys) (who : Agent) : Sys :=
  if who = .host && s.pwr.standby = 1 && s.on PWR_SBCFG_HOSTDB then { s with pwr := { s.pwr with wakeHeld := some (s.pwr.wakeHeld.getD 3) } } else s

/-- A command of the mailbox: `ok` says that its state and arguments permit it, `effect` what it does, with the code it ends with. -/
def Sys.mailbox (s : Sys) (op : Nat) (firmware ok : Bool) (effect : Sys → Sys × Nat) : Sys :=
  match s.mbxGate firmware with
  | .shut => s
  | .asleep => s.mbxAsleep op
  | .busy => s.touchSession.note 0x080A
  | .early => s.touchSession.mbxRefuse 0x0819
  | .open => if ok then ((effect s).1.touchSession).mbxTake op (effect s).2 else s.touchSession.mbxRefuse 0x080A

/-- UPD_ARG0 to UPD_ARG3. -/
def Sys.arg (s : Sys) (k : Nat) : Nat := s.word (UPD_ARG k)

end Sys2Proof.Machine
end

