-- ==== Sys2Proof/Machine/Lockers.lean ====
section
/-!
DEFINITION. Tamper, owner messages, tickets and attestation (spec/16_keys_tamper_lockers.md R421 to R436).
-/
namespace Sys2Proof.Machine

/-! ## Bindings (R430) -/

/-- Paths of a binding. -/
abbrev pathPortal : Nat := 1
abbrev pathChannel : Nat := 2
abbrev pathCursor : Nat := 3

/-- The binding of a target: its locker and NOTAFTER, if it is bound. -/
def Sys.bindingOf (s : Sys) (path target : Nat) : Option (Nat × Nat) :=
  if path = pathPortal then
    if s.on (LCK_PBIND_VALID target) then some (s.get (LCK_PBIND_LOCKER target), s.word (LCK_PEXP target)) else none
  else (s.lck.bindings.find? fun b => b.path == path && b.target == target).map fun b => (b.locker, b.notAfter)

/-- A binding ends with a cause: 1 expiry, 2 host, 3 activation, 4 tamper. -/
def Sys.endBinding (s : Sys) (path target cause : Nat) : Sys :=
  match s.bindingOf path target with
  | none => s
  | some (locker, _) =>
    let s1 := { s with lck := { s.lck with bindings := s.lck.bindings.filter fun b => !(b.path == path && b.target == target) } }
    let s2 := if path = pathPortal then s1.put (LCK_PBIND_VALID target) 0
      else if path = pathChannel then (if s1.on (DMA_CHLK_LKEN target) then s1.bindingVoid (Fin.ofNat 16 target) else s1)
      else s1.put (EVR_CBIND_VALID target) 0
    s2.post 0x1504 locker [(path, 1), (target, 1), (cause, 1)]

/-- Every target that can be bound. -/
def allTargets : List (Nat × Nat) :=
  ((List.range 16).map fun p => (pathPortal, p)) ++ ((List.range 8).map fun c => (pathChannel, c)) ++ ((List.range 8).map fun c => (pathCursor, c))

/-- The bindings of tenant lockers that meet a condition end. -/
def Sys.endBindings (s : Sys) (cause : Nat) (f : Nat → Bool) : Sys :=
  allTargets.foldl (fun s t => if (s.bindingOf t.1 t.2).any fun b => f b.1 then s.endBinding t.1 t.2 cause else s) s

/-- A target bound to a locker with a right to write. A channel is tagged while it does not run (R337); a cursor starts at 0. -/
def Sys.bind (s : Sys) (path target locker notAfter : Nat) (write : Bool) : Sys :=
  let b : Binding := { path := path, target := target, locker := locker, notAfter := notAfter }
  let s1 := if path = pathPortal then s
    else { s with lck := { s.lck with bindings := b :: s.lck.bindings.filter fun x => !(x.path == path && x.target == target) } }
  if path = pathPortal then
    (((s1.put (LCK_PBIND_VALID target) 1).putB (LCK_PBIND_WRITE target) write).put (LCK_PBIND_LOCKER target) locker).setWord (LCK_PEXP target) notAfter
  else if path = pathChannel then s1.chlkWrite (Fin.ofNat 16 target) (locker + if locker = 0 then 0 else 0x10000)
  else
    let s2 := ((s1.put (EVR_CBIND_VALID target) 1).putB (EVR_CBIND_WRITE target) write).put (EVR_CBIND_LOCKER target) locker
    let s3 := (s2.setWord (EVR_CPOS target) 0).put (EVR_CSTAT_LOST target) 0
    { s3 with evr := { s3.evr with lostAtBind := putKey s3.evr.lostAtBind target (lookupD 0 s3.evr.lost locker) } }

/-- The locker's record permits writes; the house always does (R433). -/
def Sys.lockerWrites (s : Sys) (locker : Nat) : Bool := locker == 0 || (lockerRec s.image locker).getD false

/-- The locker is configured. -/
def Sys.lockerKnown (s : Sys) (locker : Nat) : Bool := locker == 0 || (s.prog.active && (lockerRec s.image locker).isSome)

/-- OWNHASH. -/
def ownHash (f : List (Nat × Nat)) : List Nat := ((List.range 8).map fun i => bytesLE 4 (fuseWord f (16 + i))).flatten

/-- OWNPUB as the loft holds it, if its hash is OWNHASH (R421). -/
def Sys.ownerKey (s : Sys) (f : List (Nat × Nat)) : Option (List Nat) :=
  let p := bytesLE 64 s.loft.ownpub
  if sha256 p == ownHash f then some p else none

/-- A message's signature verifies under OWNPUB. -/
def Sys.ownerSigned (s : Sys) (f : List (Nat × Nat)) (msg sig : List Nat) : Bool :=
  match s.ownerKey f with
  | some p => ecdsaVerify p (sha256 msg) sig
  | none => false

/-- The reason a ticket is refused for, or 0 (R438). -/
def Sys.ticketReason (s : Sys) (f : List (Nat × Nat)) (t : List Nat) (path : Nat) : Nat :=
  let grant := numLE ((t.drop 4).take 4)
  let locker := grant % 1024
  if numLE (t.take 4) != 0x100 then 1
  else if (t.drop 8).take 8 != s.uid then 2
  else if !s.ownerSigned f (t.take 64) ((t.drop 64).take 64) then 3
  else if !s.on RTC_STAT_VALID || numLE ((t.drop 16).take 4) < s.rtc.sec then 4
  else if !s.lockerKnown locker then 5
  else if s.get KEY_STAT_ROOT = rootNone && locker != 0 then 6
  else if !grant.testBit (18 + path) then 7
  else 0

/-- The target that UPD_ARG0 names can be bound. -/
def targetOk (arg : Nat) : Bool :=
  let path := arg % 256
  let n := bits arg 8 8
  (path == pathPortal && n < 16) || ((path == pathChannel || path == pathCursor) && n < 8)

/-- R430: a ticket taken; a portal's WRITE is the ticket's and the locker record's (R433). A channel that runs cannot be bound again before it
stops (R336). -/
def Sys.takeTicket (s : Sys) (f : List (Nat × Nat)) : Sys × Nat :=
  let t := s.bufBytes 128
  let path := s.arg 0 % 256
  let target := bits (s.arg 0) 8 8
  let grant := numLE ((t.drop 4).take 4)
  let locker := grant % 1024
  let reason := s.ticketReason f t path
  if reason != 0 then (s.post 0x1502 locker [(reason, 1)], 0x1502)
  else if path == pathChannel && s.chState (Fin.ofNat 16 target) == chRun then (s.chPost (Fin.ofNat 16 target) 0x0B07, 0x0B07)
  else ((s.bind path target locker (numLE ((t.drop 16).take 4)) (grant.testBit 16 && (path != pathPortal || s.lockerWrites locker))).post 0x1501 locker [(path, 1), (target, 1), (locker, 2)], 0)

/-- TICKET. -/
def Sys.ticket (s : Sys) (f : List (Nat × Nat)) : Sys := s.mailbox 0x11 true (targetOk (s.arg 0)) fun z => z.takeTicket f

def execTicket (who : Agent) (s : State) : Host.Outcome State Fault Refusal := run (fun y => (y.ringDoorbell who).ticket s.fuses) s

/-- UNBIND. -/
def Sys.unbind (s : Sys) : Sys :=
  s.mailbox 0x12 true (targetOk (s.arg 0)) fun z => (z.endBinding (z.arg 0 % 256) (bits (z.arg 0) 8 8) 2, 0)

def execUnbind (who : Agent) (s : State) : Host.Outcome State Fault Refusal := run (fun y => (y.ringDoorbell who).unbind) s

/-- R430: a binding whose NOTAFTER the RTC seconds have passed ends. -/
def Sys.bindingExpiry (s0 : Sys) (path target : Nat) : Sys :=
  match s0.bindingOf path target with
  | none => s0
  | some (_, t) => (s0.reachSec (t + 1)).endBinding path target 1

def execBindingExpiry (kind : Nat) (index : Nat) (s : State) : Host.Outcome State Fault Refusal := run (fun y => y.bindingExpiry kind index) s

/-! ## Locker ranges (R434) -/

/-- A range as LCK_RNGAk and LCK_RNGSk give it: base, length, locker, enabled. -/
def rangeOf (a z : Nat) : Nat × Nat × Nat × Bool := (bits a 16 16 * 65536, bits z 0 14 * 65536, a % 1024, a.testBit 15)

/-- A range breaks a rule: an enabled one lies outside the lockers' DRAM or overlaps another locker's. -/
def Sys.rangeBad (s : Sys) (k a z : Nat) : Bool :=
  let r := rangeOf a z
  let lo := r.1
  let hi := r.1 + r.2.1
  r.2.2.2 && (lo < 0x84000000 || 0xB0000000 < hi || r.2.1 == 0 || 11264 * 65536 < r.2.1
    || (List.range 64).any fun j =>
      let q := rangeOf (s.word (LCK_RNGA j)) (s.word (LCK_RNGS j))
      j != k && q.2.2.2 && q.2.2.1 != r.2.2.1 && lo < q.1 + q.2.1 && q.1 < hi)

def Sys.lckRange (s : Sys) (k : Nat) (second : Bool) (data : Nat) : Sys :=
  let a := if second then s.word (LCK_RNGA k) else data
  let z := if second then data else s.word (LCK_RNGS k)
  let size := bits data 0 14
  if (second && (size == 0 || 11264 < size)) || s.rangeBad k a z then s.post 0x1505 (a % 1024) []
  else s.storeWord (if second then LCK_RNGS k else LCK_RNGA k) data

def execLckRangeWrite (k : Fin 64) (second : Bool) (data : Nat) (s : State) : Host.Outcome State Fault Refusal :=
  run (fun y => y.lckRange k.val second data) s

/-! ## Tamper (R427 to R429) -/

/-- A source is enabled. -/
def Sys.tamperEnabled (s : Sys) (k : Nat) : Bool :=
  if k < 3 then s.bit SYS_FUSE_TAMPEN k else if k = 3 then s.on CEL_STAT_SRC else true

/-- Without power or in standby nothing of the management plane acts. -/
def Sys.darkNow (s : Sys) : Bool := s.pwr.inReset || s.pwr.standby == 3

/-- R428: the root is zeroed with what follows in the key store and at the lockers. -/
def Sys.loseRoot (s : Sys) : Sys :=
  let s1 := { s with rtc := { s.rtc with root := 0 } }
  (s1.keyAbort.putRoot rootNone 0).endBindings 4 fun l => l != 0

/-- R428: a source fires. -/
def Sys.tamper (s0 : Sys) (k : Nat) : Sys :=
  let s := s0.putBit KEY_STAT_TLIVE k true
  if !s.tamperEnabled k then s
  else
    let s1 := s.putBit CEL_TAMP_SRC k true
    let s2 := (if s.rtc.root = 0 then s1 else s1.loseRoot).reseal
    if s.darkNow then { s2 with rtc := { s2.rtc with dark := s2.rtc.dark ||| 2 ^ k } }
    else s2.post 0x070F 0 [(s2.get CEL_TAMP_SRC, 1)]

def execTamper (source : Fin 6) (s : State) : Host.Outcome State Fault Refusal := run (fun y => y.tamper source.val) s

/-- R395, R427: the cellar changes its source. VCELL found outside its range at a change to it fires the source. -/
def Sys.switchSupply (s : Sys) (cell : Bool) : Sys :=
  let s1 := s.putB CEL_STAT_SRC cell
  if cell && !s.on CEL_STAT_SRC && s1.bit KEY_STAT_TLIVE 3 then s1.tamper 3 else s1

def execSupplySwitch (cell : Bool) (s : State) : Host.Outcome State Fault Refusal := run (fun y => y.switchSupply cell) s

def execTamperConditionCleared (source : Fin 6) (s : State) : Host.Outcome State Fault Refusal :=
  run (fun y => y.putBit KEY_STAT_TLIVE source.val false) s

/-! ## Owner messages (R421 to R424) -/

/-- An owner message as it lies in UPD_BUF. -/
structure OwnerMsg where
  format : Nat
  type : Nat
  len : Nat
  uid : List Nat
  epoch : Nat
  counter : Nat
  payload : List Nat
  head : List Nat
  body : List Nat
  sig : List Nat
deriving DecidableEq, Repr

/-- The message in the first `n` bytes. -/
def ownerMsg (m : List Nat) : OwnerMsg :=
  let len := numLE ((m.drop 6).take 2)
  { format := numLE (m.take 4), type := numLE ((m.drop 4).take 2), len := len, uid := (m.drop 8).take 8, epoch := numLE ((m.drop 0x10).take 4)
    counter := numLE ((m.drop 0x14).take 4), payload := (m.drop 0x18).take len, head := m.take 0x18, body := m.take (0x18 + len)
    sig := (m.drop (0x18 + len)).take 64 }

/-- Payload bytes of a type, if there is such a type. -/
def ownerLen (type : Nat) : Option Nat :=
  if type = 1 then some 180 else if type = 2 || type = 3 then some 112 else if type = 4 || type = 5 then some 4 else none

/-- The type enrols. -/
def OwnerMsg.enrols (m : OwnerMsg) : Bool := m.type == 1 || m.type == 2

/-- The public key a message is checked under. -/
def OwnerMsg.pub (m : OwnerMsg) : List Nat := m.payload.take 64

/-- EPHPUB and WRAP of a message that carries a root. -/
def OwnerMsg.wrap (m : OwnerMsg) : List Nat × List Nat :=
  let p := if m.type = 1 then m.payload.drop 68 else m.payload
  (p.take 64, (p.drop 64).take 48)

/-- The info of the wrapping key: "enrol". -/
def enrolInfo : List Nat := [101, 110, 114, 111, 108]

/-- WRAP decrypted (R422). -/
def Sys.unwrap (s : Sys) (m : OwnerMsg) : Option Nat :=
  match ecdhShared (s.slotKey 31).key m.wrap.1 with
  | none => none
  | some x =>
    let key := hkdfSha256 x s.uid enrolInfo 32
    let r := gcmDecrypt key (bytesLE 4 m.epoch ++ bytesLE 4 m.counter ++ bytesLE 2 m.type ++ [0, 0]) m.head (m.wrap.2.take 32)
    if r.2 == m.wrap.2.drop 32 && numLE r.1 != 0 then some (numLE r.1) else none

/-- SC: the larger of the loft's counter, when it is readable under the root in use, and CEL_SCR7 (R423). -/
def Sys.storedCounter (s : Sys) : Nat :=
  let c := match s.loft.counter with
    | some (root, v) => if s.get KEY_STAT_ROOT != rootNone && (s.slotKey 0).key == root then v else 0
    | none => 0
  Nat.max c (s.word (CEL_SCR 7))

/-- An FM-6400-D (R2). -/
def Sys.variantD (s : Sys) : Bool := s.get SYS_ID_VARIANT == 3

/-- The condition of a type (order 7 of R423). -/
def Sys.ownerCondition (s : Sys) (f : List (Nat × Nat)) (m : OwnerMsg) : Nat :=
  let test := s.get KEY_STAT_ROOT == rootTest
  let lock := s.on SYS_FUSE_OWNLOCK
  if m.type = 1 then
    if lock || test || ((ownHash f).any (fun b => b != 0) && sha256 m.pub != ownHash f) then 0x070B else 0
  else if m.type = 2 then
    if !lock || test then 0x070B else if s.get KEY_STAT_TLIVE != 0 then 0x070C else 0
  else if m.type = 3 then (if s.get KEY_STAT_ROOT = rootCellar then 0 else 0x070B)
  else if lock then 0 else 0x070B

/-- R423: the code of the first check that fails, or 0. A burn refused under R416 refuses an enrolment. -/
def Sys.ownerCode (s : Sys) (f : List (Nat × Nat)) (m : OwnerMsg) (n : Nat) : Nat :=
  let e := s.get SYS_KEPOCH_E
  if m.format != 0x100 || ownerLen m.type != some m.len || n != 0x18 + m.len + 64 || m.uid != s.uid then 0x0707
  else if m.enrols && s.variantD then 0x070A
  else if m.enrols && 64 ≤ e then 0x0715
  else if m.epoch != (if m.enrols then e + 1 else e) then 0x0709
  else if !(if m.type = 1 then ecdsaVerify m.pub (sha256 m.body) m.sig else s.ownerSigned f m.body m.sig) then 0x0708
  else if !m.enrols && m.counter ≤ s.storedCounter then 0x0709
  else if s.ownerCondition f m != 0 then s.ownerCondition f m
  else if m.type ≤ 3 && (s.unwrap m).isNone then 0x0704
  else if m.enrols && s.pfw then 0x070E
  else 0

/-- The fuses that an accepted message blows. -/
def ownerFuses (f : List (Nat × Nat)) (e : Nat) (m : OwnerMsg) : List (Nat × Nat) :=
  let f1 := if m.enrols then blow f (5 + e / 32) (2 ^ (e % 32)) else f
  if m.type = 1 then
    let h := sha256 m.pub
    let f2 := (List.range 8).foldl (fun f i => blow f (16 + i) (numLE ((h.drop (4 * i)).take 4))) f1
    blow f2 4 (nth 0 m.payload 64 % 8 * 2 ^ 7 + 4)
  else f1

/-- A root delivered by the owner written to the cellar and put into slot 0. -/
def Sys.installRoot (s : Sys) (m : OwnerMsg) : Sys :=
  let root := (s.unwrap m).getD 0
  let s1 := if m.type = 1 then { s with loft := { s.loft with ownpub := numLE m.pub } } else s
  let s2 := { s1 with rtc := { s1.rtc with root := root } }
  let s3 := if m.type = 2 then s2.setWord CEL_TAMP 0 else s2
  (s3.putRoot rootCellar root).post 0x0711 0 [(m.type, 2), (s.get SYS_KEPOCH_E, 1)]

/-- COUNTER written to the loft and to CEL_SCR7. The record is sealed under KREC, so there is none without a root. -/
def Sys.keepCounter (s : Sys) (c : Nat) : Sys :=
  let s1 := s.setWord (CEL_SCR 7) c
  (if s1.get KEY_STAT_ROOT = rootNone then s1 else { s1 with loft := { s1.loft with counter := some ((s1.slotKey 0).key, c) } }).reseal

/-- DEBUG: the port opens and the test root is in use (R424). -/
def Sys.openDebug (s : Sys) : Sys :=
  if s.variantD then s else ((s.put KEY_STAT_DEBUG 1).putRoot rootTest testRoot).note 0x0712

/-- The effect of an accepted message, once its fuses are blown. -/
def Sys.ownerEffect (s : Sys) (m : OwnerMsg) : Sys :=
  let s1 := if m.type ≤ 3 then s.installRoot m
    else if m.type = 4 then s.put VOT_PERMIT_SOLO (nth 0 m.payload 0)
    else s.openDebug
  s1.keepCounter m.counter

/-- R423: an owner message, checked in order. -/
def ownerMessage (s : State) : State :=
  let y := s.sys
  let n := y.arg 0
  let m := ownerMsg (y.bufBytes (Nat.min n 1024))
  let ok := 1 ≤ n && n ≤ 1024
  let code := y.ownerCode s.fuses m n
  let f := ownerFuses s.fuses (y.get SYS_KEPOCH_E) m
  match y.mbxGate true with
  | .open =>
    if ok && code = 0 then { s with sys := ((y.mirrorFuses f).ownerEffect m).mbxTake 0x10 0, fuses := f }
    else { s with sys := y.mailbox 0x10 true ok fun z => (z.note code, code) }
  | _ => { s with sys := y.mailbox 0x10 true ok fun z => (z, 0) }

def execOwner (who : Agent) (s : State) : Host.Outcome State Fault Refusal := .next (ownerMessage { s with sys := s.sys.ringDoorbell who })

/-! ## Attestation (R436) -/

/-- STATE of the report. -/
def Sys.attestState (s : Sys) : Nat :=
  s.get KEY_STAT_ROOT + 4 * s.get KEY_STAT_DEBUG + 8 * s.get CEL_TAMP_SRC + 512 * s.get SYS_FUSE_RETIRE + 8192 * s.get SYS_FUSE_OWNLOCK
    + 16384 * s.get RTC_STAT_VALID

/-- The hash of the active manifest, or zeros. -/
def Sys.manifestHash (s : Sys) : List Nat :=
  if s.prog.active then sha256 (memBytes s.mem s.sourceManifest 768) else List.replicate 32 0

/-- The report without its signature. -/
def Sys.report (s : Sys) (f : List (Nat × Nat)) : List Nat :=
  bytesLE 4 0x100 ++ bytesLE 4 (s.word SYS_ID) ++ s.uid ++ s.bufBytes 32 ++ bytesLE 4 (s.get SYS_KEPOCH_E) ++ bytesLE 4 s.attestState
    ++ bytesLE 4 s.rtc.sec ++ bytesLE 4 (s.get SYS_VFLOOR_COUNT) ++ s.manifestHash ++ ownHash f

/-- R436: the report signed by DIK. -/
def Sys.attest (s : Sys) (f : List (Nat × Nat)) : Sys :=
  s.mailbox 0x13 true true fun z =>
    let r := z.report f
    let d := z.drawRandom
    ((d.2.putBuf (r ++ ecdsaSign (z.slotKey 31).key (sha256 r) d.1)).note 0x0713, 0)

def execAttest (who : Agent) (s : State) : Host.Outcome State Fault Refusal := run (fun y => (y.ringDoorbell who).attest s.fuses) s

end Sys2Proof.Machine
end

