-- ==== Sys2Proof/Machine/Net.lean ====
section
/-!
DEFINITION. The Ethernet ports (spec/11_ethernet_ports.md): link (R315 to R317), frame sizes and the receive path (R318 to R321, R324),
rings (R322, R323, R325) and pause (R326, R327). A frame given or kept as it passes the wire holds its 4 FCS bytes.
-/
namespace Sys2Proof.Machine

/-- NET_LINK.STATE (R316). -/
abbrev linkDown : Nat := 0
abbrev linkNegotiating : Nat := 1
abbrev linkUp : Nat := 2
abbrev linkNomatch : Nat := 3

def Sys.port (s : Sys) (p : Fin 3) : Port := s.ports[p]
def Sys.modPort (s : Sys) (p : Fin 3) (f : Port → Port) : Sys := { s with ports := s.ports.set p (f (s.port p)) }

/-- An event of a port (R328). -/
def Sys.netPost (s : Sys) (p : Fin 3) (code : Nat) (vals : List (Nat × Nat)) : Sys := s.post code 0 ((p.val, 1) :: vals)

/-- A bit of NET_INT sets; NET0 and NET1 signal vectors 10 and 11 (R340). -/
def Sys.netInt (s : Sys) (p : Fin 3) (f : Fld) : Sys := s.signal f (p.val < 2) (10 + p.val)

/-- A host write to a NET2 register (R313). -/
def netRefuses (who : Agent) (p : Fin 3) : Bool := who == .host && p == 2

def Sys.linkState (s : Sys) (p : Fin 3) : Nat := s.get (NET_LINK_STATE p.val)

/-! ## Rings (R322) -/

def Sys.txSize (s : Sys) (p : Fin 3) : Nat := 2 ^ s.get (NET_TXCFG_LOG2 p.val)
def Sys.rxSize (s : Sys) (p : Fin 3) : Nat := 2 ^ s.get (NET_RXCFG_LOG2 p.val)
def Sys.txDesc (s : Sys) (p : Fin 3) (i : Nat) : Nat := 32 * s.get (NET_TXBASE_BASE p.val) + 32 * i
def Sys.rxDesc (s : Sys) (p : Fin 3) (i : Nat) : Nat := 32 * s.get (NET_RXBASE_BASE p.val) + 32 * i

/-- A ring of `size` descriptors lies wholly in the module data structures region. -/
def ringFits (base size : Nat) : Bool := 0x80400000 ≤ base && base + 32 * size ≤ 0x84000000

/-- A buffer lies wholly where R323 allows it. -/
def bufferFits (addr len : Nat) : Bool := 0x84000000 ≤ addr && addr + len ≤ 0xB0000000

/-- The descriptors of the frame at HEAD, up to the one with EOP; none when that lies beyond TAIL. -/
def Sys.frameDescs (s : Sys) (p : Fin 3) : Nat → Nat → Option (List Nat)
  | 0, _ => none
  | fuel + 1, i =>
    if i = s.get (NET_TXTAIL_IDX p.val) % s.txSize p then none
    else if (s.rd (s.txDesc p i + 4) 4).testBit 16 then some [i]
    else (Sys.frameDescs s p fuel ((i + 1) % s.txSize p)).map fun l => i :: l

/-- LEN of a transmit descriptor. -/
def Sys.descLen (s : Sys) (p : Fin 3) (i : Nat) : Nat := bits (s.rd (s.txDesc p i + 4) 4) 0 11

/-- The frame's bytes without FCS. -/
def Sys.frameBytes (s : Sys) (p : Fin 3) (ds : List Nat) : List Nat :=
  (ds.map fun i => memBytes s.mem (s.rd (s.txDesc p i) 4) (s.descLen p i)).flatten

/-- Bytes 12 and 13 hold 0x8100. -/
def isTagged (f : List Nat) : Bool := nth 0 f 12 == 0x81 && nth 0 f 13 == 0x00

/-- Transmit descriptors written back with a STATUS and a TIME; HEAD advances past them, and TXDONE sets for a frame with IRQ. -/
def Sys.txBack (s : Sys) (p : Fin 3) (ds : List Nat) (status time : Nat) : Sys :=
  let irq := ds.any fun i => (s.rd (s.txDesc p i + 4) 4).testBit 17
  let s1 := ds.foldl (fun s i => (s.wr (s.txDesc p i + 7) 1 status).wr (s.txDesc p i + 8) 8 time) s
  let s2 := match ds.getLast? with
    | some l => s1.put (NET_TXHEAD_IDX p.val) ((l + 1) % s.txSize p)
    | none => s1
  if irq then s2.netInt p (NET_INT_TXDONE p.val) else s2

/-- The descriptors of the frame on the wire. -/
def Sys.sendingDescs (s : Sys) (p : Fin 3) : List Nat :=
  (List.range (s.port p).sendCount).map fun k => (s.get (NET_TXHEAD_IDX p.val) + k) % s.txSize p

/-- A frame refused under R319. -/
def Sys.txRefused (s : Sys) (p : Fin 3) (ds : List Nat) : Bool :=
  let len := (ds.map fun i => s.descLen p i).foldl (· + ·) 0
  len < 14 || (if isTagged (s.frameBytes p ds) then 1518 else 1514) < len || ds.any fun i => !bufferFits (s.rd (s.txDesc p i) 4) (s.descLen p i)

/-- The frame as it leaves the port: padded to 60 bytes, with its FCS. -/
def wireFrame (f : List Nat) : List Nat := let g := f ++ List.replicate (60 - f.length) 0; g ++ bytesLE 4 (crc32 g)

/-- R325: the frame at HEAD is sent, refused, or waits. -/
def Sys.netTransmit (s : Sys) (p : Fin 3) : Sys :=
  if p = 2 || !s.on (NET_CTL_TXEN p.val) || s.linkState p != linkUp || (s.port p).paused || (s.port p).sending.isSome || s.dramGap.isSome then s
  else match s.frameDescs p (s.txSize p) (s.get (NET_TXHEAD_IDX p.val)) with
  | none => s
  | some ds =>
    if s.txRefused p ds then
      ((s.txBack p ds 1 0).incSat (NET_TXDERR_COUNT p.val)).netPost p 0x0D04 [(0, 1), (s.get (NET_TXHEAD_IDX p.val), 2)]
    else s.modPort p fun q => { q with sending := some (wireFrame (s.frameBytes p ds)), sendCount := ds.length, sendTime := s.ang.time }

def execNetTransmit (port : Fin 3) (s : State) : Host.Outcome State Fault Refusal := run (fun y => y.netTransmit port) s

/-- The frame on the wire has been sent. -/
def Sys.netTxDone (s : Sys) (p : Fin 3) : Sys :=
  match (s.port p).sending with
  | none => s
  | some f =>
    ((s.txBack p (s.sendingDescs p) 0 (s.port p).sendTime).incSat (NET_TXOK_COUNT p.val)).modPort p fun q => { q with sending := none, sendCount := 0, wire := f }

def execNetTxComplete (port : Fin 3) (s : State) : Host.Outcome State Fault Refusal := run (fun y => y.netTxDone port) s

/-! ## Link (R315 to R317) -/

/-- R317: the frame on the wire is abandoned. -/
def Sys.abandonFrame (s : Sys) (p : Fin 3) : Sys :=
  match (s.port p).sending with
  | none => s
  | some _ => (s.txBack p (s.sendingDescs p) 2 0).modPort p fun q => { q with sending := none, sendCount := 0 }

/-- A link state entered; what the link had resolved ends when it leaves UP. -/
def Sys.enterLink (s : Sys) (p : Fin 3) (st : Nat) : Sys :=
  if s.linkState p = st then s
  else
    let s1 := if s.linkState p = linkUp then
        (s.abandonFrame p).modPort p fun q => { q with paused := false, xoff := false, cut := true }
      else s
    (s1.setWord (NET_LINK p.val) st).netInt p (NET_INT_LINK p.val)

/-- Negotiation starts with the abilities of NET_ADV. -/
def Sys.negotiate (s : Sys) (p : Fin 3) : Sys := (s.enterLink p linkNegotiating).modPort p fun q => { q with adv := s.word (NET_ADV p.val) }

def Sys.partnerDetected (s : Sys) (p : Fin 3) : Sys := if s.linkState p = linkDown then s.negotiate p else s

def execLinkPartnerDetected (port : Fin 3) (s : State) : Host.Outcome State Fault Refusal := run (fun y => y.partnerDetected port) s

/-- A partner without a common ability. -/
def Sys.linkNoMatch (s : Sys) (p : Fin 3) : Sys :=
  if s.linkState p = linkNegotiating then (s.enterLink p linkNomatch).netPost p 0x0D03 [] else s

def execNomatch (port : Fin 3) (s : State) : Host.Outcome State Fault Refusal := run (fun y => y.linkNoMatch port) s

/-- The resolution of pause from the two sides' PAUSE and ASMDIR (IEEE 802.3 Annex 28B): transmission and reception. -/
def pauseResolved (mine theirs : Nat) : Bool × Bool :=
  let p := mine.testBit 5
  let a := mine.testBit 6
  let q := theirs.testBit 5
  let b := theirs.testBit 6
  ((p && q) || (!p && a && q && b), (p && q) || (p && a && !q && b))

/-- The highest common speed: 3 for 1000, 2 for 100 and 1 for 10 Mbit/s, 0 for none. -/
def commonSpeed (mine theirs : Nat) : Nat :=
  if mine.testBit 2 && theirs.testBit 2 then 3 else if mine.testBit 1 && theirs.testBit 1 then 2 else if mine.testBit 0 && theirs.testBit 0 then 1 else 0

/-- Autonegotiation completes with a partner's abilities, coded as NET_ADV codes them. NET2 at another speed than 1000 Mbit/s posts
0x0F0B (R317). -/
def Sys.linkComesUp (s : Sys) (p : Fin 3) (ability : Nat) : Sys :=
  if s.linkState p != linkNegotiating then s
  else
    let mine := (s.port p).adv
    let speed := commonSpeed mine ability
    if speed = 0 then s.linkNoMatch p
    else
      let r := pauseResolved mine ability
      let s1 := (((s.enterLink p linkUp).put (NET_LINK_SPEED p.val) speed).putB (NET_LINK_PTX p.val) r.1).putB (NET_LINK_PRX p.val) r.2
      let s2 := (s1.modPort p fun q => { q with partner := ability, cut := false }).netPost p 0x0D01 [(speed, 1)]
      if p = 2 && speed != 3 then s2.note 0x0F0B else s2

def execLinkUp (port : Fin 3) (ability : Nat) (s : State) : Host.Outcome State Fault Refusal := run (fun y => y.linkComesUp port ability) s

/-- The link is lost. -/
def Sys.linkGoesDown (s : Sys) (p : Fin 3) : Sys :=
  let s1 := s.enterLink p linkDown
  if s.linkState p = linkUp then s1.netPost p 0x0D02 [] else s1

def execLinkDown (port : Fin 3) (s : State) : Host.Outcome State Fault Refusal := run (fun y => y.linkGoesDown port) s

/-- Every 2 s in NOMATCH. -/
def execAutonegRestart (port : Fin 3) (s : State) : Host.Outcome State Fault Refusal :=
  run (fun y => if y.linkState port = linkNomatch then y.negotiate port else y) s

/-- A write of RENEG. With no partner there is nothing to restart. -/
def Sys.netReneg (s : Sys) (who : Agent) (p : Fin 3) : Sys :=
  if netRefuses who p then s.netPost p 0x0D07 [] else if s.linkState p = linkDown then s else s.negotiate p

def execReneg (who : Agent) (port : Fin 3) (s : State) : Host.Outcome State Fault Refusal := run (fun y => y.netReneg who port) s

/-! ## Commands -/

/-- R325: a ring's indices set to 0, unless the ring is enabled. -/
def Sys.ringReset (s : Sys) (who : Agent) (p : Fin 3) (en head tail : Fld) : Sys :=
  if netRefuses who p then s.netPost p 0x0D07 []
  else if p = 2 then s
  else if s.on en then s.netPost p 0x0D07 []
  else (s.put head 0).put tail 0

def execTxrst (who : Agent) (port : Fin 3) (s : State) : Host.Outcome State Fault Refusal :=
  run (fun y => y.ringReset who port (NET_CTL_TXEN port.val) (NET_TXHEAD_IDX port.val) (NET_TXTAIL_IDX port.val)) s

def execRxrst (who : Agent) (port : Fin 3) (s : State) : Host.Outcome State Fault Refusal :=
  run (fun y => y.ringReset who port (NET_CTL_RXEN port.val) (NET_RXHEAD_IDX port.val) (NET_RXTAIL_IDX port.val)) s

/-- A write of NET_CTL; TXEN or RXEN is refused with 0x0D08 when its ring breaks R322. On NET2 only LOCK can be written. -/
def Sys.netCtlWrite (s : Sys) (who : Agent) (p : Fin 3) (data : Nat) : Sys :=
  if netRefuses who p then s.netPost p 0x0D07 []
  else if p = 2 then s.storeWord (NET_CTL 2) (bits data 31 1 * 2 ^ 31 + s.word (NET_CTL 2))
  else
    let badTx := data.testBit 0 && !s.on (NET_CTL_TXEN p.val) && !ringFits (s.txDesc p 0) (s.txSize p)
    let badRx := data.testBit 1 && !s.on (NET_CTL_RXEN p.val) && !ringFits (s.rxDesc p 0) (s.rxSize p)
    let v := data - (if badTx then 1 else 0) - (if badRx then 2 else 0)
    let s1 := s.storeWord (NET_CTL p.val) v
    if badTx || badRx then s1.netPost p 0x0D08 [] else s1

def execNetRingEnable (who : Agent) (port : Fin 3) (data : Nat) (s : State) : Host.Outcome State Fault Refusal :=
  run (fun y => y.netCtlWrite who port data) s

/-- A write of NET_MDIO.GO. -/
def Sys.mdioRead (s : Sys) (who : Agent) (p : Fin 3) (reg : Nat) : Sys :=
  if netRefuses who p then s.netPost p 0x0D07 [] else (s.put (NET_MDIO_REG p.val) reg).putB (NET_MDIO_BUSY p.val) true

def execMdioRead (who : Agent) (port : Fin 3) (reg : Nat) (s : State) : Host.Outcome State Fault Refusal := run (fun y => y.mdioRead who port reg) s

def execMdioReadDone (port : Fin 3) (value : Nat) (s : State) : Host.Outcome State Fault Refusal :=
  run (fun y => if y.on (NET_MDIO_BUSY port.val) then (y.put (NET_MDIO_DATA port.val) value).putB (NET_MDIO_BUSY port.val) false else y) s

/-! ## Pause (R326, R327) -/

/-- 01-80-C2-00-00-01. -/
def pauseAddress : List Nat := [0x01, 0x80, 0xC2, 0x00, 0x00, 0x01]

/-- A port's address, in the order of the wire. -/
def Sys.macBytes (s : Sys) (p : Fin 3) : List Nat := bytesLE 4 (s.word (NET_MACL p.val)) ++ bytesLE 2 (s.get (NET_MACH_ADDR p.val))

/-- Pause frames may be sent. -/
def Sys.sendsPause (s : Sys) (p : Fin 3) : Bool :=
  p != 2 && s.on (NET_LINK_PTX p.val) && s.on (NET_CTL_TXPEN p.val) && s.linkState p == linkUp

/-- A pause frame with its quanta. -/
def Sys.sendPause (s : Sys) (p : Fin 3) (quanta : Nat) : Sys :=
  (s.incSat (NET_PAUSETX_COUNT p.val)).modPort p fun q => { q with
    wire := wireFrame (pauseAddress ++ s.macBytes p ++ [0x88, 0x08, 0x00, 0x01] ++ bytesBE 2 quanta) }

/-- The receive fill has risen to XOFF. -/
def Sys.pauseXoff (s : Sys) (p : Fin 3) (fill : Nat) : Sys :=
  if s.sendsPause p && !(s.port p).xoff && 1024 * s.get (NET_PAUSE_XOFF p.val) ≤ fill then
    (s.sendPause p (s.get (NET_PAUSE_QUANTA p.val))).modPort p fun q => { q with xoff := true }
  else s

/-- Half of the quanta time since the last pause frame, with the fill still at XON or above. -/
def execPauseRepeat (port : Fin 3) (s : State) : Host.Outcome State Fault Refusal :=
  run (fun y => if y.sendsPause port && (y.port port).xoff then y.sendPause port (y.get (NET_PAUSE_QUANTA port.val)) else y) s

/-- The fill has fallen to `fill` bytes. -/
def Sys.pauseXon (s : Sys) (p : Fin 3) (fill : Nat) : Sys :=
  if (s.port p).xoff && fill < 1024 * s.get (NET_PAUSE_XON p.val) then
    (if s.sendsPause p then s.sendPause p 0 else s).modPort p fun q => { q with xoff := false }
  else s

def execPauseXon (port : Fin 3) (fill : Nat) (s : State) : Host.Outcome State Fault Refusal := run (fun y => y.pauseXon port fill) s

/-- The pause in force ends. -/
def execPauseExpired (port : Fin 3) (s : State) : Host.Outcome State Fault Refusal :=
  run (fun y => y.modPort port fun q => { q with paused := false }) s

/-- R326: a MAC control frame. -/
def Sys.macControl (s : Sys) (p : Fin 3) (f : List Nat) : Sys :=
  let toUs := f.take 6 == pauseAddress || f.take 6 == s.macBytes p
  if toUs && nth 0 f 14 == 0 && nth 0 f 15 == 1 && p != 2 && s.on (NET_LINK_PRX p.val) && s.on (NET_CTL_RXPEN p.val) then
    (s.incSat (NET_PAUSERX_COUNT p.val)).modPort p fun q => { q with paused := numBE ((f.drop 16).take 2) != 0 }
  else s.incSat (NET_CTLDROP_COUNT p.val)

/-! ## Receive (R318, R320, R321, R324) -/

/-- R321: the address filter. -/
def Sys.filterPasses (s : Sys) (p : Fin 3) (f : List Nat) : Bool :=
  let d := f.take 6
  let group := (nth 0 d 0).testBit 0
  let hash := crc32 d / 2 ^ 26
  let bit := if hash < 32 then (s.word (NET_HASHL p.val)).testBit hash else (s.word (NET_HASHH p.val)).testBit (hash - 32)
  d == s.macBytes p || s.on (NET_CTL_PROMISC p.val)
    || (if d == List.replicate 6 0xFF then s.on (NET_CTL_BCAST p.val) else group && s.on (NET_CTL_MCHASH p.val) && bit)

/-- BSZ in bytes. -/
def Sys.rxBuffer (s : Sys) (p : Fin 3) : Nat := 32 * s.get (NET_RXCFG_BSZ p.val)

/-- The address of a receive descriptor is valid. -/
def Sys.rxValid (s : Sys) (p : Fin 3) (i : Nat) : Bool := let a := s.rd (s.rxDesc p i) 4; a % 32 == 0 && bufferFits a (s.rxBuffer p)

/-- One descriptor of a delivered frame: part `k` of `n`, with the frame without FCS and TIME at its start-of-frame delimiter. -/
def Sys.rxPart (s : Sys) (p : Fin 3) (f : List Nat) (time n k : Nat) : Sys :=
  let i := (s.get (NET_RXHEAD_IDX p.val) + k) % s.rxSize p
  let a := s.rxDesc p i
  let b := (f.drop (k * s.rxBuffer p)).take (s.rxBuffer p)
  let d := f.take 6
  let bc := d == List.replicate 6 0xFF
  let ctl := b.length + (if k + 1 = n then 2 ^ 16 else 0) + (if k = 0 then 2 ^ 17 else 0) + (if isTagged f then 2 ^ 18 else 0)
    + (if bc then 2 ^ 19 else 0) + (if !bc && (nth 0 d 0).testBit 0 then 2 ^ 20 else 0)
  let s1 := s.putRow (s.rd a 4) b
  (((s1.wr (a + 4) 4 ctl).wr (a + 8) 8 time).wr (a + 16) 4 (if k + 1 = n then f.length else 0)).wr (a + 20) 4 ((s.port p).rxSeq + 1)

/-- A frame dropped for lack of descriptors. -/
def Sys.noBuffer (s : Sys) (p : Fin 3) : Sys :=
  ((s.incSat (NET_RXNOBUF_COUNT p.val)).postLimited (0x0D050000 + p.val) clocksPerSecond 0x0D05 0 [(p.val, 1)]).netInt p (NET_INT_NOBUF p.val)

/-- R324: the frame written into its descriptors, or the invalid ones given back. -/
def Sys.deliver (s : Sys) (p : Fin 3) (f : List Nat) (time : Nat) : Sys :=
  let size := s.rxSize p
  let head := s.get (NET_RXHEAD_IDX p.val)
  let n := Nat.max 1 ((f.length + s.rxBuffer p - 1) / Nat.max 1 (s.rxBuffer p))
  let free := (s.get (NET_RXTAIL_IDX p.val) + 2 * size - head) % size
  if !s.on (NET_CTL_RXEN p.val) || s.dramGap.isSome || free < n then s.noBuffer p
  else match (List.range n).find? fun k => !s.rxValid p ((head + k) % size) with
  | some bad =>
    let s1 := (List.range (bad + 1)).foldl (fun s k => s.wr (s.rxDesc p ((head + k) % size) + 4) 4 (2 ^ 24)) s
    ((s1.put (NET_RXHEAD_IDX p.val) ((head + bad + 1) % size)).incSat (NET_RXNOBUF_COUNT p.val)).netPost p 0x0D04 [(1, 1), ((head + bad) % size, 2)]
  | none =>
    let s1 := (List.range n).foldl (fun s k => s.rxPart p f time n k) s
    let s2 := (s1.modPort p fun q => { q with rxSeq := (q.rxSeq + 1) % 2 ^ 32 }).put (NET_RXHEAD_IDX p.val) ((head + n) % size)
    (s2.incSat (NET_RXOK_COUNT p.val)).netInt p (NET_INT_RXDONE p.val)

/-- A frame of the station exchange on NET2. -/
def Sys.ethToHitil (s : Sys) (f : List Nat) : Sys :=
  let h := f.drop 14
  let len := numLE ((h.drop 6).take 2)
  let src := numBE ((f.drop 6).take 6)
  let payload := (h.drop 16).take len
  let tag := if s.hit.auth then numBE ((h.drop (16 + len)).take 8) else 0
  if nth 0 h 1 = 3 then
    s.hitilInput { bus := 8, source := src, ver := nth 0 h 0, station := numLE ((h.drop 2).take 2), flags := numLE ((h.drop 4).take 2), len := len,
                   cycle := numLE ((h.drop 8).take 8), fragment := 0, words := (chunks 4 (len / 4 + 1) payload).map numLE, tag := tag }
  else if nth 0 h 1 = 4 then
    s.joinRequest { bus := 8, source := src, ver := nth 0 h 0, station := numLE ((h.drop 2).take 2), flags := numLE ((h.drop 4).take 2), len := len,
                    cycle := numLE ((h.drop 8).take 8), payload := payload, tag := tag }
  else if s.exchanging then s.incWrap HIT_FMTERR_COUNT
  else s

/-- R318: the outcome by length, with FCS: the counter of a frame that is dropped. -/
def lengthDrop (p : Fin 3) (f : List Nat) : Option Fld :=
  if f.length < 64 then some (NET_RUNT_COUNT p.val)
  else if (if isTagged f then 1522 else 1518) < f.length then some (NET_OVSZ_COUNT p.val)
  else none

/-- EtherType of a frame. -/
def etherType (f : List Nat) : Nat := numBE ((f.drop 12).take 2)

/-- R320: a frame received with TIME at its start-of-frame delimiter, checked in order; `fill` is the fill of the receive buffer that it led
to. -/
def Sys.netCheck (s0 : Sys) (p : Fin 3) (f : List Nat) (time : Nat) (error overflow : Bool) (fill : Nat) : Sys :=
  let s := s0.pauseXoff p fill
  let body := f.take (f.length - 4)
  if overflow then (s.incSat (NET_RXOVF_COUNT p.val)).postLimited (0x0D060000 + p.val) clocksPerSecond 0x0D06 0 [(p.val, 1)]
  else match lengthDrop p f with
  | some c => s.incSat c
  | none =>
    if error then s.incSat (NET_RXERR_COUNT p.val)
    else if etherType f = 0x8808 then s.macControl p f
    else if !s.filterPasses p f then s.incSat (NET_FILT_COUNT p.val)
    else if p = 2 then
      if isTagged f || etherType f != s.get HIT_ETYPE_ETYPE then s.incSat (NET_FOREIGN_COUNT 2)
      else ((s.incSat (NET_RXOK_COUNT 2)).netInt 2 (NET_INT_RXDONE 2)).ethToHitil body
    else s.deliver p body time

/-- A frame arrives, `clocks` fabric clocks after its start-of-frame delimiter. One that was being received when the link left UP is the first
frame given after that: R317 discards it, under row 3 of R320. A port receives no other frame while its link is not UP. -/
def Sys.netReceive (s : Sys) (p : Fin 3) (f : List Nat) (error overflow : Bool) (fill clocks : Nat) : Sys :=
  if s.linkState p == linkUp then (s.elapse clocks).netCheck p f s.ang.time error overflow fill
  else if (s.port p).cut then
    ((s.elapse clocks).modPort p fun q => { q with cut := false }).netCheck p f s.ang.time true overflow fill
  else s

def execNetFrameReceived (port : Fin 3) (frame : EthInput) (error overflow : Bool) (fill : Nat) (s : State) :
    Host.Outcome State Fault Refusal :=
  run (fun y => y.netReceive port frame.bytes error overflow fill frame.clocks) s

end Sys2Proof.Machine
end

