-- ==== Sys2Proof/Machine/Reset.lean ====
section
/-!
DEFINITION. Resets (R385, spec/14_clocks_power_reset.md; R455, R456, spec/17_startup_and_image_update.md): what a module reset keeps,
the loading of lanes, fabric and stations from the set in use (R70), the retentive values brought back with their migration
(R121, R457), and the control-plane restart.
-/
namespace Sys2Proof.Machine

/-! ## The module reset (R385) -/

/-- The registers of the cellar and the fuse mirrors, which a module reset leaves. -/
def cellarRegs : List Nat :=
  [RTC_WDAY, RTC_ALMS, RTC_ALMR, RTC_ALMST, RTC_ALMLAST, RTC_ALMNEXT, RTC_PER, RTC_INT, RTC_TCT, RTC_TCK, CEL_TAMP, CEL_INTEG,
   SYS_ID, SYS_UIDL, SYS_UIDH, SYS_FUSE, SYS_KEPOCH, SYS_VFLOOR] ++ (List.range 8).map CEL_SCR

/-- The fields kept of registers that are otherwise reset: the cellar's and the live state of pins and supplies. -/
def cellarFields : List Fld :=
  [RTC_CTL_TCEN, RTC_STAT_VALID, RTC_STAT_ADJCNT, CEL_STAT_SRC, KEY_STAT_TLIVE, PWR_VMON_PFW]

/-- The strap pins as they read at a release of a module reset (R489). -/
def Sys.readStraps (s : Sys) : Sys :=
  let s1 := s.put CLK_STAT_OSCDLY s.strap.oscdly
  if s.strap.mains60 then ((s1.put ANG_CTL_NOM 1).setWord ANG_FREQ 0x3C0000).setWord ANG_FGOOD 0x3C0000 else s1

/-- What a module reset leaves of the power block. -/
def Power.afterReset (p : Power) (cause : Nat) (hold : Bool) : Power :=
  { Sys.zero.pwr with
    inReset := hold, cause := cause, pfwLow := p.pfwLow || hold, perstHigh := p.perstHigh, postAtStart := p.postAtStart }

/-- R385: a module reset with a cause; `hold` says that it holds until the power-on release. The cellar, the loft and the host's memory
stay, and a write on its way into the cellar is lost. -/
def Sys.moduleReset (s : Sys) (cause : Nat) (hold : Bool) : Sys :=
  let z := { Sys.zero with
    regs := s.regs.filter fun c => cellarRegs.contains c.1
    mem := srange s.mem 0x30000000 0x30F00000
    hostMem := s.hostMem
    fclk := s.fclk, lfxo := s.lfxo, draws := s.draws, signals := s.signals
    loft := s.loft, strap := s.strap
    rtc := { s.rtc with write := none, shift := none, lastAdj := 0 }
    mi := { Sys.zero.mi with sectors := s.mi.sectors, sectorsUsed := s.mi.sectorsUsed }
    pwr := s.pwr.afterReset cause hold }
  (cellarFields.foldl (fun z f => z.put f (s.get f)) z).readStraps

/-- A code that the next start posts (R472). -/
def Sys.postNext (s : Sys) (code data : Nat) : Sys := { s with pwr := { s.pwr with postAtStart := s.pwr.postAtStart ++ [(code, data)] } }

/-! ## Loading (R70, R439) -/

/-- The parts of a set loaded into a lane (R439): runtime, logic, loop directory and trace records, metering image. -/
def Sys.holdSet (s : Sys) (part : Nat → Nat × Nat) (n : Fin 4) : Sys :=
  let rt := part partRuntime
  let lg := part partLogic
  let lp := part partLoop
  let mt := part partMeter
  let m1 := memCopy s.mem (laneBase n) rt.1 (Nat.min rt.2 0x80000)
  let m2 := memCopy m1 (laneBase n + logicBase) lg.1 (Nat.min lg.2 0x100000)
  let m3 := memCopy m2 (laneBase n + 0x592000) (lp.1 + 0x40) 0x10000
  let m4 := memCopy m3 (laneBase n + 0x5A2000) (lp.1 + 0x10040) 0x200
  { s with mem := memCopy m4 (laneBase n + 0x5A4000) mt.1 (Nat.min mt.2 0x10000) }

/-- The set as the first cycle will hold it without retentive values: lane 0 of a part that has taken it, its variable image set from
the initial value table over zeros, under the pending CYC_CHGMAX. It is read by the checks and then forgotten. -/
def Sys.asHeld (s : Sys) (part : Nat → Nat × Nat) : Sys :=
  let x := s.holdSet part 0
  let b := laneBase 0
  let y := { x with mem := memZero x.mem (b + masterBase) 0x100000, prog := { x.prog with chgmax := s.get CYC_CHGMAX_MAX } }
  (y.initTable 0).foldl (fun z r => { z with mem := memCopy z.mem (b + masterBase + r.1) (b + logicBase + r.2.2) r.2.1 }) y

/-- The parts of the set in use put into a lane. -/
def Sys.loadParts (s : Sys) (n : Fin 4) : Sys := s.holdSet s.sourcePart n

/-- The lanes that are not retired, in ascending number. -/
def Sys.liveLanes (s : Sys) : List (Fin 4) := allLanes.filter fun n => s.laneState n != laneRetired

/-- A lane reset and loaded. -/
def Sys.loadWhole (s : Sys) (n : Fin 4) : Sys :=
  (((s.setLane n Lane.zero).scrubLane n).loadParts n).putBit PWR_DOM_UP (2 + n.val) true

/-- R70: the three lowest live lanes are loaded and vote from the first cycle on; a fourth is loaded and SHELVED, its clock gated. -/
def Sys.startLanes (s : Sys) : Sys :=
  let live := s.liveLanes
  let s1 := live.foldl (fun s n => (s.loadWhole n).setLaneState n laneReset) s
  let s2 := (live.take 3).foldl (fun s n => s.putBit CLK_GATE_LANE n.val true) s1
  let s3 := (live.drop 3).foldl (fun s n => (s.setLaneState n laneShelved).putBit CLK_GATE_LANE n.val false) s2
  { s3 with vot := { s3.vot with ready := live.take 3, waiting := [], shelfQueue := [], reint := none } }

/-- The structure image of the set in use, from offset 0. -/
def Sys.sourceStruct (s : Sys) : List Host.Cell := imageOf s.mem (s.sourcePart partStruct).1 (s.sourcePart partStruct).2

/-- Fabric, point mirror, station exchange and CAN segments configured from a structure image (R24, R237, R258, R292). -/
def Sys.loadStructure (s : Sys) (new : List Host.Cell) : Sys :=
  let old := s.image
  let s0 := s.loadFabric new
  let s1 := ((if s0.dramGap.isNone then s0.mirrorUnmarked else s0).loadStations old new).loadCan
  if s1.get FAB_STAT_STATE = fabOff then s1.put FAB_STAT_STATE fabRun else s1

/-- The nominal voltages that the metering image of the set in use configures (R45). -/
def Sys.loadNominals (s : Sys) : Sys :=
  let c := (s.asHeld s.sourcePart).laneMeter 0
  { s with fe := { s.fe with unom := c.unom, delays := c.delay.take 6 } }

/-- RS of the logic image that a lane holds (R114): every charge but those of task sections and initialisation. -/
def Sys.reserve (s : Sys) (n : Fin 4) : Nat :=
  1024 + granules (s.laneMeter n).snapLen + 16 * s.prog.chgmax + 150 * (s.slotsUsed n).length + s.publishCharge n + granules (retBytes (s.retRanges n)) + 64

/-- B and PA of the set in force (CYC_BUDG, CYC_PALW), its SETID, and its loop slots with their charge (R170). -/
def Sys.adoptSet (s : Sys) : Sys :=
  let x := { s.asHeld s.sourcePart with prog := s.prog }
  let b := x.logic 0 0x10
  let pa := b - x.reserve 0
  let k := (x.slotsUsed 0).length
  let s1 := (((s.setWord CYC_BUDG b).setWord CYC_PALW pa).setWord UPD_SETID (s.rd (s.sourceManifest + 0x24) 4)).put LOOP_CFG_CFG k |>.setWord LOOP_CHG (150 * k)
  { s1 with prog := { s1.prog with active := true, budget := b, allowance := pa } }

/-! ## Retentive values (R121, R457) -/

/-- A number from the first bytes of a row. -/
def leNat (bs : List Nat) : Nat := bs.foldr (fun b acc => b % 256 + 256 * acc) 0

/-- Retentive data of an earlier set: RETVER, the 2 KiB of the range table, the data. -/
structure Retained where
  retver : Nat
  table : List Nat
  data : List Nat
deriving DecidableEq, Repr

/-- The newest complete save of the loft. -/
def Sys.retained (s : Sys) : Option Retained :=
  s.retNewest.map fun k =>
    ⟨s.loftRd (retSlot k) 4, s.loftBytes (retSlot k + 0x20) 2048, s.loftBytes (retSlot k + 0x1000) (s.loftRd (retSlot k + 4) 4)⟩

/-- A lane's range table as a slot holds it. -/
def Sys.laneTable (s : Sys) (n : Fin 4) : List Nat :=
  let t := memBytes s.mem (laneBase n + logicBase + s.logic n 0x30) (8 * s.logic n 0x34)
  t ++ List.replicate (2048 - t.length) 0

/-- The retentive values that a lane's variable image holds, under its logic image. -/
def Sys.laneRetained (s : Sys) (n : Fin 4) : Retained :=
  ⟨s.logic n 0x3C, s.laneTable n, ((s.retRanges n).map fun r => memBytes s.mem (laneBase n + masterBase + r.1) r.2).flatten⟩

/-- Where a byte of the variable image lies in the concatenated ranges, if `len` bytes from it lie in one range. -/
def placeIn : List (Nat × Nat) → Nat → Nat → Nat → Option Nat
  | [], _, _, _ => none
  | r :: rs, base, ofs, len => if r.1 ≤ ofs && ofs + len ≤ r.1 + r.2 then some (base + ofs - r.1) else placeIn rs (base + r.2) ofs len

/-- A word converted (R457); a conversion that the table does not list gives an open value. -/
def Sys.convertWord (s : Sys) (conv w : Nat) : Nat × Sys :=
  if conv = 0 then (w, s)
  else if conv = 1 then (unsint 32 (sint 16 w), s)
  else if conv = 2 then ((aluCvt 0 1 (extend 1 w)).res % 2 ^ 32, s)
  else if conv = 3 then ((aluCvt 2 1 (extend 1 w)).res % 2 ^ 32, s)
  else if conv = 4 then ((aluCvt 1 2 w).res % 2 ^ 32, s)
  else (s.draw.1 % 2 ^ 32, s.draw.2)

/-- The restore area of a lane. -/
abbrev restoreArea : Nat := 0x551000

/-- An entry of a migration map applied to the restore area of a lane (R457). -/
def Sys.mapEntry (n : Fin 4) (old : Retained) (map : Nat) (s : Sys) (i : Nat) : Sys :=
  let a := map + 0x20 + 16 * i
  let from_ := s.rd a 4
  let len := s.rd (a + 8) 4
  match placeIn (s.retRanges n) 0 (s.rd (a + 4) 4) len with
  | none => s
  | some at_ =>
    if old.data.length < from_ + len then s
    else (List.range (len / 4)).foldl (fun s k =>
      let c := s.convertWord (s.rd (a + 12) 4) (leNat ((old.data.drop (from_ + 4 * k)).take 4))
      c.2.wr (laneBase n + restoreArea + at_ + 4 * k) 4 c.1) s

/-- The part of a run of the initial value table that falls into a range, put into the restore area (R457). -/
def Sys.initialInto (n : Fin 4) (run : Nat × Nat × Nat) (s : Sys) (place : Nat × Nat × Nat) : Sys :=
  let lo := Nat.max run.1 place.1
  let hi := Nat.min (run.1 + run.2.1) (place.1 + place.2.1)
  if hi ≤ lo then s
  else { s with mem := memCopy s.mem (laneBase n + restoreArea + place.2.2 + (lo - place.1)) (laneBase n + logicBase + run.2.2 + (lo - run.1)) (hi - lo) }

/-- The ranges with where each begins in the concatenated data. -/
def placed : List (Nat × Nat) → Nat → List (Nat × Nat × Nat)
  | [], _ => []
  | r :: rs, base => (r.1, r.2, base) :: placed rs (base + r.2)

/-- The new ranges at their initial values in the restore area. -/
def Sys.initialArea (s : Sys) (n : Fin 4) : Sys :=
  let s1 := { s with mem := memZero s.mem (laneBase n + restoreArea) 0x41000 }
  (s1.initTable n).foldl (fun s run => (placed (s.retRanges n) 0).foldl (Sys.initialInto n run) s) s1

/-- The restore area of one lane copied to others. -/
def Sys.spreadArea (s : Sys) (n : Fin 4) (ns : List (Fin 4)) : Sys :=
  (ns.filter fun m => m != n).foldl (fun s m => { s with mem := memCopy s.mem (laneBase m + restoreArea) (laneBase n + restoreArea) 0x41000 }) s

/-- R121, R457: the restore data of old values built under the logic image that the lanes `ns` now hold, and put into each of them. -/
def Sys.restoreFrom (s : Sys) (old : Retained) (ns : List (Fin 4)) : Sys :=
  match ns with
  | [] => s
  | n :: _ =>
    let map := s.sourcePart partRetmap
    let give := fun (s : Sys) => { s.spreadArea n ns with upd := { s.upd with restore := true } }
    if old.retver = s.logic n 0x3C && old.table = s.laneTable n then
      give { s with mem := memPutBytes (memZero s.mem (laneBase n + restoreArea) 0x41000) (laneBase n + restoreArea) old.data }
    else
      let s1 := s.note 0x130A
      if map.2 != 0 && s.rd (map.1 + 4) 4 == old.retver then
        give ((List.range (s.rd (map.1 + 8) 4)).foldl (Sys.mapEntry n old map.1) (s1.initialArea n))
      else s1.note 0x0815

/-- R121: the values of the loft brought back into the lanes `ns`. -/
def Sys.restoreRetentive (s : Sys) (ns : List (Fin 4)) : Sys :=
  let s1 := { s with upd := { s.upd with restore := false } }
  match s1.retained with
  | some old => s1.restoreFrom old ns
  | none => s1.note 0x130B

/-! ## The first cycle after a load -/

/-- The first cycle of the grid whose PHG follows the present instant (R451, R455). -/
def Sys.cycleAfter (s : Sys) : Nat :=
  if s.ang.time < s.ang.corg + s.ang.phg then 0 else (s.ang.time - s.ang.corg - s.ang.phg) / s.cycleLen + 1

/-- Cycles go on from cycle `n` of the grid, which is the first of its set. -/
def Sys.resumeAt (s : Sys) (n : Nat) : Sys :=
  { s with ang := { s.ang with cycle := n, start := s.ang.corg + n * s.cycleLen, first := true, begun := false } }

/-! ## The control-plane restart (R85, R455, R456) -/

/-- Step 1: an energy save of kind 1 from a lane in AGREE. -/
def Sys.saveBefore (s : Sys) : Sys :=
  match s.energyLane with
  | some n => s.saveEnergy n snapBase 1
  | none => s

/-- Step 2: the CTL domain and every lane that is not retired are reset; every local output is released. That leaves no lane in VOTING, so
the return to normal is reported (R96), and a flush that waits for lanes ends without its vote. -/
def Sys.controlReset (s : Sys) : Sys :=
  let s1 := s.releaseAll.setWord VOT_STAT 0x00020003
  let s2 := s1.liveLanes.foldl (fun s n => ((s.setLaneState n laneReset).put (VOT_LSTAT_DONOR n.val) 0).setLane n Lane.zero) s1
  let s3 := s2.put HIT_CTL_RUN 0
  { s3 with
    vot := { Sys.zero.vot with burns := s3.vot.burns, owed := s.vot.owed || s.get VOT_STAT_MODE != 3 }
    fe := { s3.fe with flushing := s3.fe.flushing && !s3.vot.flushDue }
    col := Sys.zero.col
    chg := { s3.chg with queue := [], batch := [], batches := Vector.replicate 4 [] }
    prog := { s3.prog with snapCycle := none }
    hit := { s3.hit with sent := [], backlog := [] } }

/-- Steps 3 and 4: fabric, stations and lanes loaded, values restored, the exchange started, and the grid taken up again. -/
def Sys.controlReload (s : Sys) (temp : Int) : Sys :=
  let s1 := ({ s with upd := { s.upd with cold := false } }.loadStructure s.sourceStruct).startLanes.adoptSet
  let live := s1.liveLanes
  let s2 := ((s1.loadNominals.restoreRetentive live).restoreEnergy live).applyTable 3 temp
  let s3 := s2.hitRunSet
  if s3.ang.requested then s3.resumeAt s3.cycleAfter else s3

/-- An activation that has not reached the end of the larder copy fails (R453): the reload source is the larder again. -/
def Sys.failActivation (s : Sys) (cause : Nat) : Sys :=
  let s1 := ((s.post 0x080B 0 [(cause, 1)]).put UPD_STAT_PANTRY pantryFailed).put UPD_STAT_SRC 0
  { s1.put UPD_STAT_STATE updRun with upd := { s1.upd with
      activating := false, loaded := false, announce := false, copying := false, result := if s1.upd.running = some 4 then 0x080B else s1.upd.result } }

/-- R455, or R456 while the DRAM has failed: control stops for good. -/
def Sys.controlRestart (s : Sys) (temp : Int) : Sys :=
  let s1 := s.saveBefore
  if s1.get MEM_STAT_DRAM = dramFailed then
    if s1.pwr.stopped then s1
    else
      let s2 := ((s1.controlReset.frontEndStop.sidebands 1 true).putBit PWR_DOM_UP 1 false).note 0x1215
      let s3 := s2.liveLanes.foldl (fun s n => s.putBit PWR_DOM_UP (2 + n.val) false) s2
      { s3 with pwr := { s3.pwr with stopped := true }, ang := { s3.ang with first := false } }
  else
    let s2 := if s1.on UPD_STAT_SRC || s1.upd.activating then s1.failActivation 2 else s1
    (((s2.controlReset.sidebands 1 true).sidebands 1 false).putBit PWR_DOM_UP 1 true).controlReload temp

end Sys2Proof.Machine
end

