-- ==== Sys2Proof/Machine/Recorder.lean ====
section
/-!
DEFINITION. The event recorder (R470 to R480), the fault controller (R466 to R469), the management watchdog (R462), the sensors
(R463, R464) and the host's commands to the firmware (R465); spec/18_management_and_event_recorder.md.
-/
namespace Sys2Proof.Machine

/-! ## Places and records (R470, R473, R475) -/

/-- A slot of the ring, of the log. -/
def ringSlot (k : Nat) : Nat := 0x100F0000 + 32 * k
def logSlot (k : Nat) : Nat := 0x30B00000 + 32 * k

/-- The counts that the recorder shows: unflushed records and records in the log. -/
def Sys.showRecorder (s : Sys) : Sys :=
  (s.put EVR_STAT_UNFL (s.evr.ring.filter fun r => !r.flushed).length).put EVR_LCNT_COUNT s.evr.log.length

/-- A slot entered in an index that rises by slot. -/
def putSlot (r : RecSlot) : List RecSlot → List RecSlot
  | [] => [r]
  | x :: xs => if r.slot < x.slot then r :: x :: xs else if r.slot = x.slot then r :: xs else x :: putSlot r xs

/-- The lowest slot from `k` on that an index does not list. -/
def firstFree (k : Nat) : List RecSlot → Nat
  | [] => k
  | x :: xs => if x.slot = k then firstFree (k + 1) xs else k

/-- The victim of R475: the oldest record of the lowest severity. -/
def victimOf : List RecSlot → Option RecSlot
  | [] => none
  | x :: xs =>
    match victimOf xs with
    | none => some x
    | some y => if x.sev < y.sev || (x.sev == y.sev && x.order < y.order) then some x else some y

/-- A record counted as lost for its locker (R479). -/
def Sys.countLost (s : Sys) (locker : Nat) : Sys :=
  { s with evr := { s.evr with lost := putKey s.evr.lost locker (lookupD 0 s.evr.lost locker + 1) } }

/-- A record removed from the log, or dropped at it, raises the high-water numbers (R477). -/
def Sys.gone (s : Sys) (r : RecSlot) : Sys :=
  { s with loft := { s.loft with
      highSeq := Nat.max s.loft.highSeq r.seq
      highLseq := putKey s.loft.highLseq r.locker (Nat.max (lookupD s.loft.highAll s.loft.highLseq r.locker) r.lseq) } }

/-! ## Starting a flush (R474) -/

/-- A flush is asked for: it starts at once, or waits for READY and for a clear to end. -/
def Sys.askFlush (s : Sys) : Sys :=
  if s.on EVR_STAT_FLUSHING then s
  else if s.on EVR_STAT_READY && !s.on EVR_STAT_CLEARING then
    { s.put EVR_STAT_FLUSHING 1 with evr := { s.evr with flushWaits := false } }
  else { s with evr := { s.evr with flushWaits := true } }

/-- A flush that waited starts when nothing holds it any more. -/
def Sys.releaseFlush (s : Sys) : Sys := if s.evr.flushWaits then s.askFlush else s

/-! ## The fault controller (R466 to R469) -/

/-- The handling level: the highest severity entered since the clear. -/
def Sys.faultLevel (s : Sys) : Nat :=
  if s.on SYS_FSTAT_FIRSTV then Nat.max (s.get SYS_FFIRST_SEV) (s.get SYS_FSTAT_HSEV) else 0

/-- A slot's word: code, severity, locker. -/
def slotWord (code sev locker : Nat) : Nat := code + sev * 2 ^ 16 + locker * 2 ^ 18

/-- The first-fault slot, or the next-fault slot with COUNT and HSEV. -/
def Sys.enterSlot (s : Sys) (r : RecSlot) (code : Nat) : Sys :=
  if s.on SYS_FSTAT_FIRSTV then
    let s1 := (((s.setWord SYS_FNEXT (slotWord code r.sev r.locker)).setWord SYS_FNSEQ (if r.numbered then r.seq else 0)).put SYS_FSTAT_NEXTV 1).incSat SYS_FSTAT_COUNT
    { s1.put SYS_FSTAT_HSEV (Nat.max (s1.get SYS_FSTAT_HSEV) r.sev) with evr := { s1.evr with nextAt := r.order } }
  else
    let s1 := ((s.setWord SYS_FFIRST (slotWord code r.sev r.locker)).setWord SYS_FFSEQ (if r.numbered then r.seq else 0)).put SYS_FSTAT_FIRSTV 1
    { s1 with evr := { s1.evr with firstAt := r.order } }

/-- The actions of the handling levels; at the third critical fault HOLD. -/
def Sys.handle (s : Sys) (sev : Nat) : Sys :=
  let s1 := s.signal MGT_FINT_FAULT (s.on MGT_FINTEN_FAULT) 14
  if sev < 3 then s1
  else
    let s2 := { s1 with pwr := { s1.pwr with faultLow := true } }.askFlush
    if 3 ≤ s2.get SYS_FSTAT_CRIT then s2.put SYS_FSTAT_HOLD 1 else s2

/-- R466: a fault enters; while HOLD is set none does (R469). -/
def Sys.enterFault (s : Sys) (r : RecSlot) (code : Nat) : Sys :=
  if r.sev < 2 || s.on SYS_FSTAT_HOLD then s
  else
    let was := s.faultLevel
    let s1 := s.enterSlot r code
    let s2 := if 2 ≤ was && was < r.sev then s1.put SYS_FSTAT_ESC 1 else s1
    Sys.handle (if r.sev = 3 then s2.incSat SYS_FSTAT_CRIT else s2) r.sev

/-- R468: the slots cleared and FAULT_N released. -/
def Sys.clearFaults (s : Sys) : Sys :=
  let s1 := [SYS_FSTAT, SYS_FFIRST, SYS_FFSEQ, SYS_FNEXT, SYS_FNSEQ].foldl (fun s a => s.setWord a 0) s
  { s1 with pwr := { s1.pwr with faultLow := false }, evr := { s1.evr with firstAt := 0, nextAt := 0 } }

/-! ## Acceptance (R472, R473) -/

/-- The ring's next slot: the first one, from where it stands, that holds no unflushed record. -/
def Sys.ringNext (s : Sys) : Option Nat :=
  ((List.range 2048).map fun i => (s.evr.ringAt + i) % 2048).find? fun k => !(s.evr.ring.any fun r => r.slot == k && !r.flushed)

/-- The 32 bytes of a record written into a slot of the ring. -/
def Sys.writeRecord (s : Sys) (r : RecSlot) (p : Post) : Sys :=
  let a := ringSlot r.slot
  let head := slotWord p.code r.sev p.locker + (if s.on RTC_STAT_VALID then 2 ^ 28 else 0)
  (((((s.wr a 4 r.seq).wr (a + 4) 4 r.lseq).wr (a + 8) 4 head).wr (a + 12) 4 s.rtc.sec).wr (a + 16) 8 s.ang.time).wr (a + 24) 8 p.data

/-- The record of a post, numbered once READY is set; before that its numbers are open. -/
def Sys.numberPost (s : Sys) (p : Post) : RecSlot × Sys :=
  let lk := p.locker % 1024
  let order := s.evr.order + 1
  if s.on EVR_STAT_READY then
    let seq := s.evr.nextSeq
    let lseq := lookupD s.evr.nextAll s.evr.nextLseq lk
    (⟨0, seq, lseq, lk, sevOf p.code, true, false, order⟩,
      { s.setWord EVR_SEQ seq with evr := { s.evr with nextSeq := seq + 1, nextLseq := putKey s.evr.nextLseq lk (lseq + 1), order := order } })
  else
    let d := s.draw
    let e := d.2.draw
    (⟨0, d.1 % 2 ^ 32, e.1 % 2 ^ 32, lk, sevOf p.code, false, false, order⟩, { e.2 with evr := { e.2.evr with order := order } })

/-- A ring record is lost, or the record that found no slot. -/
def Sys.ringLost (s : Sys) (r : RecSlot) : Sys :=
  let s1 := (s.incSat EVR_RLOST_COUNT).countLost r.locker
  s1.postLimited 0x0902 clocksPerSecond 0x0902 0 [count32 (s1.get EVR_RLOST_COUNT)]

/-- The record put into the ring. -/
def Sys.intoRing (s : Sys) (r : RecSlot) (p : Post) : Sys :=
  match s.ringNext with
  | some k =>
    let q := { r with slot := k }
    { s.writeRecord q p with evr := { s.evr with ring := putSlot q s.evr.ring, ringAt := (k + 1) % 2048 } }
  | none =>
    match victimOf s.evr.ring with
    | some v =>
      if v.sev ≤ r.sev then
        let q := { r with slot := v.slot }
        ({ s.writeRecord q p with evr := { s.evr with ring := putSlot q s.evr.ring } }).ringLost v
      else s.ringLost r
    | none => s

/-- A post accepted. -/
def Sys.acceptPost (s : Sys) (p : Post) : Sys :=
  let n := s.numberPost p
  let s1 := (n.2.intoRing n.1 p).showRecorder
  let s2 := if s1.get EVR_INTEN_ISEV ≤ n.1.sev then s1.signal EVR_INT_EVT (s1.on EVR_INTEN_EN) 13 else s1
  let s3 := s2.enterFault n.1 p.code
  if s3.get EVR_FCFG_MARK ≤ s3.get EVR_STAT_UNFL then s3.askFlush else s3

/-- Of the first `k` posts, presented on one clock, the one of the lowest requester: its place in the queue. -/
def lowestPost (ps : List Post) (k : Nat) : Nat :=
  ((List.range (Nat.min k ps.length)).foldl (fun best i =>
    match ps[i]?, ps[best]? with
    | some a, some b => if a.req < b.req then i else best
    | _, _ => best) 0)

/-- R472: one record is accepted; of the posts presented together, the lowest requester's. -/
def Sys.eventAccept (s : Sys) (together : Nat) : Sys :=
  let i := lowestPost s.posts (Nat.max together 1)
  match s.posts[i]? with
  | none => s
  | some p =>
    let s1 := { s with posts := s.posts.eraseIdx i }
    if s.domUp 0 then s1.acceptPost p else s1

def execEventAccept (together : Nat) (s : State) : Host.Outcome State Fault Refusal := run (fun y => y.eventAccept together) s

/-- R469: 10 ms after HOLD, or at the flush's end, the module resets with cause 6. -/
def Sys.holdReset (s : Sys) : Sys := if s.on SYS_FSTAT_HOLD then (s.postNext 0x0101 0).moduleReset 6 false else s

def execHoldTimeout (s : State) : Host.Outcome State Fault Refusal := run Sys.holdReset s

/-! ## Flushing (R474, R475) -/

/-- A record written into the log, where SEQ is its age. -/
def Sys.intoLog (s : Sys) (r : RecSlot) : Sys :=
  let put := fun (s : Sys) (k : Nat) =>
    { s.loftCopy (logSlot k - loftBase) (ringSlot r.slot) 32 with
      evr := { s.evr with log := putSlot { r with slot := k, flushed := true, order := r.seq } s.evr.log } }
  let k := firstFree 0 s.evr.log
  if k < 131072 then put s k
  else match victimOf s.evr.log with
    | some v =>
      if v.sev ≤ r.sev then (((put s v.slot).countLost v.locker).gone v).postLimited 0x0904 (3600 * clocksPerSecond) 0x0904 0 []
      else ((s.incSat EVR_LLOST_COUNT).countLost r.locker).gone r
    | none => s

/-- A record of the ring flushed. -/
def Sys.flushRecord (s : Sys) (r : RecSlot) : Sys :=
  let s1 := s.intoLog r
  { s1.setWord EVR_FSEQ (Nat.max (s1.word EVR_FSEQ) r.seq) with evr := { s1.evr with ring := putSlot { r with flushed := true } s1.evr.ring } }

/-- A record put in its place by SEQ. -/
def bySeq (r : RecSlot) : List RecSlot → List RecSlot
  | [] => [r]
  | x :: xs => if r.seq < x.seq then r :: x :: xs else x :: bySeq r xs

/-- Every numbered unflushed record written to the log in SEQ order. -/
def Sys.flushAll (s : Sys) : Sys :=
  (((s.evr.ring.filter fun r => r.numbered && !r.flushed).foldr bySeq []).foldl Sys.flushRecord s).showRecorder

/-- A flush writes records now: not before READY, not during a clear, and after a warning not before the energy slot of R234 is
written. -/
def Sys.flushRuns (s : Sys) : Bool :=
  s.on EVR_STAT_FLUSHING && s.on EVR_STAT_READY && !s.on EVR_STAT_CLEARING && !(s.pfw && s.fe.flushing && s.loft.flushMarker != 1)

/-- R474: a flush, which a command starts if none runs. -/
def Sys.ringFlush (s0 : Sys) : Sys := let s := s0.askFlush; if s.flushRuns then s.flushAll else s

def execRingFlush (s : State) : Host.Outcome State Fault Refusal := run Sys.ringFlush s

def execFlushInterval (s : State) : Host.Outcome State Fault Refusal := run Sys.askFlush s

/-- The marker of R234 once the ring is in the log; a warning that has cleared lets metering go on (R235). -/
def Sys.completeFlush (s : Sys) : Sys :=
  if s.fe.flushing && s.loft.flushMarker == 1 then
    let s1 := { s with loft := { s.loft with flushMarker := 2 }, fe := { s.fe with flushing := false } }
    if s1.pfw then s1 else s1.resumeMetering
  else s

/-- A flush ends with what was accepted while it ran. -/
def Sys.ringFlushDone (s : Sys) : Sys := if s.flushRuns then (s.flushAll.put EVR_STAT_FLUSHING 0).completeFlush.holdReset else s

def execRingFlushDone (s : State) : Host.Outcome State Fault Refusal := run Sys.ringFlushDone s

/-! ## The scan (R477) -/

/-- The slots of the log that hold a byte other than 0, ascending. -/
def Sys.logTouched (s : Sys) : List Nat :=
  ((srange s.mem (logSlot 0) (logSlot 131072)).map fun c => (c.1 - logSlot 0) / 32).foldl (fun acc k => insertAsc k acc) []

/-- The index of the log rebuilt from its records. -/
def Sys.scanLog (s : Sys) : List RecSlot :=
  (s.logTouched.filter fun k => s.rd (logSlot k) 4 != 0).map fun k =>
    let h := s.rd (logSlot k + 8) 4
    ⟨k, s.rd (logSlot k) 4, s.rd (logSlot k + 4) 4, bits h 18 10, bits h 16 2, true, true, s.rd (logSlot k) 4⟩

/-- The highest of a list. -/
def highest0 (xs : List Nat) : Nat := xs.foldl Nat.max 0

/-- The next LSEQ of a locker: above its records and its high-water number. -/
def Sys.lseqAfter (s : Sys) (log : List RecSlot) (locker : Nat) : Nat :=
  Nat.max (highest0 ((log.filter fun r => r.locker == locker).map fun r => r.lseq)) (lookupD s.loft.highAll s.loft.highLseq locker) + 2049

/-- The numbers set, with the high-water numbers that a next start needs. -/
def Sys.setNumbers (s : Sys) (log : List RecSlot) : Sys :=
  let seq := Nat.max (highest0 (log.map fun r => r.seq)) s.loft.highSeq + 2049
  let lockers := (log.map fun r => r.locker).foldl (fun acc k => insertAsc k acc) (s.loft.highLseq.foldl (fun acc k => insertAsc k.1 acc) [])
  let next := lockers.map fun k => (k, s.lseqAfter log k)
  { s with
    evr := { s.evr with log := log, nextSeq := seq, nextLseq := next, nextAll := s.loft.highAll + 2049 }
    loft := { s.loft with highSeq := seq - 1, highLseq := next.map fun x => (x.1, x.2 - 1), highAll := s.loft.highAll + 2048 } }

/-- A waiting record numbered, with the SEQ of the fault slot that holds it. -/
def Sys.numberWaiting (s : Sys) (r : RecSlot) : Sys :=
  let seq := s.evr.nextSeq
  let lseq := lookupD s.evr.nextAll s.evr.nextLseq r.locker
  let s1 := ((s.wr (ringSlot r.slot) 4 seq).wr (ringSlot r.slot + 4) 4 lseq).setWord EVR_SEQ seq
  let s2 := if s1.evr.firstAt = r.order then s1.setWord SYS_FFSEQ seq else s1
  let s3 := if s2.evr.nextAt = r.order then s2.setWord SYS_FNSEQ seq else s2
  { s3 with evr := { s3.evr with
      nextSeq := seq + 1, nextLseq := putKey s3.evr.nextLseq r.locker (lseq + 1)
      ring := putSlot { r with seq := seq, lseq := lseq, numbered := true } s3.evr.ring } }

/-- A record put in its place by acceptance. -/
def byOrder (r : RecSlot) : List RecSlot → List RecSlot
  | [] => [r]
  | x :: xs => if r.order < x.order then r :: x :: xs else x :: byOrder r xs

/-- R429: sources fired in the dark, so 0x0710 is posted with the latched ones. -/
def Sys.postDark (s : Sys) : Sys :=
  let s1 := if s.rtc.dark = 0 then s else s.post 0x0710 0 [(s.get CEL_TAMP_SRC, 1)]
  { s1 with rtc := { s1.rtc with dark := 0 } }

/-- What is posted "at the next start" (R472), and 0x0710 for sources that fired in the dark (R429). -/
def Sys.postsOfStart (s : Sys) : Sys :=
  let s1 := s.pwr.postAtStart.foldl (fun s c => s.postBy 8 c.1 0 c.2) s
  { s1.postDark with pwr := { s1.pwr with postAtStart := [] } }

/-- R477: the scan ends. -/
def Sys.logScanDone (s : Sys) : Sys :=
  if !s.on UPD_STAT_FW || s.on EVR_STAT_READY then s
  else
    let log := s.scanLog
    let s1 := s.setNumbers log
    let s2 := ((s1.evr.ring.filter fun r => !r.numbered).foldr byOrder []).foldl Sys.numberWaiting s1
    let s3 := (s2.showRecorder.put EVR_STAT_READY 1).post 0x0901 0 [count32 log.length, (highest0 (log.map fun r => r.seq), 4)]
    s3.postsOfStart.releaseFlush

def execLogScanDone (s : State) : Host.Outcome State Fault Refusal := run Sys.logScanDone s

/-! ## Reading (R478) -/

/-- The numbered records with where each lies: a flushed one in the log only (DEDUCED, notes/assumptions/145.md). -/
def Sys.visible (s : Sys) : List (RecSlot × Nat) :=
  (s.evr.log.map fun r => (r, logSlot r.slot)) ++ ((s.evr.ring.filter fun r => r.numbered && !r.flushed).map fun r => (r, ringSlot r.slot))

/-- The pair with the lower key. -/
def lowerKey (key : RecSlot → Nat) : List (RecSlot × Nat) → Option (RecSlot × Nat)
  | [] => none
  | x :: xs =>
    match lowerKey key xs with
    | none => some x
    | some y => if key x.1 ≤ key y.1 then some x else some y

/-- The record that a cursor fetches: by SEQ for locker 0, by LSEQ for a tenant. -/
def Sys.nextFor (s : Sys) (locker pos : Nat) : Option (RecSlot × Nat) :=
  if locker = 0 then lowerKey RecSlot.seq (s.visible.filter fun x => pos ≤ x.1.seq)
  else lowerKey RecSlot.lseq (s.visible.filter fun x => x.1.locker == locker && pos ≤ x.1.lseq)

/-- R478: a read of EVR_CDATc0. -/
def Sys.cursorFetch (s : Sys) (c : Nat) : Sys :=
  let locker := s.get (EVR_CBIND_LOCKER c)
  let found := if s.on (EVR_CBIND_VALID c) then s.nextFor locker (s.word (EVR_CPOS c)) else none
  match found with
  | none => ((List.range 8).foldl (fun s w => s.setWord (EVR_CDAT c w) 0) s).answer 0
  | some x =>
    let s1 := (List.range 8).foldl (fun s w => s.setWord (EVR_CDAT c w) (s.rd (x.2 + 4 * w) 4)) s
    let s2 := if locker = 0 then s1.setWord (EVR_CPOS c) (x.1.seq + 1) else (s1.setWord (EVR_CPOS c) (x.1.lseq + 1)).setWord (EVR_CDAT c 0) 0
    s2.answer (s2.word (EVR_CDAT c 0))

def execCursorFetch (_who : Agent) (c : Fin 8) (s : State) : Host.Outcome State Fault Refusal := run (fun y => y.cursorFetch c.val) s

/-- EVR_CSTATc.LOST: the growth of the locker's count since the binding (R479). -/
def Sys.cursorLost (s : Sys) (c : Nat) : Nat :=
  if s.on (EVR_CBIND_VALID c) then
    Nat.min (lookupD 0 s.evr.lost (s.get (EVR_CBIND_LOCKER c)) - lookupD 0 s.evr.lostAtBind c) 0xFFFF
  else 0

/-! ## Clearing (R480) -/

/-- A write of EVR_CCLRc. -/
def Sys.logClear (s : Sys) (c upTo : Nat) : Sys :=
  if !s.on (EVR_CBIND_VALID c) || s.get (EVR_CBIND_LOCKER c) != 0 || !s.on (EVR_CBIND_WRITE c) || s.word EVR_SEQ ≤ upTo || s.pfw
      || s.evr.clearing.isSome then s.note 0x0906
  else { s.put EVR_STAT_CLEARING 1 with evr := { s.evr with clearing := some upTo } }

def execLogClear (_who : Agent) (c : Fin 8) (upTo : Nat) (s : State) : Host.Outcome State Fault Refusal :=
  run (fun y => y.logClear c.val (upTo % 2 ^ 32)) s

/-- Slots of the log and of the ring written to zero. -/
def Sys.dropSlots (s : Sys) (log ring : List RecSlot) : Sys :=
  let s1 := log.foldl (fun s r => (s.loftWr (logSlot r.slot - loftBase) 32 0).gone r) s
  let s2 := ring.foldl (fun s r => s.wr (ringSlot r.slot) 32 0) s1
  { s2 with evr := { s2.evr with
      log := s2.evr.log.filter fun r => !(log.any fun x => x.slot == r.slot)
      ring := s2.evr.ring.filter fun r => !(ring.any fun x => x.slot == r.slot) } }

/-- A clear ends, or stops early at a warning: how far it then came is open. -/
def Sys.logClearDone (s0 : Sys) : Sys :=
  match s0.evr.clearing with
  | none => s0
  | some upTo =>
    let log := s0.evr.log.filter fun r => r.seq ≤ upTo
    let ring := s0.evr.ring.filter fun r => r.numbered && r.seq ≤ upTo
    let d := s0.draw
    let n := if s0.pfw then d.1 % (log.length + ring.length + 1) else log.length + ring.length
    let s := if s0.pfw then d.2 else s0
    let log1 := log.take n
    let ring1 := ring.take (n - log.length)
    let gone := log1 ++ ring1.filter fun r => !(log1.any fun x => x.seq == r.seq)
    let s1 := gone.foldl (fun s r => s.countLost r.locker) (s.dropSlots log1 ring1)
    let s2 := { s1.put EVR_STAT_CLEARING 0 with evr := { s1.evr with clearing := none } }.showRecorder
    (s2.post 0x0905 0 [(highest0 (gone.map fun r => r.seq), 4), count32 gone.length]).releaseFlush

def execLogClearDone (s : State) : Host.Outcome State Fault Refusal := run Sys.logClearDone s

/-! ## The watchdog (R462) -/

/-- A write of MGT_WDKICK. -/
def Sys.watchdogKick (s : Sys) (key : Nat) : Sys :=
  if key % 65536 != 0x5744 then s.note 0x1605
  else { s with mgt := { s.mgt with watchdog := s.mgt.watchdog.map fun _ => s.fclk } }

def execWatchdogKick (key : Nat) (s : State) : Host.Outcome State Fault Refusal := run (fun y => y.watchdogKick key) s

/-- The count expires while the watchdog runs. -/
def Sys.watchdogExpired (s : Sys) : Sys := if s.mgt.watchdog.isSome then (s.postNext 0x1606 0).moduleReset 5 false else s

def execManagementWatchdogExpired (s : State) : Host.Outcome State Fault Refusal := run Sys.watchdogExpired s

/-! ## Sensors (R463, R464) -/

abbrev senNormal : Nat := 0
abbrev senWarning : Nat := 1
abbrev senFault : Nat := 2

/-- The nominal value of a rail sensor in mV; VLANE's follows the operating point (R380). -/
def Sys.railNominal (s : Sys) (k : Nat) : Nat :=
  if k = 5 || k = 7 then 800 else if k = 6 then nth 900 [750, 800, 850, 900] (s.get PWR_OP_CUR) else if k = 8 || k = 9 then 1100 else 1800

/-- The value lies beyond a limit. -/
def Sys.beyond (s : Sys) (k limit : Nat) (v : Int) : Bool :=
  if k ≤ 4 then decide (Int.ofNat limit < v)
  else let nom := s.railNominal k; decide (limit * nom < 1000 * (v - Int.ofNat nom).natAbs)

/-- The value lies inside a limit by the hysteresis: 2.0 °C, or 0.5 %. -/
def Sys.inside (s : Sys) (k limit : Nat) (v : Int) : Bool :=
  if k ≤ 4 then decide (v + 20 ≤ Int.ofNat limit)
  else let nom := s.railNominal k; decide (1000 * (v - Int.ofNat nom).natAbs + 5 * nom ≤ limit * nom)

/-- One more in a run of consecutive samples, or none. -/
def runOf (runs : List Nat) (k : Nat) (b : Bool) : Nat := if b then nth 0 runs k + 1 else 0

/-- A run kept under its sensor; a list of 13. -/
def keepRun (runs : List Nat) (k n : Nat) : List Nat := setNth (runs ++ List.replicate (13 - runs.length) 0) k n

/-- The state after a sample: entering takes three samples beyond a limit, leaving three inside it by the hysteresis. -/
def senNext (st bw bf iw if_ : Nat) : Nat :=
  if st = senFault then (if 3 ≤ if_ then (if 3 ≤ iw then senNormal else senWarning) else senFault)
  else if 3 ≤ bf then senFault
  else if st = senWarning then (if 3 ≤ iw then senNormal else senWarning)
  else if 3 ≤ bw then senWarning else senNormal

/-- A sensor's sample shown and judged. While an operating-point change runs VLANE is not judged. -/
def Sys.sampleSensor (s : Sys) (k : Nat) (v : Int) : Sys :=
  let s1 := s.put (MGT_SEN_VALUE k) (unsint 16 v)
  if k = 6 && s.on PWR_OP_BUSY then s1
  else
    let warn := s.get (MGT_SLIM_WARN k)
    let fault := s.get (MGT_SLIM_FAULT k)
    let m := s.mgt
    let bw := runOf m.beyondWarn k (s.beyond k warn v)
    let bf := runOf m.beyondFault k (s.beyond k fault v)
    let iw := runOf m.insideWarn k (s.inside k warn v)
    let if_ := runOf m.insideFault k (s.inside k fault v)
    let st := s.get (MGT_SEN_STATE k)
    let nx := senNext st bw bf iw if_
    let s2 := { s1.put (MGT_SEN_STATE k) nx with mgt := { m with
      beyondWarn := keepRun m.beyondWarn k bw, beyondFault := keepRun m.beyondFault k bf
      insideWarn := keepRun m.insideWarn k iw, insideFault := keepRun m.insideFault k if_ } }
    if nx = st then s2
    else s2.post (if nx = senFault then 0x1602 else if nx = senWarning then 0x1601 else 0x1603) 0 [(k, 1), (unsint 16 v, 2)]

/-- Sensors 0 to 12, sampled by the firmware. -/
def Sys.sensorSample (s : Sys) (values : List Int) : Sys :=
  if s.on MGT_STAT_FWRUN then (List.range 13).foldl (fun s k => s.sampleSensor k (nth 0 values k)) s else s

def execSensorSample (values : List Int) (s : State) : Host.Outcome State Fault Refusal := run (fun y => y.sensorSample values) s

/-! ## Host commands (R465) -/

abbrev opAckFault : Nat := 1
abbrev opTempApply : Nat := 2
abbrev opFlush : Nat := 3

/-- A command refused; MGT_HRES shows it only while none runs. -/
def Sys.hostRefuse (s : Sys) (op : Nat) : Sys :=
  let s1 := s.post 0x1604 0 [(op % 256, 1)]
  if s.mgt.running.isSome then s1 else ((s1.put MGT_HRES_DONE 1).put MGT_HRES_BUSY 0).put MGT_HRES_CODE 0x1604

/-- A command taken, with its effect, or refused. -/
def Sys.hostCommand (s : Sys) (op : Nat) (ok : Bool) (effect : Sys → Sys) : Sys :=
  if s.mgt.running.isSome || !s.on MGT_STAT_FWRUN || !ok then s.hostRefuse op
  else
    let s1 := ((s.put MGT_HRES_DONE 0).put MGT_HRES_BUSY 1).put MGT_HRES_CODE 0
    effect { s1 with mgt := { s1.mgt with running := some op, result := 0 } }

/-- ACKFAULT (R468). -/
def Sys.ackFault (s : Sys) : Sys :=
  s.hostCommand opAckFault (!s.on SYS_FSTAT_HOLD) fun y => y.clearFaults.post 0x0102 0 [(s.get SYS_FSTAT_COUNT, 2), (s.get SYS_FSTAT_HSEV, 1)]

def execAckfault (_who : Agent) (s : State) : Host.Outcome State Fault Refusal := run Sys.ackFault s

/-- TEMPAPPLY (R204). -/
def Sys.tempApply (s : Sys) (temp : Int) : Sys := s.hostCommand opTempApply true fun y => y.applyTable 2 temp

def execTempapply (_who : Agent) (temperature : Int) (s : State) : Host.Outcome State Fault Refusal := run (fun y => y.tempApply temperature) s

/-- FLUSH (R474). -/
def Sys.hostFlush (s : Sys) : Sys := s.hostCommand opFlush true Sys.askFlush

def execFlush (_who : Agent) (s : State) : Host.Outcome State Fault Refusal := run Sys.hostFlush s

/-- The running command ends; FLUSH ends when the flush has. -/
def Sys.hostCommandDone (s : Sys) : Sys :=
  match s.mgt.running with
  | none => s
  | some op =>
    if op = opFlush && (s.on EVR_STAT_FLUSHING || s.evr.flushWaits) then s
    else { ((s.put MGT_HRES_DONE 1).put MGT_HRES_BUSY 0).put MGT_HRES_CODE s.mgt.result with mgt := { s.mgt with running := none } }

def execHostCommandDone (s : State) : Host.Outcome State Fault Refusal := run Sys.hostCommandDone s

end Sys2Proof.Machine
end

