-- ==== Sys2Proof/Machine/Power.lean ====
section
/-!
DEFINITION. Clocks, power, reset and standby (R372 to R394, spec/14_clocks_power_reset.md) and the system pins that go with them
(R492, R498, spec/19_hardware_interface.md).
-/
namespace Sys2Proof.Machine

/-! ## Domains (R384, R386, R387) -/

/-- The LFXO ticks so far. -/
def Sys.ticksNow (s : Sys) : Nat := s.fclk * 64 / 390625

/-- LFXO is absent: the live state of its tamper source. -/
def Sys.lfxoAbsent (s : Sys) : Bool := s.bit KEY_STAT_TLIVE 5

/-- The rails that feed a domain (R384). -/
def railsOf (d : Nat) : List Nat :=
  if d = 0 then [0] else if 2 ≤ d && d ≤ 5 then [1] else if d = 1 || d = 6 || d = 8 || d = 9 then [2]
  else if d = 10 then [3, 4] else if d = 7 then [6] else if d = 14 then [7] else [5]

/-- The control and data planes. -/
def planeDomains : List Nat := [1, 2, 3, 4, 5, 6, 7, 8, 9, 11, 12, 13]

/-- The lane of a lane domain. -/
def laneOf (d : Nat) : Fin 4 := Fin.ofNat 4 (d - 2)

/-- A PLL of those that feed a domain lost its second try (R375). -/
def Sys.pllLost (s : Sys) (d : Nat) : Bool :=
  let twice := fun (k : Nat) => decide (2 ≤ (s.clk.badPlls.filter fun x => x == k).length)
  (11 ≤ d && d ≤ 13 && twice 3) || (d == 7 && twice 4) || (d == 10 && twice 2)

/-- Nothing holds a domain in reset. -/
def Sys.mayRun (s : Sys) (d : Nat) : Bool :=
  s.pwr.started && s.pwr.standby != 3 && (railsOf d).all (fun r => s.bit PWR_RAIL_PG r) && !s.pwr.cmdReset.contains d && !s.pllLost d
    && !(s.clk.planesHeld && planeDomains.contains d) && !(s.clk.crystalDead && d == 10) && !(s.pwr.stopped && 1 ≤ d && d ≤ 5)
    && !(2 ≤ d && d ≤ 5 && s.laneState (laneOf d) == laneRetired) && (d != 14 || s.pwr.perstHigh)

/-- The registers of the addresses `[lo, hi)` at their reset values, but those named. -/
def Sys.resetBlock (s : Sys) (lo hi : Nat) (keep : List Nat) : Sys :=
  { s with regs := s.regs.filter fun c => !(lo ≤ c.1 && c.1 < hi) || keep.contains c.1 }

/-- A lane reset with its domain: no job and no state of its engines is left. -/
def Sys.laneLosesDomain (s : Sys) (n : Fin 4) : Sys :=
  if s.laneState n = laneRetired then s
  else
    let s1 := ((s.dropTarget n).leaveRun n).setLane n Lane.zero
    let s2 := { s1 with vot := { s1.vot with
      waiting := s1.vot.waiting.filter fun m => m != n
      resetting := n :: s1.vot.resetting.filter fun m => m != n } }
    (if s.votes n && s2.prog.active then s2.noneLeft else s2).flushCheck

/-- The CTL domain and the lanes reset; what the last vote left in AGREE is kept for the save of R455. -/
def Sys.controlLosesDomain (s : Sys) : Sys := s.controlReset.put VOT_STAT_AGREE (s.get VOT_STAT_AGREE)

/-- A CAN controller reset; its failure and the substitution stay. -/
def Sys.resetCan (s : Sys) (k : Fin 9) : Sys := s.setCan k { CanCtl.zero with failed := (s.canAt k).failed }

/-- What a reset does inside a domain. -/
def Sys.domainReset (s : Sys) (d : Nat) : Sys :=
  if d = 1 then s.controlLosesDomain
  else if 2 ≤ d && d ≤ 5 then s.laneLosesDomain (laneOf d)
  else if d = 6 then s.releaseAll.put FAB_STAT_STATE fabOff
  else if d = 7 then if s.get MET_STAT_FE = feRun then (s.dropBlock.put MET_STAT_FE feOff).loseReference else s.loseReference
  else if d = 8 then (List.finRange 9).foldl Sys.resetCan (s.resetBlock 0x400E0000 0x400F0000 [CAN_SPMAP])
  else if d = 9 then
    let s1 := (s.resetBlock 0x400B0000 0x400C0000 []).resetBlock 0x40150000 0x40160000 []
    { s1 with dma := Vector.replicate 16 { desc := none }, lck := { bindings := [] } }
  else if 11 ≤ d && d ≤ 13 then
    let p := Fin.ofNat 3 (d - 11)
    let s1 := s.linkGoesDown p
    (s1.resetBlock (0x400D0000 + 0x4000 * p.val) (0x400D4000 + 0x4000 * p.val) [NET_MACL p.val, NET_MACH p.val]).modPort p fun _ => Port.zero
  else if d = 14 then s.resetBlock 0x40170000 0x40180000 []
  else s

/-- The host link goes down: the PCI domain is reset and the host's RESET sideband asserts (R348, R386). -/
def Sys.hostLinkDown (s : Sys) : Sys :=
  let s1 := (s.domainReset 14).sideband 10 true true
  { s1 with pwr := { s1.pwr with linkUp := false } }

/-- A domain goes down. The host link goes with the endpoint's. -/
def Sys.lowerDomain (s : Sys) (d : Nat) : Sys :=
  if s.domUp d then (if d = 14 then s.hostLinkDown else (s.domainReset d).sidebands d true).putBit PWR_DOM_UP d false else s

/-- A domain comes up and its crossings resynchronise, within 64 fabric clocks (R388): the front end samples again while RUN is set, the CAN controllers take their segments. -/
def Sys.raiseDomain (s : Sys) (d : Nat) : Sys :=
  if s.domUp d || !s.mayRun d then s
  else
    let s0 := (s.putBit PWR_DOM_UP d true).sidebands d false
    let s1 := { s0 with pwr := { s0.pwr with resync := putKey s0.pwr.resync d (s.fclk + 2 + Config.handshake s.fclk d % 64) } }
    if d = 7 && s1.on MET_CTL_RUN && s1.get MET_STAT_FE = feOff then s1.frontEndRun
    else if d = 8 && s1.prog.active then s1.loadCan
    else s1

/-- The resynchronisation of every crossing has ended (R388). -/
def Sys.synced (s : Sys) : Sys := { s with pwr := { s.pwr with resync := [] } }

/-- Every domain that nothing holds comes up; where the CTL domain was down under a set, the control-plane restart is requested
(R378, R379). -/
def Sys.raiseAll (s : Sys) : Sys :=
  let s1 := (List.range 15).foldl Sys.raiseDomain s
  if s1.prog.active && !s.domUp 1 && s1.domUp 1 then s1.requestRestart else s1

/-- The planes held in reset (R375, R378, R379). -/
def Sys.holdPlanes (s : Sys) : Sys :=
  planeDomains.foldl Sys.lowerDomain { s with clk := { s.clk with planesHeld := true } }

/-- The planes released once XTAL is present and MUXF and MUXL are on their PLLs. -/
def Sys.releasePlanes (s : Sys) : Sys :=
  if s.clk.planesHeld && !s.clk.missing.contains 0 && s.bit CLK_STAT_SEL 1 && s.bit CLK_STAT_SEL 2 then
    Sys.raiseAll { s with clk := { s.clk with planesHeld := false } }
  else s

/-! ## The frequency meter (R377) -/

/-- A write of GO. -/
def Sys.meterGo (s : Sys) (sel gate : Nat) : Sys :=
  if s.on CLK_FMCTL_BUSY then s
  else if gate % 65536 = 0 then s.note 0x0207
  else ((s.put CLK_FMCTL_SEL sel).put CLK_FMCTL_GATE gate).put CLK_FMCTL_BUSY 1

def execFreqMeterGo (sel gate : Nat) (s : State) : Host.Outcome State Fault Refusal := run (fun y => y.meterGo sel gate) s

/-- The measurement ends; without LFXO its count is 0. -/
def Sys.meterDone (s : Sys) (count : Nat) : Sys :=
  if s.on CLK_FMCTL_BUSY then (s.put CLK_FMCTL_BUSY 0).setWord CLK_FMRES (if s.lfxoAbsent then 0 else count) else s

def execFreqMeasurementDone (count : Nat) (s : State) : Host.Outcome State Fault Refusal := run (fun y => y.meterDone count) s

/-! ## Gates and multiplexers (R373, R376, R379) -/

/-- A gate of `w` is open under a closed parent (R376); `lanes` are the lane gates. -/
def orphanGate (w lanes : Nat) : Bool :=
  let pll := fun (k : Nat) => w.testBit (16 + k)
  (w.testBit 0 && !pll 0) || ((w.testBit 1 || w.testBit 2 || w.testBit 3) && !w.testBit 0) || (lanes != 0 && !pll 1)
    || (w.testBit 8 && !pll 2) || ((w.testBit 9 || w.testBit 10 || w.testBit 11) && !pll 3) || (w.testBit 12 && !pll 4)

/-- `w` disables a PLL that a multiplexer selects. -/
def Sys.cutsMux (s : Sys) (w : Nat) : Bool :=
  let m := s.get CLK_STAT_SEL ||| s.word CLK_CTL % 8
  ((m.testBit 0 || m.testBit 1) && !w.testBit 16) || (m.testBit 2 && !w.testBit 17)

/-- R376: a write of CLK_GATE. A PLL that is disabled is not locked. -/
def Sys.clkGateWrite (s : Sys) (data : Nat) : Sys :=
  if orphanGate data (s.get CLK_GATE_LANE) || s.cutsMux data then s.note 0x0203
  else
    let s1 := s.storeWord CLK_GATE data
    let en := s1.get CLK_GATE_PLLEN
    { s1.put CLK_STAT_LOCKED (s1.get CLK_STAT_LOCKED &&& en) with clk := { s1.clk with badPlls := s1.clk.badPlls.filter fun k => en.testBit k } }

def execClkGateWrite (data : Nat) (s : State) : Host.Outcome State Fault Refusal := run (fun y => y.clkGateWrite data) s

/-- SWPEND follows CLK_CTL and SEL; with no switch pending the watchdog is disarmed. -/
def Sys.showPending (s : Sys) : Sys :=
  let pend := (s.word CLK_CTL % 8) ^^^ s.get CLK_STAT_SEL
  let s1 := s.put CLK_STAT_SWPEND pend
  if pend = 0 then { s1.put CLK_MONST_WDARM 0 with clk := { s1.clk with watchdogAt := none } } else s1

/-- A write of CLK_CTL: refused where it selects a PLL that is not locked. -/
def Sys.muxRequest (s : Sys) (data : Nat) : Sys :=
  let locked := s.get CLK_STAT_LOCKED
  if ((data.testBit 0 || data.testBit 1) && !locked.testBit 0) || (data.testBit 2 && !locked.testBit 1) then s.note 0x0207
  else (s.storeWord CLK_CTL data).showPending

def execMuxSwitchRequest (data : Nat) (s : State) : Host.Outcome State Fault Refusal := run (fun y => y.muxRequest data) s

/-- The clock that multiplexer `m` takes as its PLL, as CLK_MONST numbers it. -/
def muxClock (m : Nat) : Nat := if m = 2 then 2 else 1

/-- A pending switch completes: both inputs showed a low phase, so the old clock has edges. While MUXF or MUXL is on RC the planes are
held; with both back on their PLLs they are released. -/
def Sys.muxComplete (s : Sys) (m : Nat) : Sys :=
  if !s.bit CLK_STAT_SWPEND m then s
  else
    let dest := (s.word CLK_CTL).testBit m
    let s1 := Sys.showPending { s.putBit CLK_STAT_SEL m dest with clk := { s.clk with missing := s.clk.missing.filter fun k => k != muxClock m } }
    let s2 := if s1.get CLK_STAT_SWPEND = 0 && s1.clk.fellBack then { s1.note 0x0202 with clk := { s1.clk with fellBack := false } } else s1
    if m = 0 then s2 else if dest then s2.releasePlanes else s2.holdPlanes

def execMuxSwitchComplete (mux : Fin 3) (s : State) : Host.Outcome State Fault Refusal := run (fun y => y.muxComplete mux.val) s

/-! ## Missing clocks (R378, R379) -/

/-- Every output released at once, and the exchange stops transmitting on every bus (R264, R291). -/
def Sys.monitorRelease (s : Sys) : Sys :=
  let s0 := s.releaseAll.put VOT_STAT_CUFF cuffReleased
  let s1 := ((List.finRange 9).filter fun k => s0.canRole k == roleHitil).foldl Sys.attemptFails s0
  let s2 := { s1 with hit := { s1.hit with stopped := true }, vot := { s1.vot with validRun := 0 } }
  if s.get VOT_STAT_CUFF = cuffReleased then s2 else s2.note 0x120C

/-- The fallback of multiplexers to RC requested, and the watchdog armed (R379). -/
def Sys.fallBack (s : Sys) (muxes : Nat) : Sys :=
  let s1 := (s.setWord CLK_CTL (s.word CLK_CTL &&& (0xFFFFFFFF ^^^ muxes))).showPending
  if s1.get CLK_STAT_SWPEND = 0 then s1
  else { s1.put CLK_MONST_WDARM 1 with clk := { s1.clk with watchdogAt := s1.clk.watchdogAt <|> some s1.ticksNow, fellBack := true } }

/-- The effects of a missing clock beside its bit and 0x0201. -/
def Sys.missingEffect (s : Sys) (k : Nat) : Sys :=
  if k = 0 then (s.monitorRelease.put CLK_STAT_LOCKED 0).holdPlanes
  else if k = 1 then s.monitorRelease.fallBack 3
  else if k = 2 then s.monitorRelease.fallBack 4
  else if k = 3 then s.dramFails
  else if k = 4 then [0, 1, 2].foldl Sys.linkGoesDown s
  else if k = 5 then s.frontEndFailed
  else s.hostLinkDown

/-- R378: a clock without an edge for 8 µs, not declared missing before. In standby the others are stopped. -/
def Sys.clockMissing (s : Sys) (k : Nat) : Sys :=
  if s.clk.missing.contains k || s.pwr.inReset || (s.pwr.standby = 3 && k != 6) then s
  else
    let s1 := { s with clk := { s.clk with missing := insertAsc k s.clk.missing } }
    let s2 := if 1 ≤ k && k ≤ 5 then s1.putBit CLK_STAT_LOCKED (k - 1) false else s1
    ((s2.putBit CLK_MONST_MISS k true).post 0x0201 0 [(k, 1)]).missingEffect k

def execClockMissing (clock : Fin 7) (s : State) : Host.Outcome State Fault Refusal := run (fun y => y.clockMissing clock.val) s

/-- R379: a switch still pending 65,536 LFXO ticks after the watchdog was armed. -/
def Sys.clockWatchdog (s0 : Sys) : Sys :=
  match s0.clk.watchdogAt with
  | none => s0
  | some t => ((s0.passTicks (t + 65536 - s0.ticksNow)).postNext 0x0208 0).moduleReset 4 false

def execClockWatchdogExpired (s : State) : Host.Outcome State Fault Refusal := run Sys.clockWatchdog s

/-- R378: the firmware checks a missing XTAL; when it passes, the PLLs relock and the planes are released. After three failed checks at a start
the module waits for a reset instead (R375). -/
def Sys.xtalRecheck (s : Sys) (passes : Bool) : Sys :=
  if !s.clk.missing.contains 0 || s.clk.crystalDead then s
  else if !passes then s.put CLK_STAT_XTALOK 0
  else
    let s1 := (s.put CLK_STAT_XTALOK 1).put CLK_STAT_LOCKED (s.get CLK_GATE_PLLEN)
    Sys.releasePlanes { s1 with clk := { s1.clk with missing := s1.clk.missing.filter fun k => k != 0 } }

def execXtalRecheck (passes : Bool) (s : State) : Host.Outcome State Fault Refusal := run (fun y => y.xtalRecheck passes) s

/-- A PLL locks, and has edges again. -/
def Sys.pllLocks (s : Sys) (p : Nat) : Sys :=
  let s1 := s.putBit CLK_STAT_LOCKED p true
  Sys.raiseAll { s1 with clk := { s1.clk with missing := s1.clk.missing.filter fun k => k != p + 1, badPlls := s1.clk.badPlls.filter fun k => k != p } }

/-- R378: a missing PLL_N is retried. -/
def Sys.pllRetry (s : Sys) (locks : Bool) : Sys := if s.clk.missing.contains 4 && locks then s.pllLocks 3 else s

def execPllRetry (locks : Bool) (s : State) : Host.Outcome State Fault Refusal := run (fun y => y.pllRetry locks) s

/-- The domains that a PLL feeds and that stay in reset after its second failure (R375). -/
def pllDomains (p : Nat) : List Nat := if p = 2 then [10] else if p = 3 then [11, 12, 13] else if p = 4 then [7] else []

/-- R375: an enabled PLL locks, or fails to within 0.5 ms. -/
def Sys.pllLock (s : Sys) (p : Nat) (locks : Bool) : Sys :=
  if !s.bit CLK_GATE_PLLEN p || s.bit CLK_STAT_LOCKED p then s
  else if locks then s.pllLocks p
  else
    let again := s.clk.badPlls.contains p
    let s1 := { s.post 0x0206 0 [(p, 1)] with clk := { s.clk with badPlls := p :: s.clk.badPlls } }
    if again then (pllDomains p).foldl Sys.lowerDomain s1 else s1

def execPllLock (pll : Fin 5) (locks : Bool) (s : State) : Host.Outcome State Fault Refusal := run (fun y => y.pllLock pll.val locks) s

/-! ## Operating points (R73, R380 to R382) -/

/-- The lane clock in Hz at an operating point (R380). -/
def laneClock (op : Nat) : Nat := nth 400000000 [100000000, 200000000, 300000000, 400000000] op

/-- R73: a Compute budget fits the span between two boundaries at an operating point. -/
def budgetFits (budget op phg phc : Nat) : Bool := budget * (65 * 65536) ≤ laneClock op * (phc - phg)

/-- A change starts; downward the divider switches first. -/
def Sys.opStart (s : Sys) (op : Nat) : Sys :=
  let old := s.get PWR_OP_CUR
  let s1 := s.put PWR_OP_BUSY 1
  let s2 := if op < old then s1.put PWR_OP_CUR op else s1
  { s2 with pwr := { s2.pwr with opPending := none, opRunning := some (old, op) } }

/-- A write of PWR_OP.REQ. -/
def Sys.opRequest (s : Sys) (op : Nat) : Sys :=
  if s.on PWR_OP_BUSY || s.pwr.standby != 0 then s.note 0x0305
  else if s.prog.active && !budgetFits s.prog.budget op s.ang.phg s.ang.phc then s.note 0x1211
  else
    let s1 := s.put PWR_OP_REQ op
    if s1.cycling then { s1 with pwr := { s1.pwr with opPending := some (op, s1.ang.time) } } else s1.opStart op

def execOpRequest (op : Fin 4) (s : State) : Host.Outcome State Fault Refusal := run (fun y => y.opRequest op.val) s

/-- The first PHC after an instant. -/
def Sys.phcAfter (s : Sys) (t : Nat) : Nat :=
  let p := s.ang.corg + s.ang.phc
  if t < p then p else p + ((t - p) / s.cycleLen + 1) * s.cycleLen

/-- R382: at the first PHC after the request the change starts. -/
def Sys.opChange (s : Sys) : Sys :=
  match s.pwr.opPending with
  | some (op, t) => (s.reach (s.phcAfter t)).opStart op
  | none => s

def execOpChange (s : State) : Host.Outcome State Fault Refusal := run Sys.opChange s

/-- The change ends. -/
def Sys.opChangeDone (s : Sys) : Sys :=
  match s.pwr.opRunning with
  | some (old, new) =>
    { ((s.put PWR_OP_BUSY 0).put PWR_OP_CUR new).post 0x0304 0 [(old, 1), (new, 1)] with pwr := { s.pwr with opRunning := none } }
  | none => s

def execOpChangeDone (s : State) : Host.Outcome State Fault Refusal := run Sys.opChangeDone s

/-! ## Supplies (R383, R384, R492) -/

/-- A reset that was held ends. -/
def Sys.releaseReset (s : Sys) (cause : Nat) : Sys :=
  let s1 := s.readStraps
  { s1 with pwr := { s1.pwr with inReset := false, heldByRail := false, cause := cause } }

/-- R383: the power-on release, cause 1; a brown-out's reset keeps its cause 2. By then the warning has cleared. -/
def Sys.powerOnRelease (s : Sys) : Sys :=
  if s.pwr.inReset && !s.pwr.heldByRail then
    let s1 := (s.put PWR_VMON_PFW 0).releaseReset (if s.pwr.cause = 2 then 2 else 1)
    { s1 with pwr := { s1.pwr with pfwLow := false } }
  else s

def execPowerOnRelease (s : State) : Host.Outcome State Fault Refusal := run Sys.powerOnRelease s

/-- The program cycles have begun, so a warning asks for a flush (R235). -/
def Sys.flushDue (s : Sys) : Bool :=
  s.on MET_CTL_FLUSHEN && s.cycling && (s.ang.begun || !s.ang.first) && s.get MET_STAT_FE == feRun

/-- R233, R383: the warning asserts. The block in progress is not emitted, whether or not a flush takes its place. -/
def Sys.powerFail (s : Sys) : Sys :=
  let s1 := { s.put PWR_VMON_PFW 1 with pwr := { s.pwr with pfwLow := true } }
  if s.on PWR_VMON_PFW || s.pwr.inReset then s1
  else
    let s2 := ((s1.put PWR_VMON_PFWSEEN 1).incSat PWR_VMON_PFWCNT).note 0x0301
    if s2.flushDue then s2.requestFlush else s2.dropBlock

def execPowerFailWarning (s : State) : Host.Outcome State Fault Refusal := run Sys.powerFail s

/-- The warning clears (R235). -/
def Sys.powerFailClear (s : Sys) : Sys :=
  if !s.on PWR_VMON_PFW then s
  else
    let s1 := { (s.put PWR_VMON_PFW 0) with pwr := { s.pwr with pfwLow := false } }
    if s.pwr.inReset then s1
    else
      let s2 := s1.note 0x0302
      if s2.fe.flushing then s2 else s2.resumeMetering

def execPowerFailClear (s : State) : Host.Outcome State Fault Refusal := run Sys.powerFailClear s

/-- Brown-out: a module reset that holds until the power-on release. -/
def Sys.brownOut (s : Sys) : Sys :=
  if s.pwr.inReset then { s with pwr := { s.pwr with heldByRail := false } } else (s.postNext 0x0303 0).moduleReset 2 true

def execBrownOut (s : State) : Host.Outcome State Fault Refusal := run Sys.brownOut s

/-- The domains that a rail feeds. -/
def railDomains (r : Nat) : List Nat := (List.range 15).filter fun d => (railsOf d).contains r

/-- R384: a rail loses power-good. -/
def Sys.railLost (s : Sys) (r : Nat) : Sys :=
  if s.pwr.inReset then s
  else if r = 0 then
    let s1 := s.moduleReset 2 true
    { s1 with pwr := { s1.pwr with heldByRail := true, pfwLow := s.pwr.pfwLow } }
  else
    let s1 := ((s.putBit PWR_RAIL_PG r false).putBit PWR_RAIL_LOST r true).post 0x0306 0 [(r, 1)]
    (railDomains r).foldl Sys.lowerDomain s1

def execRailPowerGoodLost (rail : Fin 8) (s : State) : Host.Outcome State Fault Refusal := run (fun y => y.railLost rail.val) s

/-- A rail's power-good returns. -/
def Sys.railRestored (s : Sys) (r : Nat) : Sys :=
  if r = 0 then (if s.pwr.heldByRail then s.releaseReset 2 else s) else (s.putBit PWR_RAIL_PG r true).raiseAll

def execRailPowerGoodRestored (rail : Fin 8) (s : State) : Host.Outcome State Fault Refusal := run (fun y => y.railRestored rail.val) s

/-- PFW_N is low from 4.5 V rising until the warning clears. -/
def execVmainRises (s : State) : Host.Outcome State Fault Refusal := run (fun y => { y with pwr := { y.pwr with pfwLow := true } }) s

def execVmainFalls (s : State) : Host.Outcome State Fault Refusal := run (fun y => { y with pwr := { y.pwr with pfwLow := false } }) s

/-! ## Resets (R385, R386, R498) -/

/-- MRST_N low for at least 10 µs. -/
def Sys.mrst (s : Sys) : Sys := if s.pwr.inReset then s else s.moduleReset 3 false

def execMrst (s : State) : Host.Outcome State Fault Refusal := run Sys.mrst s

/-- The domains that PWR_RCMD resets. -/
def commandDomains : List Nat := [7, 8, 9, 11, 12, 13]

/-- A write of PWR_RCMD with GO. -/
def Sys.domainCmd (s : Sys) (d : Nat) : Sys :=
  if d = 0 then s.moduleReset 7 false
  else if commandDomains.contains d then
    let s1 := (s.lowerDomain d).post 0x030B 0 [(d, 1)]
    { s1 with pwr := { s1.pwr with cmdReset := insertAsc d s1.pwr.cmdReset } }
  else s.note 0x030C

def execDomainResetCmd (dom : Fin 16) (s : State) : Host.Outcome State Fault Refusal := run (fun y => y.domainCmd dom.val) s

/-- The 50 µs of a commanded reset end. -/
def Sys.domainRelease (s : Sys) (d : Nat) : Sys :=
  if s.pwr.cmdReset.contains d then Sys.raiseDomain { s with pwr := { s.pwr with cmdReset := s.pwr.cmdReset.filter fun x => x != d } } d else s

def execDomainResetRelease (dom : Fin 16) (s : State) : Host.Outcome State Fault Refusal := run (fun y => y.domainRelease dom.val) s

/-- R386: hot reset (0), function level reset (1) or link down (2). A function level reset leaves the link up. -/
def Sys.pciReset (s : Sys) (cause : Nat) : Sys :=
  if cause = 1 then ((s.domainReset 14).sideband 10 true true).sideband 10 true false else s.hostLinkDown

def execPciReset (cause : Fin 3) (s : State) : Host.Outcome State Fault Refusal := run (fun y => y.pciReset cause.val) s

/-- R498: PERST_N rises, or is asserted. -/
def Sys.perst (s : Sys) (rising : Bool) : Sys :=
  let s1 := { s with pwr := { s.pwr with perstHigh := rising } }
  if rising then s1.raiseDomain 14 else s1.hostLinkDown.putBit PWR_DOM_UP 14 false

def execPerst (rising : Bool) (s : State) : Host.Outcome State Fault Refusal := run (fun y => y.perst rising) s

/-- Link training completes. -/
def Sys.pcieUp (s : Sys) : Sys :=
  if !s.pwr.perstHigh || s.pwr.inReset then s
  else
    let s1 := s.sideband 10 true false
    { s1 with pwr := { s1.pwr with linkUp := true }, clk := { s1.clk with missing := s1.clk.missing.filter fun k => k != 6 } }

def execPcieLinkUp (s : State) : Host.Outcome State Fault Refusal := run Sys.pcieUp s

/-! ## Bringing the clocks up (R374, R375) -/

/-- R374: a count of the crystal check is accepted; without LFXO it is judged at ±15 %. -/
def Sys.crystalOk (s : Sys) (count : Nat) : Bool :=
  if s.lfxoAbsent then 20752 ≤ count && count ≤ 28075 else 24293 ≤ count && count ≤ 24536

/-- Up to `k` attempts of the crystal check, with 0x0204 for each that fails. -/
def Sys.crystalCheck : Nat → List Nat → Sys → Sys × Bool
  | 0, _, s => (s, false)
  | k + 1, counts, s =>
    let c := counts.headD 0
    if s.crystalOk c then (s.put CLK_STAT_XTALOK 1, true)
    else Sys.crystalCheck k counts.tail ((s.put CLK_STAT_XTALOK 0).post 0x0204 0 [count32 c])

/-- The PLLs tried: 0x0206 for each try that fails. -/
def Sys.tryPll (found : ClockFindings) (s : Sys) (p : Nat) : Sys :=
  if !s.bit CLK_GATE_PLLEN p then s
  else if found.deadPlls.contains p then
    let s1 := (s.post 0x0206 0 [(p, 1)]).post 0x0206 0 [(p, 1)]
    { s1.putBit CLK_STAT_LOCKED p false with clk := { s1.clk with badPlls := p :: p :: s1.clk.badPlls } }
  else (if found.slowPlls.contains p then s.post 0x0206 0 [(p, 1)] else s).putBit CLK_STAT_LOCKED p true

/-- The multiplexers on the PLLs that locked. -/
def Sys.selectPlls (s : Sys) : Sys :=
  let l := s.get CLK_STAT_LOCKED
  let m := (if l.testBit 0 then 3 else 0) + (if l.testBit 1 then 4 else 0)
  let s1 := ((s.setWord CLK_CTL ((s.word CLK_CTL &&& 0xFFFFFFF8) ||| m)).put CLK_STAT_SEL m).put CLK_STAT_SWPEND 0
  { s1 with clk := { s1.clk with planesHeld := m != 7 } }

/-- Steps 1 to 4 of R374, with R375 where a step fails. -/
def Sys.bringClocksUp (s : Sys) (found : ClockFindings) : Sys :=
  let c := Sys.crystalCheck 3 found.counts { s with clk := { s.clk with badPlls := [], missing := [], planesHeld := false, crystalDead := false } }
  if c.2 then ((List.range 5).foldl (Sys.tryPll found) c.1).selectPlls
  else
    let s1 := ((c.1.put CLK_STAT_LOCKED 0).put CLK_STAT_SEL 0).note 0x0205
    { s1.setWord CLK_CTL (s1.word CLK_CTL &&& 0xFFFFFFF8) with clk := { s1.clk with planesHeld := true, missing := [0], crystalDead := true } }

/-! ## Standby (R389 to R392, R56) -/

/-- Why a request is refused; 0: it is not. -/
def Sys.standbyReason (s : Sys) : Nat :=
  let st := s.get UPD_STAT_STATE
  if !s.on PWR_CTL_SBEN then 1
  else if st = updLoading || st = updActivating || st = updCopying || s.pantry = pantryOpen || s.pantry = pantryVerifying then 2
  else if s.pfw then 3
  else if s.reintegrating || s.fe.flushing || s.on EVR_STAT_FLUSHING || s.on PWR_OP_BUSY then 4
  else if s.get PWR_SBCFG_RTCALM = 0 && s.get PWR_SBCFG_RTCPER = 0 && s.get PWR_SBCFG_HOSTDB = 0 then 5
  else 0

/-- Steps 2 to 4 of R389: the saves from the cycle whose frames carried REL, the front end and the exchange stopped, the links lost with
their PHYs (DEDUCED, notes/assumptions/144.md), the ring flushed, and the domains down. -/
def Sys.enterStandby (s : Sys) : Sys :=
  let s1 := match s.agreeLane with
    | some n => ((s.saveEnergy n snapBase 1).snapRanges n).saveRetentive n s.ang.cycle
    | none => s
  let s2 := { (([0, 1, 2].foldl Sys.linkGoesDown (s1.frontEndStop.put HIT_CTL_RUN 0)).note 0x0307) with prog := { s1.prog with snapCycle := none } }
  let s3 := ((s2.posts.foldl (fun s _ => s.eventAccept 1) s2).ringFlush.put EVR_STAT_FLUSHING 0).completeFlush
  let s4 := s3.put PWR_DOM_UP (2 ^ 14 * (if s3.domUp 14 then 1 else 0))
  { s4 with
    lanes := s4.lanes.map Lane.stopped
    mgt := { s4.mgt with watchdog := none }
    pwr := { s4.pwr with standby := 3, standbyDur := s4.ticksNow } }

/-- A write of GO to PWR_SBCMD by the firmware. While cycles run the entry waits for the next PHV. -/
def Sys.standbyRequest (s : Sys) (who : Agent) : Sys :=
  if who = .host then s.note 0x0112
  else if s.pwr.standby != 0 then s
  else
    let r := s.standbyReason
    if r != 0 then (s.put PWR_SBSTAT_REASON r).post 0x0309 0 [(r, 1)]
    else if s.cycling then { s with pwr := { s.pwr with standby := 1 } }
    else (s.releaseAll.put VOT_STAT_CUFF cuffReleased).enterStandby

def execStandbyRequest (who : Agent) (s : State) : Host.Outcome State Fault Refusal := run (fun y => y.standbyRequest who) s

/-- TIME takes up the standby's duration at FGOOD and the clock resumes in ACQUIRE (R56). The duration's RTC ticks are the raw ticks of the
crystal, before the compensation of R407 (DESIGN CHOICE, notes/assumptions/120.md). -/
def Sys.angleWakes (s : Sys) (ticks : Nat) : Sys :=
  let s1 := { s with ang := { s.ang with
    time := (s.ang.time + ticks * s.get ANG_FGOOD_FGOOD / 32768) % 2 ^ 64
    corr := 0, crossed := false, lowRun := 0, badRun := 0, bigRun := 0, lockRun := 0 } }
  if s1.on ANG_CTL_RUN then ((s1.put ANG_STAT_STATE angAcquire).put ANG_STAT_SLEWING 0).put ANG_STAT_GOODCNT 0 else s1

/-- R392: the first cycle is the first of the grid that starts at or after this instant. -/
def Sys.gridAfterWake (s : Sys) : Sys :=
  if !s.ang.requested then s
  else
    let n := (s.ang.time - s.ang.corg + s.cycleLen - 1) / s.cycleLen
    { s with ang := { s.ang with cycle := n, start := s.ang.corg + n * s.cycleLen, begun := false } }

/-- R391: the wake, `ticks` LFXO ticks on. How long it takes is open within 25 ms. -/
def Sys.wakeUp (s0 : Sys) (source ticks : Nat) (found : ClockFindings) : Sys :=
  let s := s0.passTicks ticks
  let dur := s.ticksNow - s.pwr.standbyDur
  let s1 := (s.putBit PWR_DOM_UP 0 true).bringClocksUp found
  let s2 := { s1 with pwr := { s1.pwr with standby := 0, standbyDur := dur, wakeHeld := none }
                      mgt := { s1.mgt with watchdog := if s1.on MGT_STAT_FWRUN then some s1.fclk else none } }
  let s3 := ((List.range 15).foldl Sys.raiseDomain s2).synced
  let s4 := if s3.domUp 1 then ((if s3.domUp 7 then (s3.angleWakes dur).frontEndRun else s3.angleWakes dur).hitRunSet).gridAfterWake else s3
  let w := s4.draw
  let t := w.1 % 25001
  let s5 := ((w.2.put PWR_SBSTAT_SRC source).put PWR_SBSTAT_WAKET t).post 0x0308 0 [(source, 1), (t, 2)]
  s5.postDark

/-- A wake event: alarm (1), periodic (2) or doorbell (3), while its enable is set. During entry it is held, and the held source's wake is
the first once entry has completed. -/
def Sys.wake (s : Sys) (source ticks : Nat) (found : ClockFindings) : Sys :=
  let enabled := 1 ≤ source && s.bit ⟨PWR_SBCFG, 0, 3⟩ (source - 1)
  match s.pwr.wakeHeld with
  | some k => if s.pwr.standby = 3 then s.wakeUp k ticks found else s
  | none =>
    if !enabled || s.pwr.standby = 0 then s
    else if s.pwr.standby = 3 then s.wakeUp source ticks found
    else { s with pwr := { s.pwr with wakeHeld := some source } }

def execWake (source : Fin 4) (ticks : Nat) (found : ClockFindings) (s : State) : Host.Outcome State Fault Refusal :=
  run (fun y => y.wake source.val ticks found) s

end Sys2Proof.Machine
end

