-- ==== Sys2Proof/Machine/Cycle.lean ====
section
/-!
DEFINITION. The program cycle outside the lanes: its start and the cycle context (R58, R63, R109), the collector close (R20, R21,
R267), the change queue of seam 3 (R122 to R124), the vote (R71, R74 to R79, R91, R96, R97), and Emit with the cuff (R98 to R100),
the register copies and the point mirror (R24 to R26, R81); spec/01_architecture.md, spec/03_lanes_and_voting.md,
spec/04_cycle_engine.md.
-/
namespace Sys2Proof.Machine

/-! ## The start of a cycle -/

/-- A lane that is ready enters VOTING, with 0x1203 after a reintegration (R70, R91). -/
def Sys.enterVoting (s : Sys) (n : Fin 4) : Sys :=
  let s1 := s.setLaneState n laneVoting
  if s.laneState n = laneShadow then s1.laneNote 0x1203 n else s1

/-- The context of cycle `n` captured at its start (R63, R109). -/
def Sys.captureContext (s : Sys) (first : Bool) : Sys :=
  let adj := s.get RTC_STAT_ADJCNT
  { s with
    ctx := { cycle := s.ang.cycle, time := s.ang.start, rtcs := s.rtc.sec, rtcf := s.rtc.sub, rtcok := s.on RTC_STAT_VALID,
             rtcadj := adj != s.rtc.lastAdj, angs := s.get ANG_STAT_STATE, first := first, cold := first && s.upd.cold,
             restore := first && s.upd.restore }
    rtc := { s.rtc with lastAdj := adj }
    upd := { s.upd with restore := s.upd.restore && !first, cold := s.upd.cold && !first } }

/-- The next cycle may start: none waits for an activation's cut-over or for a restart. -/
def Sys.mayStart (s : Sys) : Bool :=
  s.cycling && !s.vot.restart && !(s.upd.activating && s.ang.begun && s.upd.lastOld ≤ s.ang.cycle)

/-- The grid moved on to the cycle that starts. -/
def Sys.nextCycle (s : Sys) : Sys :=
  { s with ang := if s.ang.begun then { s.ang with cycle := s.ang.cycle + 1, start := s.ang.start + s.cycleLen, first := false } else { s.ang with begun := true } }

/-- R58: a program cycle starts. -/
def Sys.cycleStart (s0 : Sys) : Sys :=
  if !s0.mayStart then s0
  else
    let s1 := s0.nextCycle
    let s := s1.reach s1.ang.start
    let first := s.ang.first
    let s2 := { s with
      ang := { s.ang with first := false }
      col := { s.col with closed := false, openCycle := s.ang.cycle }
      vot := { s.vot with voted := false, emitted := false, splitBefore := s.vot.split, split := false, duplex := false, valid := false,
                          late := false, ready := [] }
      prog := { s.prog with latched := false }
      lanes := s.lanes.map fun l => { l with computed := false, done := false } }
    let s3 := (s.vot.ready.foldl Sys.enterVoting s2).updateMode.startNext
    let s4 := if first && s3.upd.announce then s3.setWord UPD_ACYC s.ang.cycle else s3
    s4.captureContext first

def execCycleStart (s : State) : Host.Outcome State Fault Refusal := run Sys.cycleStart s

/-! ## The change queue (R122 to R124) -/

/-- CYC_CHGST shows the entries waiting. -/
def Sys.showFill (s : Sys) : Sys := s.put CYC_CHGST_FILL s.chg.queue.length

/-- An entry offered: the code it is refused with, or 0 and the sequence number it is stamped with. -/
def Sys.offer (s : Sys) (origin locker index kind value : Nat) : Sys × Nat × Nat :=
  if kind = 3 && (origin = 3 || (index != 1 && index != 2)) then (s.post 0x1308 locker [(index, 4), (kind, 1)], 0x1308, 0)
  else if 4096 ≤ s.chg.queue.length then (s.post 0x1307 locker [], 0x1307, 0)
  else
    let q := s.chg.nextSeq
    let c : Change := { index := index, kind := kind, origin := origin, locker := locker, refused := false, seq := q, value := value }
    (Sys.showFill { s with chg := { s.chg with nextSeq := q % 0xFFFFFFFF + 1, queue := s.chg.queue ++ [c] } }, 0, q)

/-- GO of a staging set: origin 1 is the host's, origin 2 the firmware's. -/
def Sys.submit (s : Sys) (target low high code seq origin : Nat) : Sys :=
  let r := s.offer origin 0 (bits (s.word target) 0 17) (bits (s.word target) 17 2) (s.word low + 2 ^ 32 * s.word high)
  let s1 := r.1.setWord code r.2.1
  if r.2.1 = 0 then s1.setWord seq r.2.2 else s1

/-- A write of CYC_xSUBG.GO. -/
def Sys.changeSubmit (s : Sys) (who : Agent) : Sys :=
  match who with
  | .host => s.submit CYC_HSUBT CYC_HSUBL CYC_HSUBH CYC_HSUBR CYC_HSUBS 1
  | .mgmt => s.submit CYC_MSUBT CYC_MSUBL CYC_MSUBH CYC_MSUBR CYC_MSUBS 2

def execChangeSubmit (who : Agent) (s : State) : Host.Outcome State Fault Refusal := run (fun y => y.changeSubmit who) s

/-- The 16 bytes of an entry (R123). -/
def Change.bytes (c : Change) : Nat := pack [(c.index + 2 ^ 17 * c.kind + 2 ^ 19 * c.origin + 2 ^ 21 * c.locker, 4), (c.seq, 4), (c.value, 8)]

/-- The batch of the cycle sealed and copied into every lane that receives seam 3 (R124). That of a set's first cycle is empty (R112). -/
def Sys.sealBatch (s : Sys) : Sys :=
  let k := if s.ctx.first then 0 else s.prog.chgmax
  let b := s.chg.queue.take k
  let s1 := { s with chg := { s.chg with batch := b, batchCycle := s.ang.cycle, queue := s.chg.queue.drop k } }
  (allLanes.filter fun n => s1.receives n).foldl (fun s n =>
    let s2 := (mapIx (fun i c => (i, c)) 0 b).foldl (fun (s : Sys) x => s.wr (laneBase n + 0x520000 + 16 * x.1) 16 x.2.bytes) s
    { s2 with chg := { s2.chg with batches := s2.chg.batches.set n b } }) s1.showFill

/-! ## The collector close (R20, R21, R108, R244, R267) -/

/-- The cycle context written into control SRAM (R109); the quality words are there already. -/
def Sys.writeContext (s : Sys) : Sys :=
  let c := s.ctx
  let flag := fun (b : Bool) (k : Nat) => if b then 2 ^ k else 0
  s.wr 0x201A0000 32 (pack [(c.cycle, 8), (c.time, 8), (c.rtcs, 4), (c.rtcf + flag c.rtcok 15 + flag c.rtcadj 16, 4), (c.angs, 4),
    (flag c.first 0 + flag c.cold 1 + flag c.restore 2, 4)])

/-- The sources that test records name, while TESTEN is 1. -/
def Sys.testSources (s : Sys) : List Nat :=
  if s.on FAB_CTL_TESTEN then let x := sectionOf s.image 0x0A; (List.range x.count).map fun i => memRead s.image (x.entry i) 4 % 65536 else []

/-- A quality word as the collector delivers it. -/
def Sys.deliveredQuality (s : Sys) (src : Nat) : Nat :=
  let q := s.rd (0x201A0000 + qualityOffset src) 2
  if s.on FAB_CTL_TESTEN then q ||| testMask s.image src else q

/-- The bank and the context copied into a lane. -/
def Sys.multicast (s : Sys) (n : Fin 4) : Sys :=
  let b := laneBase n
  let m := memCopy (memCopy s.mem (b + 0x280000) s.openBank 0x80000) (b + 0x530000) 0x201A0000 0x1000
  s.testSources.foldl (fun s' src => s'.wr (b + 0x530000 + qualityOffset src) 2 (s.deliveredQuality src)) { s with mem := m }

/-- The other bank opens for the next cycle, filled with the words of the one that closes. -/
def Sys.flipBank (s : Sys) : Sys :=
  let new := if s.col.bankB then 0x20000000 else 0x20080000
  { s with mem := memCopy s.mem new s.openBank 0x80000, col := { bankB := !s.col.bankB, closed := true, openCycle := s.ang.cycle + 1 } }

/-- The quality of the metering sources (R225). -/
def Sys.meterSources (s : Sys) : Sys := ((mapIx (fun i q => (i, q)) 0 s.meterQuality).foldl (fun s x => s.setQuality (208 + x.1) x.2) s).clearMeterMarks

/-- R21: the collector closes, 1,024 au before PHG. -/
def Sys.collectorClose (s0 : Sys) : Sys :=
  if !s0.cycling || !s0.ang.begun || s0.col.closed then s0
  else
    let s := s0.reach (s0.ang.start + s0.ang.phg - 1024)
    let s1 := ((s.closeStations s.ang.cycle).localSources.meterSources).writeContext
    let s2 := (allLanes.filter fun n => s1.receives n).foldl Sys.multicast s1
    s2.sealBatch.flipBank

def execCollectorClose (s : State) : Host.Outcome State Fault Refusal := run Sys.collectorClose s

/-! ## Comparing regions (R74, R77, R78) -/

/-- What the voter finds in a region: the voted words, the lanes that lost a word, whether a word had no majority, and the first
mismatch with its lanes. -/
structure RegionVote where
  words : List Nat
  losers : List (Fin 4)
  bad : Bool
  first : Option (Nat × List (Fin 4))
deriving DecidableEq, Repr

/-- One word: its majority value with the lanes that differ; without a majority, all of them. -/
def wordVote (xs : List (Fin 4 × Nat)) : Nat × List (Fin 4) × Bool :=
  match xs.find? fun x => xs.length < 2 * (xs.filter fun y => y.2 == x.2).length with
  | some x => (x.2, (xs.filter fun y => y.2 != x.2).map fun y => y.1, false)
  | none => ((xs.head?.map fun x => x.2).getD 0, xs.map fun y => y.1, true)

/-- The lanes of a list of lanes that another does not hold yet added. -/
def joinLanes (a b : List (Fin 4)) : List (Fin 4) := a ++ b.filter fun n => !a.contains n

/-- The words of a region from the last to the first; `ix` is the index of the first of them. -/
def regionVote : Nat → Nat → List (Fin 4 × List Nat) → RegionVote
  | 0, _, _ => ⟨[], [], false, none⟩
  | k + 1, ix, rows =>
    let w := wordVote (rows.map fun r => (r.1, r.2.headD 0))
    let rest := regionVote k (ix + 1) (rows.map fun r => (r.1, r.2.tail))
    ⟨w.1 :: rest.words, joinLanes (if w.2.2 then [] else w.2.1) rest.losers, w.2.2 || rest.bad, if w.2.1.isEmpty then rest.first else some (ix, w.2.1)⟩

/-- The rows of a region compared. -/
def compareRows (rows : List (Fin 4 × List Nat)) : RegionVote := regionVote ((rows.head?.map fun r => r.2.length).getD 0) 0 rows

/-- Entries of a publish list put in ascending point order. -/
def insertEntry (x : Nat × Nat) : List (Nat × Nat) → List (Nat × Nat)
  | [] => [x]
  | y :: ys => if x.1 ≤ y.1 then x :: y :: ys else y :: insertEntry x ys

/-- The points that a lane's publish list covers, ascending (R105). -/
def Sys.publishedPoints (s : Sys) (n : Fin 4) : List Nat :=
  (((s.publishList n).foldr insertEntry []).map fun e => (List.range e.2).map fun i => e.1 + i).flatten

/-- The words of a region of a lane: output image, energy, digest. -/
def Sys.regionWords (s : Sys) (n : Fin 4) (region : Nat) : List Nat :=
  if region = 0 then (s.publishedPoints n).map fun p => s.lrd n (outBase + 4 * p) 4
  else if region = 1 then (List.range ((s.laneMeter n).energyEnd / 4)).map fun i => s.lrd n (snapBase + 4 * i) 4
  else [s.word (VOT_LDIGL n.val), s.word (VOT_LDIGH n.val)]

/-- The regions voted in a cycle. -/
def regionsOf (cycle : Nat) : List Nat := if cycle % 16 = 15 then [0, 1, 2] else [0, 1]

/-- VOT_MIS takes the first mismatch since it was last read. -/
def Sys.noteMismatch (s : Sys) (region : Nat) (m : Option (Nat × List (Fin 4))) : Sys :=
  match m with
  | none => s
  | some x => if s.word VOT_MIS = 0 then ((s.put VOT_MIS_REGION region).put VOT_MIS_LANES (laneMask x.2)).put VOT_MIS_WORD x.1 else s

/-! ## The vote -/

/-- R71: the lane has ended Compute of the cycle by PHC; a target that has not run Compute yet is not judged. -/
def Sys.inTime (s : Sys) (n : Fin 4) : Bool :=
  let l := s.lane n
  (l.done && l.doneCycle == some s.ang.cycle && l.doneAt ≤ s.ang.start + s.ang.phc) || (s.laneState n == laneShadow && s.ang.cycle < l.fromCycle)

/-- The lanes that missed PHC removed. -/
def Sys.deadline (s : Sys) : Sys := (allLanes.filter fun n => s.runs n && !s.inTime n).foldl (fun s n => s.removeLane n 4) s

/-- R71: what PHC brings, be the vote in time or not: the exchange's second queues are aborted (R300) and the late lanes removed. -/
def Sys.atPhc (s : Sys) : Sys := ((s.reach (s.ang.start + s.ang.phc)).abortHitil true).deadline

/-- R91: the SHADOW lanes compared with what was voted; agreement in a digest cycle makes a lane ready. -/
def Sys.compareShadows (s : Sys) (voted : List (Nat × List Nat)) : Sys :=
  (allLanes.filter fun n => s.laneState n == laneShadow && s.inTime n && (s.lane n).done).foldl (fun s n =>
    match voted.find? fun v => s.regionWords n v.1 != v.2 with
    | some v =>
      let r := regionVote v.2.length 0 [(n, s.regionWords n v.1), (n, v.2)]
      (s.noteMismatch v.1 (r.first.map fun x => (x.1, [n]))).removeLane n 7
    | none => if s.ang.cycle % 16 = 15 then { s with vot := { s.vot with ready := s.vot.ready ++ [n] } } else s) s

/-- The voted image by point. -/
def Sys.votedImage (s : Sys) (n : Fin 4) (words : List Nat) : List (Nat × Nat) := (s.publishedPoints n).zip words

/-- Two or three counted lanes (R77, R78, R79). -/
def Sys.voteMany (s : Sys) (vs : List (Fin 4)) : Sys :=
  let rs := (regionsOf s.ang.cycle).map fun k => (k, compareRows (vs.map fun n => (n, s.regionWords n k)))
  let s1 := rs.foldl (fun s r => s.noteMismatch r.1 r.2.first) s
  let energy := (rs.find? fun r => r.1 == 1).map fun r => r.2
  let agree := match energy with
    | some e => if e.bad then [] else vs.filter fun n => !e.losers.contains n
    | none => []
  let s2 := s1.put VOT_STAT_AGREE (laneMask agree)
  match rs.find? fun r => r.2.bad with
  | some r =>
    let s3 := s2.post 0x120A 0 [(r.1, 1)]
    if vs.length = 2 then { s3 with vot := { s3.vot with valid := false, duplex := true, dupRun := s3.vot.dupRun + 1 } }
    else
      let s4 := { s3 with vot := { s3.vot with valid := false, split := true, dupRun := 0 } }
      if s4.vot.splitBefore then s4.requestRestart else s4
  | none =>
    let voted := rs.map fun r => (r.1, r.2.words)
    let image := match rs with
      | r :: _ => s.votedImage (vs.headD 0) r.2.words
      | [] => []
    let lost := rs.foldl (fun (acc : List (Fin 4 × Nat)) r => acc ++ (r.2.losers.filter fun n => !acc.any fun a => a.1 == n).map fun n => (n, r.1 + 1)) []
    let s3 := { s2 with vot := { s2.vot with valid := true, dupRun := 0, image := image } }
    (lost.foldl (fun s x => s.removeLane x.1 x.2) s3).compareShadows voted

/-- One counted lane (R96, R97): its image counts while the permit is set. DESIGN CHOICE: without the permit its image is not valid, and
the SHADOW lanes are still compared with it, so that a second lane can reach VOTING (R97; notes/assumptions/123.md). -/
def Sys.voteOne (s : Sys) (n : Fin 4) : Sys :=
  let voted := (regionsOf s.ang.cycle).map fun k => (k, s.regionWords n k)
  let s1 := s.put VOT_STAT_AGREE (laneMask [n])
  let permit := s.on VOT_PERMIT_SOLO
  let s2 := if permit && !s.on VOT_STAT_SOLOUSE then s1.note 0x1214 else s1
  let s3 := { s2 with vot := { s2.vot with valid := permit, refused := !permit, dupRun := 0, solo := permit,
                                           image := if permit then s.votedImage n (s.regionWords n 0) else s2.vot.image } }
  s3.compareShadows voted

/-- What follows a vote: the lists to report, and the retentive save that a snapshot cycle makes due (R118). -/
def Sys.afterVote (s : Sys) : Sys :=
  let s1 := { s with vot := { s.vot with loopsDue := true, metersDue := true, refusedDue := true } }
  if s1.snapshotCycle s1.ang.cycle then
    let s2 := if s1.prog.snapCycle.isSome then (s1.incSat CYC_RSTAT_SKIPS).note 0x1309 else s1
    { s2 with prog := { s2.prog with snapCycle := some s2.ang.cycle } }
  else s1

/-- The vote of the cycle runs: VOT_VCYCL shows it. -/
def Sys.countVote (s : Sys) : Sys := { s.setWord VOT_VCYCL s.ang.cycle with vot := { s.vot with lastCycle := s.ang.cycle } }

/-- R74: the vote, at PHC. With no lane there is none: AGREE and VOT_VCYCL keep the last (R96, notes/assumptions/125.md). -/
def Sys.vote (s0 : Sys) : Sys :=
  if !s0.cycling || !s0.ang.begun || s0.vot.voted || s0.vot.emitted || !s0.col.closed then s0
  else
    let s1 := s0.atPhc
    let s2 := { s1 with vot := { s1.vot with voted := true, valid := false, refused := false, solo := false } }
    let s3 := match s2.voters with
      | [] => s2
      | [n] => (s2.countVote.voteOne n).afterVote
      | vs => (s2.countVote.voteMany vs).afterVote
    s3.putB VOT_STAT_SOLOUSE s3.vot.solo

def execVote (s : State) : Host.Outcome State Fault Refusal := run Sys.vote s

/-- VOT_VCYCL: a read latches the upper bits. -/
def Sys.vcyclRead (s : Sys) : Sys := (s.setWord VOT_VCYCH (s.vot.lastCycle / 2 ^ 32)).answer (s.word VOT_VCYCL)

def execVotVcyclRead (_who : Agent) (s : State) : Host.Outcome State Fault Refusal := run Sys.vcyclRead s

/-! ## The cuff (R98 to R100) -/

/-- The cuff releases every local output. -/
def Sys.cuffRelease (s : Sys) : Sys :=
  let s1 := { s.releaseAll.put VOT_STAT_CUFF cuffReleased with vot := { s.vot with validRun := 0 } }
  if s.get VOT_STAT_CUFF = cuffReleased then s1 else s1.note 0x120C

/-- The voted words loaded into the output stage. -/
def Sys.loadStage (s : Sys) : Sys :=
  let s1 := s.vot.image.foldl (fun s x => s.wr (0x20100000 + 4 * x.1) 4 x.2) s
  { s1 with
    mi := { s1.mi with droppedPoints := [] }
    fab := { s1.fab with channels := s1.fab.channels.map fun c => (c.1, { c.2 with fresh := false }) } }

/-- A cycle with a valid output image. -/
def Sys.cuffValid (s : Sys) : Sys :=
  let s1 := s.loadStage.put VOT_STAT_HOLDCNT 0
  let run := s1.vot.validRun + 1
  let s2 := { s1 with vot := { s1.vot with validRun := run } }
  if s2.get VOT_STAT_CUFF = cuffReleased then
    if s2.get VOT_CUFF_REARMN ≤ run then (s2.put VOT_STAT_CUFF cuffLive).note 0x120D else s2
  else s2.put VOT_STAT_CUFF cuffLive

/-- A cycle without one. The cuff releases in the cycle that would raise HOLDCNT above HOLD; a duplex disagreement that lasts until then
asks for the restart (R85, R99). -/
def Sys.cuffInvalid (s : Sys) : Sys :=
  let s1 := s.incSat VOT_STAT_HOLDCNT
  let s2 := { s1 with vot := { s1.vot with validRun := 0 } }
  if s2.vot.refused then s2.cuffRelease
  else
    let s3 := if s2.get VOT_STAT_CUFF = cuffLive then (s2.put VOT_STAT_CUFF cuffHolding).note 0x120B else s2
    if s3.get VOT_STAT_CUFF = cuffHolding && s.get VOT_CUFF_HOLD ≤ s.get VOT_STAT_HOLDCNT then
      let s4 := s3.cuffRelease
      if s3.vot.duplex then s4.requestRestart else s4
    else s3

/-- R78: PHV has come without a vote. With lanes to vote on, the voter has not finished: which region 0x120A then names is open. With
one lane and no permit, or no lane, the mode has no vote (R96). -/
def Sys.lateVote (s : Sys) : Sys :=
  if s.vot.voted then s
  else
    let vs := s.voters
    let refused := vs.length == 1 && !s.on VOT_PERMIT_SOLO
    let none_ := vs.isEmpty || refused
    let s1 := { s with vot := { s.vot with late := !none_, valid := false, refused := refused, dupRun := 0 } }
    if none_ then s1 else let d := s1.draw; (d.2.note 0x120F).post 0x120A 0 [(d.1 % 3, 1)]

/-! ## Register copies at PHV -/

/-- The CYC registers copied from a lane's runtime status record; CYC_CAPS and CYC_CAPC stay while a lane that was loaded anew has applied
no entry (R122). -/
def Sys.copyRuntime (s : Sys) (n : Fin 4) : Sys :=
  let r := (s.lane n).rt
  let s1 := ((s.put CYC_STAT_STATE r.state).put CYC_STAT_OVRCNT (Nat.min r.overruns 255)).put CYC_STAT_HCAUSE r.hcause
  let s2 := (s1.setWord CYC_USED (Nat.min r.used 0xFFFFFFFF)).setWord CYC_PEAK (Nat.min r.peak 0xFFFFFFFF)
  let s3 := if r.fltValid then
      ((((s2.put CYC_FLT_VALID 1).put CYC_FLT_CLASS r.fltClass).put CYC_FLT_TASK r.fltTask).put CYC_FLT_OFFSET r.fltOffset).setWord CYC_FLTCY r.fltCycle
    else s2
  if r.caps = 0 then s3 else (s3.setWord CYC_CAPS r.caps).setWord CYC_CAPC r.capc

/-- The window of the selected slot, as copied at the last PHV. -/
def Sys.showSlot (s : Sys) : Sys :=
  (List.range 16).foldl (fun s w => s.setWord (LOOP_SWIN w) (memRead s.prog.loopSlots (64 * s.get LOOP_SSEL_SLOT + 4 * w) 4)) s

/-- A trace channel's registers. -/
def Sys.showTrace (n : Fin 4) (s : Sys) (c : Nat) : Sys :=
  match (s.lane n).traces[c]? with
  | none => s
  | some t =>
    let slot := (s.traceCfg n c).slot
    let s1 := ((s.put (LOOP_TRS_STATE c) t.state).put (LOOP_TRS_TIDX c) t.tidx).put (LOOP_TRS_WIDX c) t.widx
    let s2 := s1.setWord (LOOP_TRC c) t.cycle
    if (s.traceCfg n c).en then (s2.put (LOOP_TRL_SLOT c) slot).put (LOOP_TRL_LOCKER c) (s.pointLocker (s.loopPar n slot).outPoint) else s2

/-- The LOOP registers copied from a lane. -/
def Sys.copyLoops (s : Sys) (n : Fin 4) : Sys :=
  let used := s.slotsUsed n
  let count := fun (k : Nat) => (used.filter fun i => (s.loopRec n i).has k).length
  let s1 := (((s.put LOOP_CFG_CFG used.length).setWord LOOP_CHG (150 * used.length)).put LOOP_TRIPS_PVBAD (count stPvbad)).put LOOP_TRIPS_TRIP (count stTrip)
  let b := laneBase n + 0x380000
  let s2 := { s1 with prog := { s1.prog with loopSlots := ((srange s.mem b (b + 0x80000)).map fun (c : Host.Cell) => ((c.1 - b, c.2) : Host.Cell)).filter fun (c : Host.Cell) => used.contains (c.1 / 64) } }
  (List.range 16).foldl (Sys.showTrace n) s2.showSlot

/-- The runtime's events carried to the recorder, from a lane in AGREE. -/
def Sys.carryPosts (s : Sys) : Sys :=
  let s1 := match s.agreeLane with
    | some n => (s.lane n).posts.foldl (fun (s : Sys) (p : Post) => s.postBy p.req p.code p.locker p.data) s
    | none => s
  { s1 with lanes := s1.lanes.map fun l => { l with posts := [] } }

/-- At PHV of a voted cycle. -/
def Sys.copyRegisters (s : Sys) : Sys :=
  match s.agreeLane with
  | some n => if s.vot.valid then (s.copyRuntime n).copyLoops n else s
  | none => s

/-! ## The point mirror (R24 to R26, R81) -/

/-- The logic image of the set in use, for its class and source maps. -/
def Sys.logicAt (s : Sys) : Nat := (s.sourcePart partLogic).1

/-- The class of a point under the set in use. -/
def Sys.classOf (s : Sys) (p : Nat) : Nat := bits (s.rd (s.logicAt + s.rd (s.logicAt + 0x1C) 4 + p / 4) 1) (2 * (p % 4)) 2

/-- The quality of an input point in this cycle. -/
def Sys.inputQuality (s : Sys) (p : Nat) : Nat :=
  let src := s.rd (s.logicAt + s.rd (s.logicAt + 0x20) 4 + 2 * p) 2
  if src = 0xFFFF then 0 else s.deliveredQuality src

/-- The value and the quality that the cycle gives a point's record: of inputs always, of the other points with a valid image (R24, R81). -/
def Sys.mirrorValue (s : Sys) (p : Nat) : Option (Nat × Nat) :=
  let c := s.classOf p
  let bank := if s.col.bankB then 0x20000000 else 0x20080000
  if c = 1 then some (s.rd (bank + 4 * p) 4, s.inputQuality p)
  else if c != 0 && s.vot.valid then some (s.stageWord p, 0)
  else none

/-- A record written: SEQ rises by one before and by one after (R25). -/
def Sys.mirrorWrite (s : Sys) (p value quality locker : Nat) : Sys :=
  let a := 0x80000000 + 32 * p
  Sys.heal (s.wr a 32 (pack [(value, 4), (quality, 2), (locker, 2), (s.ang.cycle, 8), (s.ang.start, 8), (s.rd (a + 0x18) 4 + 2, 4), (0, 4)])) a 32

/-- The records that the cycle has to write: point, value, quality, locker. -/
def Sys.mirrorDue (s : Sys) : List (Nat × Nat × Nat × Nat) :=
  (((pointRanges s.image).filter fun r => r.mirror).map fun r =>
    (List.range r.count).filterMap fun i => (s.mirrorValue (r.first + i)).map fun v => (r.first + i, v.1, v.2, r.locker)).flatten

/-- The records of the cycle (R24 to R26). Those that the writer does not reach before the next cycle starts keep what they hold; which
these are is open (notes/assumptions/128.md). While the data plane or the DRAM is away the writes are discarded and counted (R18, R387);
how many a record takes is open. -/
def Sys.mirror (s : Sys) : Sys :=
  match s.dramGap with
  | none => (s.mirrorDue.filter fun x => Config.mirrorReached s.ang.cycle x.1).foldl (fun y x => y.mirrorWrite x.1 x.2.1 x.2.2.1 x.2.2.2) s
  | some d => if s.mirrorDue.isEmpty then s else let w := s.draw; w.2.dropWrites d (s.mirrorDue.length + w.1)

/-! ## Emit -/

/-- R448 step 11, R451: the first valid image of a new set. -/
def Sys.announceSet (s : Sys) : Sys :=
  if s.upd.announce && s.vot.valid then
    let s1 := s.post 0x0811 0 [(s.word UPD_SETID, 4), (s.word UPD_ACYC, 4)]
    let cold := s.get UPD_STAT_STATE = updLoading
    let s2 := s1.put UPD_STAT_STATE updRun
    { (if cold then s2.put UPD_STAT_PANTRY pantryEmpty else s2) with upd := { s2.upd with announce := false } }
  else s

/-- The cuff's state at PHV; a standby that was asked for releases it (R389). -/
def Sys.cuffAtPhv (s : Sys) : Sys :=
  let s1 := if s.vot.valid then s.cuffValid else s.cuffInvalid
  if s.pwr.standby = 1 then s1.cuffRelease else s1

/-- R98: Emit starts, also in a cycle that has asked for a restart (R81, R85). -/
def Sys.emitStart (s0 : Sys) : Sys :=
  if !s0.cycling || !s0.ang.begun || s0.vot.emitted || !s0.col.closed then s0
  else
    let s := ((if s0.vot.voted then s0 else s0.atPhc).reach (s0.ang.start + s0.ang.phv)).lateVote
    let s1 := Sys.cuffAtPhv { s with vot := { s.vot with emitted := true } }
    let s2 := (((s1.copyRegisters.carryPosts).mirror).hitEmit).announceSet
    if s2.pwr.standby = 1 then s2.enterStandby else s2

def execEmitStart (s : State) : Host.Outcome State Fault Refusal := run Sys.emitStart s

/-! ## The control-plane restart (R455, R456) -/

/-- The restart runs unless the planes are held for a clock. -/
def execControlPlaneRestart (temperature : Int) (s : State) : Host.Outcome State Fault Refusal :=
  run (fun y => if y.pwr.inReset || y.clk.planesHeld || y.pwr.standby == 3 then y else y.controlRestart temperature) s

end Sys2Proof.Machine
end

