-- ==== Sys2Proof/Machine/Checks.lean ====
section
/-!
DEFINITION. The activation checks of R450 in their order: the structure image (R245, spec/08_structure_image_and_fabric.md), the logic
image (R102, R114, spec/04_cycle_engine.md; R135, spec/05_logic_instruction_set.md), the loop image (R169, spec/06_loop_engine.md), the
metering image (R207, R229, spec/07_metering.md), the station table and the schedule (R271 to R273, spec/09_hitil_station_exchange.md),
the phase boundaries (R60, spec/02_mains_angle_clock.md), the budget and the voter's run (R73, R76, spec/03_lanes_and_voting.md).
-/
namespace Sys2Proof.Machine

/-- What a check found: the code it refuses with and the values of the event's data. -/
abbrev Finding : Type := Nat × List (Nat × Nat)

/-- The first finding of several checks. -/
def firstFinding (l : List (Option Finding)) : Option Finding := (l.filterMap id).head?

/-- A finding when a condition holds. -/
def findIf (b : Bool) (f : Finding) : Option Finding := if b then some f else none

/-- The first of the items 0 to `n` − 1 that a condition holds for. -/
def firstItem (n : Nat) (bad : Nat → Bool) (f : Nat → Finding) : Option Finding := ((List.range n).find? bad).map f

/-- A row holds an element twice. -/
def repeats (xs : List Nat) : Bool := xs != xs.eraseDups

/-! ## The pending angle values -/

/-- The pending N, cycle length and boundaries (R60). -/
def Sys.pendL (s : Sys) : Nat := s.get ANG_CYC_N * 32768
def Sys.pendPhg (s : Sys) : Nat := s.get ANG_PHG_AU
def Sys.pendPhc (s : Sys) : Nat := s.get ANG_PHC_AU
def Sys.pendPhv (s : Sys) : Nat := s.get ANG_PHV_AU

/-! ## The structure image (R245) -/

abbrev structFinding (ty ix : Nat) : Finding := (0x1002, [(ty, 1), (ix, 2)])

/-- FORMAT, LENGTH and SECCNT (R237). -/
def structHeaderBad (m : List Host.Cell) (len : Nat) : Bool :=
  let l := memRead m 4 4
  let n := memRead m 8 4
  memRead m 0 4 != 0x100 || l % 32 != 0 || 0x400000 < l || l != len || n < 3 || 10 < n

/-- ESIZE with the least and the greatest COUNT of a section type (R238); those of the station table are R271's. -/
def sectionShape (ty : Nat) : Option (Nat × Nat × Nat) :=
  if ty = 1 then some (8, 6, 6) else if ty = 2 then some (32, 192, 192) else if ty = 3 then some (16, 0, 16) else if ty = 4 then some (16, 0, 16384)
  else if ty = 5 then some (8, 0, 16) else if ty = 6 then some (8, 0, 1023) else if ty = 7 then some (16, 9, 9) else if ty = 9 then some (32, 1, 1)
  else if ty = 10 then some (8, 0, 64) else none

/-- Directory entry `i` breaks R237 or R238, or its section lies outside LENGTH. -/
def directoryBad (m : List Host.Cell) (i : Nat) : Bool :=
  let w := fun (j k : Nat) => memRead m (0x40 + 16 * j + 4 * k) 4
  let shape := match sectionShape (w i 0) with
    | some x => w i 3 == x.1 && x.2.1 ≤ w i 2 && w i 2 ≤ x.2.2
    | none => w i 0 == 8
  !shape || w i 1 % 32 != 0 || memRead m 4 4 < w i 1 + w i 2 * w i 3 || (List.range i).any fun j => w j 0 == w i 0

/-- The functions that deliver an input point, and those that take an output point (R246). -/
def inputFunc (f : Nat) : Bool := f == 1 || f == 3 || f == 5
def outputFunc (f : Nat) : Bool := f == 2 || f == 4 || f == 6 || f == 9

/-- P1 and P2 of a function (R246). -/
def paramsBad (f p1 p2 : Nat) : Bool :=
  if f = 3 then decide (6 < p2 / 2 ^ 16)
  else if f = 5 then p1 < 1000 || 10000000 < p1 || p2 == 0 || 65535 < p2
  else if f = 6 then p1 < 1000 || 200000000 < p1 || p2 != 0
  else if f = 9 then 65535 < p1 || p2 != 0
  else p1 != 0 || p2 != 0

/-- A channel's part in the DALI line records agrees with its function (R246, R252). -/
def daliFits (m : List Host.Cell) (k f : Nat) : Bool :=
  let tx := ((lineRecs m).filter fun r => r.tx == k).length
  let rx := ((lineRecs m).filter fun r => r.rx == k).length
  if f = 7 then tx == 1 && rx == 0 else if f = 8 then tx == 0 && rx == 1 else tx == 0 && rx == 0

/-- Record `k` breaks R240, or the function table, or lies in an unused bank (R239). -/
def channelBad (m : List Host.Cell) (k : Nat) : Bool :=
  let r := chanRec m k
  let f := r.func
  let digital := f == 1 || f == 5
  let applies := outputFunc f || f == 7
  r.uc != k || 9 < f || (bankVio m (k / 32) == 0 && f != 0) || (f == 3 && 63 < k) || (f == 4 && 15 < k)
    || (r.inv && !(digital || f == 2 || f == 6 || f == 9)) || (r.auxen && !(digital || f == 9)) || (!r.auxen && r.auxpt != 0)
    || (r.appdef && !applies) || (r.apply != 0 && (!applies || r.appdef)) || (r.point != 0 && !inputFunc f && !outputFunc f)
    || (!digital && (r.deb != 0 || r.chmax != 0)) || ((r.chwin == 0) != (r.chmax == 0)) || (r.tout != 0 && !(f == 1 || f == 3))
    || paramsBad f r.p1 r.p2 || !daliFits m k f

/-- DALI line record `i` breaks R252: its channels' functions, or a LINE that another record has too. -/
def lineBad (m : List Host.Cell) (i : Nat) : Bool :=
  (lineRecs m)[i]?.any fun r => 191 < r.tx || 191 < r.rx || (chanRec m r.tx).func != 7 || (chanRec m r.rx).func != 8
    || 1 < ((lineRecs m).filter fun x => x.line == r.line).length

/-- The points that a channel record names. -/
def channelPoints (m : List Host.Cell) (k : Nat) : List Nat :=
  let r := chanRec m k
  (if inputFunc r.func || outputFunc r.func then [r.point] else []) ++ if r.auxen then [r.auxpt] else []

/-- A point lies in a run of a station. -/
def StationRec.names (r : StationRec) (p : Nat) : Bool := (r.infirst ≤ p && p < r.infirst + r.incnt) || (r.outfirst ≤ p && p < r.outfirst + r.outcnt)

/-- Channel `k` names a point that another record names too. -/
def channelClash (m : List Host.Cell) (k : Nat) : Bool :=
  (channelPoints m k).any fun p =>
    ((allChannels.filter fun j => j != k).any fun j => (channelPoints m j).contains p)
      || ((lineRecs m).any fun r => r.cmdpt == p || r.rsppt == p) || (stationRecs m).any fun r => r.names p

/-- The points of a run that exist. -/
def runPoints (first cnt : Nat) : List Nat := (List.range (Nat.min cnt (131072 - first))).map fun i => first + i

/-- The points that records name have the class in the logic image that their use asks for (1 input, 2 output). -/
def channelClassBad (m : List Host.Cell) (cls : Nat → Nat) (k : Nat) : Bool :=
  let r := chanRec m k
  (inputFunc r.func && cls r.point != 1) || (outputFunc r.func && cls r.point != 2) || (r.auxen && cls r.auxpt != 1)

def lineClassBad (cls : Nat → Nat) (r : LineRec) : Bool := cls r.cmdpt != 2 || cls r.rsppt != 1

def stationClassBad (cls : Nat → Nat) (r : StationRec) : Bool :=
  ((runPoints r.infirst r.incnt).any fun p => cls p != 1) || (runPoints r.outfirst r.outcnt).any fun p => cls p != 2

/-- A range that overlaps another, ends beyond the last point, or names a locker without a record. -/
def rangeClash (m : List Host.Cell) (i : Nat) : Bool :=
  let rs := pointRanges m
  let r := nth ⟨0, 0, 0, false, 0⟩ rs i
  131072 < r.first + r.count || (lockerRec m r.locker).isNone
    || (List.range rs.length).any fun j => let q := nth ⟨0, 0, 0, false, 0⟩ rs j; j != i && r.first < q.first + q.count && q.first < r.first + r.count

/-- Word `k` of entry `i` of a section. -/
def entryWord (m : List Host.Cell) (ty i k : Nat) : Nat := memRead m ((sectionOf m ty).entry i + 4 * k) 4

/-- A scan class record breaks R242, or another before it names its class. -/
def scanBad (m : List Host.Cell) (i : Nat) : Bool :=
  let w := entryWord m 5 i 0
  bits w 8 8 == 0 || bits w 8 8 ≤ bits w 16 8 || (List.range (sectionOf m 5).count).any fun j => j != i && entryWord m 5 j 0 % 16 == w % 16

/-- A locker record breaks R242, or another names its locker. -/
def lockerBad (m : List Host.Cell) (i : Nat) : Bool :=
  let l := entryWord m 6 i 0 % 1024
  l == 0 || (List.range (sectionOf m 6).count).any fun j => j != i && entryWord m 6 j 0 % 1024 == l

/-- A CAN segment record breaks R242 or R295, which permits an ARATE of 0 to a host segment only. -/
def segmentBad (m : List Host.Cell) (k : Nat) : Bool :=
  let x := canSegment m k
  let a := x.2.1
  let d := x.2.2
  x.1 == 3 || (k == 8 && x.1 != 0) || !([1000, 500, 250, 125].contains a || (a == 0 && x.1 == roleHost))
    || !([5000, 4000, 2000, 1000, 0].contains d) || (d != 0 && d < a)

/-- The seam size record breaks R243. -/
def seamBad (m : List Host.Cell) (cls : Nat → Nat) : Bool :=
  let b := bankWords m
  let o := outWords m
  let a := memRead m ((sectionOf m 9).off + 8) 4
  b == 0 || 131072 < b || o == 0 || 131072 < o || a % 32 != 0 || 389120 < a
    || (List.range 131072).any fun p => (cls p == 1 && b ≤ p) || ((cls p == 2 || cls p == 3) && o ≤ p)

/-- The 65th of the channels with FUNC 5. -/
def counter65 (m : List Host.Cell) : Option Nat := (allChannels.filter fun k => (chanRec m k).func == 5)[64]?

/-- A channel's APPLY is no angle of a cycle of length `l`. -/
def lateApply (m : List Host.Cell) (l k : Nat) : Bool := decide (l ≤ (chanRec m k).apply)

/-- R245, in the order of its conditions: `m` is the structure image, `len` the part's length, `cls` the class map of the set, `shares`
the share records of its metering image. -/
def Sys.structureCheck (s : Sys) (m : List Host.Cell) (len : Nat) (cls : Nat → Nat) (shares : List (Nat × Nat)) : Option Finding :=
  let l := s.pendL
  let late := fun (a : Nat) => decide (l ≤ a)
  if structHeaderBad m len then some (structFinding 0 0)
  else firstFinding [
    firstItem (memRead m 8 4) (directoryBad m) (structFinding 0xFF),
    ([1, 2, 9].find? fun ty => !(List.range (memRead m 8 4)).any fun i => memRead m (0x40 + 16 * i) 4 == ty).map fun ty => structFinding ty 0xFFFF,
    findIf ((memRead m 0xC 4).testBit 0 != s.on ANG_CTL_NOM) (structFinding 0 0),
    findIf (s.pendPhg < structSample m + 1280 || late (structSample m) || late (structApply m)) (structFinding 0 0),
    firstItem 192 (lateApply m l) (structFinding 2),
    firstItem 6 (fun b => bankVio m b == 3) (structFinding 1),
    firstItem 6 (fun b => bankVio m b != 0 && s.get (bankField b) != bankVio m b) (fun b => (0x1003, [(b, 1)])),
    firstItem 192 (fun k => channelBad m k || channelClash m k) (structFinding 2),
    firstItem (lineRecs m).length (lineBad m) (structFinding 3),
    firstItem 192 (channelClassBad m cls) (structFinding 2),
    firstItem (lineRecs m).length (fun i => ((lineRecs m)[i]?).any (lineClassBad cls)) (structFinding 3),
    firstItem (stationRecs m).length (fun i => ((stationRecs m)[i]?).any (stationClassBad cls)) (structFinding 8),
    (counter65 m).map (structFinding 2),
    firstItem (pointRanges m).length (rangeClash m) (structFinding 4),
    firstItem shares.length (fun i => (lockerRec m (nth (0, 0) shares i).1).isNone) (fun i => structFinding (Config.shareSection i) i),
    firstItem (sectionOf m 5).count (scanBad m) (structFinding 5),
    firstItem (sectionOf m 6).count (lockerBad m) (structFinding 6),
    firstItem (sectionOf m 7).count (segmentBad m) (structFinding 7),
    findIf (seamBad m cls) (structFinding 9 0)]

/-! ## The logic image (R102, R114, R135), as lane 0 of the set as held -/

/-- Where the initial value table ends; beyond `limit` if no closing record lies within it. -/
def Sys.initEnd (s : Sys) (limit : Nat) : Nat → Nat → Nat
  | 0, _ => limit + 1
  | fuel + 1, o =>
    if limit < o + 8 then limit + 1
    else
      let len := s.logic 0 (o + 4)
      if len = 0 then o + 8 else Sys.initEnd s limit fuel (o + 8 + len)

/-- The sections of the logic image: offset and end. -/
def Sys.logicSections (s : Sys) : List (Nat × Nat) :=
  let g := s.logic 0
  let at_ := fun (o n : Nat) => (g o, g o + n)
  [at_ 0x14 (8 * g 0x18), at_ 0x1C 0x8000, at_ 0x20 0x40000, at_ 0x24 0x4000, at_ 0x28 (8 * g 0x2C), at_ 0x30 (8 * g 0x34),
   (g 0x38, s.initEnd (g 4) 131072 (g 0x38))]

/-- Two of the sections overlap each other, or one the header. -/
def sectionsOverlap : List (Nat × Nat) → Bool
  | [] => false
  | x :: xs => (x.1 < 0x80 && x.1 != x.2) || (xs.any fun y => x.1 < y.2 && y.1 < x.2 && x.1 != x.2 && y.1 != y.2) || sectionsOverlap xs

/-- The header fields and the sections break R102. -/
def Sys.logicHeaderBad (s : Sys) : Bool :=
  let g := s.logic 0
  g 0 != 0x100 || g 4 % 32 != 0 || g 8 % 32 != 0 || 0x100000 < g 4 || 0x80000 < g 8 || 131072 < g 0xC || g 0x18 == 0 || 16 < g 0x18 || 1024 < g 0x2C
    || 256 < g 0x34 || (s.logicSections.any fun x => x.1 % 32 != 0 || g 4 < x.2) || sectionsOverlap s.logicSections

/-- A source index that R109 does not issue. -/
def sourceBad (i : Nat) : Bool := (238 ≤ i && i ≤ 511) || (1792 ≤ i && i ≤ 0xFFFE)

/-- The ranges, the source map and the publish list break R102. -/
def Sys.logicTablesBad (s : Sys) : Bool :=
  let pub := s.publishList 0
  0x40000 < retBytes (s.retRanges 0)
    || ((List.range 131072).any fun p => s.pointClass 0 p == 1 && sourceBad (s.lrd 0 (logicBase + s.logic 0 0x20 + 2 * p) 2))
    || pub.any (fun e => e.2 == 0 || 131072 < e.1 + e.2)
    || (List.range pub.length).any fun i => (List.range i).any fun j =>
        let a := nth (0, 0) pub i
        let b := nth (0, 0) pub j
        a.1 < b.1 + b.2 && b.1 < a.1 + a.2

/-- A task breaks R135. -/
def Sys.taskBad (s : Sys) (k : Nat) : Bool :=
  let e := s.taskEntry 0 k
  e.1 % 4 != 0 || s.logic 0 4 ≤ e.1 || e.2.1 == 0 || e.2.1 ≤ e.2.2

/-- The reserve and the initialisation charge do not fit the budget (R114). -/
def Sys.allowanceBad (s : Sys) : Bool := s.logic 0 0x10 < s.reserve 0 + s.initCharge 0

/-- R102, R135 and R114, with the hash of the structure image. -/
def Sys.logicCheck (s : Sys) (structHash : List Nat) : Option Finding :=
  findIf (s.logicHeaderBad || s.logicTablesBad || memBytes s.mem (laneBase 0 + logicBase + 0x40) 32 != structHash
    || ((List.range (s.logic 0 0x18)).any s.taskBad) || s.allowanceBad) (0x130C, [])

/-! ## The loop image (R169) -/

abbrev loopFinding (item : Nat) : Finding := (0x1401, [(item, 2)])

/-- The offsets of the words of a parameter record that the change queue may not write (R174). -/
def fixedWords (law nreg : Nat) : List Nat :=
  (List.range 9).map (fun i => 4 * i) ++ [0x3C] ++ (List.range 8).map (fun i => 0x40 + 4 * i)
    ++ ((List.range nreg).map fun r => if law = 1 then [0x68 + 16 * r, 0x6C + 16 * r] else [0x60 + 16 * r, 0x64 + 16 * r, 0x68 + 16 * r, 0x6C + 16 * r]).flatten

/-- A word of the variable image lies in a retentive range. -/
def inRanges (rs : List (Nat × Nat)) (ofs : Nat) : Bool := rs.any fun r => r.1 < ofs + 4 && ofs < r.1 + r.2

/-- The bounds of a loop's values are not finite, or do not bound anything. -/
def LoopPar.valuesBad (p : LoopPar) : Bool :=
  !([p.pvlo, p.pvhi, p.outlo, p.outhi, p.pvk, p.pvb, p.outk].all realFinite) || realEq p.pvhi p.pvlo || realEq p.outhi p.outlo
    || (realIsZero p.outk && p.outt < 2)

/-- The boundaries of regions 1 to NREG − 1 do not strictly ascend. -/
def Sys.boundariesBad (s : Sys) (p : LoopPar) : Bool :=
  (List.range (p.nreg - 2)).any fun i => (s.loopCoef 0 p (i + 2)).bound ≤ (s.loopCoef 0 p (i + 1)).bound

/-- A configured slot breaks R169. -/
def Sys.slotBad (s : Sys) (slot : Nat) : Bool :=
  let e := s.slotEntry 0 slot
  let p := s.loopPar 0 slot
  let ofs := 4 * bits e 0 17
  let used := s.slotsUsed 0
  p.law == 3 || bits e 20 8 == 0 || bits e 20 8 ≤ bits e 28 8 || 1 < bits e 36 3
    || s.vlen 0 < ofs + (96 + 16 * p.nreg + 31) / 32 * 32
    || ((fixedWords p.law p.nreg).any fun w => inRanges (s.retRanges 0) (0x80000 + ofs + w))
    || s.pointClass 0 p.pvPoint == 0 || s.pointClass 0 p.outPoint != 2 || (used.any fun k => k != slot && (s.loopPar 0 k).outPoint == p.outPoint)
    || p.pvt == 3 || p.outt == 3 || p.nreg == 0 || (if p.law = 1 then 8 else 4) < p.nreg || 3 < p.schv
    || (p.csen && (slot ≤ p.cslot || !used.contains p.cslot)) || p.valuesBad || (p.law == 1 && s.boundariesBad p)

/-- An enabled trace record breaks R191. -/
def Sys.traceBad (s : Sys) (c : Nat) : Bool :=
  let t := s.traceCfg 0 c
  t.en && (!(s.slotsUsed 0).contains t.slot || 8 < t.sig || 7 < t.trig || 8 < t.tsig || (t.trig == 1 && t.pre != 0)
    || (t.armEn && s.pointClass 0 t.armPoint != 3))

/-- R169: `m` is the loop image, `logicHash` the hash of the logic image. -/
def Sys.loopCheck (s : Sys) (m : List Host.Cell) (logicHash : List Nat) : Option Finding :=
  let used := s.slotsUsed 0
  firstFinding [
    findIf (memRead m 0 4 != 0x100 || memRead m 4 4 != 66112 || memBytes m 0x10 32 != logicHash || memRead m 8 4 != used.length) (loopFinding 0xFFFF),
    (used.find? s.slotBad).map loopFinding,
    firstItem 16 s.traceBad fun c => loopFinding (0x8000 + c)]

/-! ## The metering image (R207, R229) -/

abbrev meterFinding (sec ix : Nat) : Finding := (0x110B, [(sec, 1), (ix, 2)])

/-- The header breaks R207: its counts, its formulas, DINT, the percentages and SNAPLEN. -/
def meterHeaderBad (m : List Host.Cell) (structHash : List Nat) : Bool :=
  let c := meterImage m 0
  let sag := bits c.pq 0 8
  let swell := bits c.pq 8 8
  let int := bits c.pq 16 8
  memRead m 0 4 != 0x100 || memRead m 4 4 != 41376 || memBytes m 8 32 != structHash || 24 < memRead m 0x28 2 || 24 < c.circCnt || 64 < c.pulseCnt
    || 1024 < c.shareCnt || 4096 < c.mpCnt || c.ewords != 28 * c.circCnt + 4 * c.pulseCnt + 6 * c.shareCnt
    || c.dint < 60 || 3600 < c.dint || 86400 % c.dint != 0 || c.snapLen % 32 != 0
    || !(0 < int && int < sag && sag < 100 && 100 < swell && swell ≤ 200) || 10 < bits c.pq 24 8
    || c.snapLen < 0x14000 || 0x80000 < c.snapLen || (c.wfen && c.snapLen < 0x80000)
    || c.snapLen / 32 < c.mpCnt + 16 * (c.pulseCnt + c.circCnt)

def MeterImage.elementBad (c : MeterImage) (i : Nat) : Bool :=
  match c.elements[i]? with
  | none => false
  | some e => 5 < e.vch || 23 < e.ich || c.circCnt ≤ e.circ || e.ke == 0
      || (List.range c.elements.length).any fun j => j != i && (c.elements[j]?).any fun x => x.ich == e.ich

def MeterImage.circuitBad (c : MeterImage) (k : Nat) : Bool :=
  let x := nth (0, 0) c.circuits k
  !(c.elements.any fun e => e.circ == k) || (x.2 != 0 && (c.shareCnt < x.1 + x.2
    || ((List.range c.circCnt).any fun j => let y := nth (0, 0) c.circuits j; j != k && y.2 != 0 && x.1 < y.1 + y.2 && y.1 < x.1 + x.2)
    || (List.range x.2).all fun i => (nth (0, 0) c.shares (x.1 + i)).2 == 0))

/-- A meter point record: its point and the word it shows. -/
def mpRecord (m : List Host.Cell) (i : Nat) : Nat × Nat := (bits (memRead m (0x21A0 + 8 * i) 4) 0 17, bits (memRead m (0x21A4 + 8 * i) 4) 0 17)

/-- R207: `m` is the metering image, `st` the structure image, `cls` the class map of the set. -/
def meterCheck (m st : List Host.Cell) (structHash : List Nat) (cls : Nat → Nat) : Option Finding :=
  let c := meterImage m 0
  let counter := fun (p : Nat) => allChannels.any fun k => (chanRec st k).func == 5 && (chanRec st k).point == p
  let mps := (List.range c.mpCnt).map fun i => (mpRecord m i).1
  if meterHeaderBad m structHash then some (meterFinding 0 0)
  else firstFinding [
    firstItem c.elements.length c.elementBad (meterFinding 4),
    firstItem c.circCnt c.circuitBad (meterFinding 5),
    firstItem c.pulseCnt (fun i => let p := (nth (0, 0) c.pulses i).1; !counter p || cls p != 1) (meterFinding 6),
    firstItem c.shareCnt (fun i => (lockerRec st (nth (0, 0) c.shares i).1).isNone) (meterFinding 7),
    firstItem c.mpCnt (fun i =>
      let x := mpRecord m i
      cls x.1 != 2 || 1 < (mps.filter fun p => p == x.1).length || c.snapLen ≤ 4 * x.2) (meterFinding 8)]

/-- The energy that a new set must carry: of a running set that of a lane in AGREE, at a cold start that of the newest save (R229, R232). -/
def Sys.carriedEnergy (s : Sys) : Option (MeterImage × List Host.Cell) :=
  if s.prog.active then (s.donorOf).map fun n => (s.laneMeter n, s.energyRegion n)
  else s.energyNewest.map fun k => (s.savedImage k, s.savedRegion k)

/-- R229: a circuit or a share with a count has no match in the new image. -/
def Sys.carryCheck (s : Sys) (new : MeterImage) : Option Finding :=
  match s.carriedEnergy with
  | some x => findIf (carryLosesCount x.1 new x.2) (0x110C, [])
  | none => none

/-! ## The station table and the schedule (R271 to R273) -/

/-- Record `i` of the station table breaks R271. -/
def Sys.stationBad (s : Sys) (m : List Host.Cell) (i : Nat) : Bool :=
  let rs := stationRecs m
  match rs[i]? with
  | none => false
  | some r =>
    let seg := canSegment m (busOf r.index)
    let most := if r.index < 1024 then 368 else if s.on HIT_CTL_AUTH then 112 else 120
    let runs := fun (x : StationRec) => [(x.infirst, x.incnt), (x.outfirst, x.outcnt)]
    let others := (((List.range rs.length).filter fun j => j != i).filterMap fun j => rs[j]?)
    1280 ≤ r.index || (others.any fun x => x.index == r.index)
      || (1024 ≤ r.index && (seg.1 != roleHitil || seg.2.2 == 0)) || r.wdn == 0 || r.incnt + r.outcnt == 0 || most < r.incnt || most < r.outcnt
      || ((runs r).any fun a => a.2 != 0 && (131072 < a.1 + a.2
          || (others.any fun x => (runs x).any fun b => b.2 != 0 && a.1 < b.1 + b.2 && b.1 < a.1 + a.2)
          || (runPoints a.1 a.2).any fun p => (pointRange m p).scan != r.cls))
      || (r.index < 1024 && r.txofs < 128)

/-- R271: the INDEX of the first offending record, or its position where INDEX is no index. A Hitil segment without a data rate that no
station names is named by its own position. -/
def Sys.stationCheck (s : Sys) (m : List Host.Cell) : Option Finding :=
  let x := sectionOf m 8
  let rs := stationRecs m
  let name := fun (i : Nat) => match rs[i]? with
    | some r => (0x0F01, [(if r.index < 1280 then r.index else i, 2)])
    | none => (0x0F01, [(i, 2)])
  firstFinding [
    findIf (hasSection m 8 && x.esize != 32) (0x0F01, [(0, 2)]),
    findIf (1280 < x.count) (0x0F01, [(1280, 2)]),
    firstItem x.count (s.stationBad m) name,
    firstItem 9 (fun k => let g := canSegment m k; g.1 == roleHitil && g.2.2 == 0) fun k => (0x0F01, [(k, 2)])]

/-- The au that a NET2 frame with a payload of `p` bytes takes (R272). -/
def ethTime (auth : Bool) (p : Nat) : Nat := (8 * (Nat.max (p + (if auth then 8 else 0) + 34) 64 + 20) * 4259840 + 999999999) / 1000000000

/-- The au that a CAN FD frame with `b` data bytes takes at rates in kbit/s (R272). -/
def canTime (arate drate b : Nat) : Nat :=
  let ra := 1000 * Nat.max arate 1
  let rd := 1000 * Nat.max drate 1
  let x := (6 * (8 * b + 36) + 4) / 5
  ((32 * rd + x * ra) * 4259840 + ra * rd - 1) / (ra * rd)

/-- The au of a set of `c` words on a segment: one frame for each fragment (R280). -/
def canSetTime (auth : Bool) (arate drate c : Nat) : Nat :=
  let w := if auth then 14 else 15
  let frags := Nat.max 1 ((c + w - 1) / w)
  ((List.range frags).map fun i =>
    let words := Nat.min w (c - w * i)
    canTime arate drate (dlcLen true (dlcFor (4 + 4 * words + if auth then 4 else 0)))).foldl (· + ·) 0

/-- The au of a beacon, of a station's output set and of its input set on its bus. -/
def beaconTime (m : List Host.Cell) (auth : Bool) (b : Nat) : Nat :=
  if b = 8 then ethTime auth 48 else let g := canSegment m b; canTime g.2.1 g.2.2 (dlcLen true (dlcFor (56 + if auth then 4 else 0)))

def wordsTime (m : List Host.Cell) (auth : Bool) (b words : Nat) : Nat :=
  if b = 8 then ethTime auth (4 * words) else let g := canSegment m b; canSetTime auth g.2.1 g.2.2 words

/-- The load of a bus in cycle `n`: outputs; NET2's latest slot end or a segment's input total; two slots overlap. -/
def busLoad (m : List Host.Cell) (auth : Bool) (b n : Nat) : Nat × Nat × Bool :=
  let due := (busStations m b).filter fun r => scanDue m r.cls n
  let outs := (due.map fun r => wordsTime m auth b r.outcnt).foldl (· + ·) (beaconTime m auth b)
  let ins := due.map fun r => (r.txofs, r.txofs + wordsTime m auth b r.incnt)
  if b = 8 then
    (outs, (ins.map fun x => structSample m + x.2).foldl Nat.max 0,
     (List.range ins.length).any fun i => (List.range i).any fun j =>
       let x := nth (0, 0) ins i
       let y := nth (0, 0) ins j
       x.1 < y.2 && y.1 < x.2)
  else (outs, (due.map fun r => wordsTime m auth b r.incnt).foldl (· + ·) 0, false)

/-- The least common multiple of the intervals in use on a bus. -/
def busPeriod (m : List Host.Cell) (b : Nat) : Nat := (busStations m b).foldl (fun k r => Nat.lcm k (Nat.max (scanClass m r.cls).1 1)) 1

/-- The worst loads of a bus over its period, and whether slots overlap in some cycle. -/
def busWorst (m : List Host.Cell) (auth : Bool) (b : Nat) : Nat × Nat × Bool :=
  (List.range (Nat.min (busPeriod m b) 65536)).foldl (fun (w : Nat × Nat × Bool) n =>
    let x := busLoad m auth b n
    (Nat.max w.1 x.1, Nat.max w.2.1 x.2.1, w.2.2 || x.2.2)) (0, 0, false)

/-- What of the schedule of a bus does not fit (R273): 0 its outputs, 1 its inputs, 2 its period. -/
def Sys.busLate (s : Sys) (m : List Host.Cell) (b : Nat) : Option Nat :=
  let w := busWorst m (s.on HIT_CTL_AUTH) b
  if s.pendL + structApply m < w.1 + s.pendPhv + 256 then some 0
  else if (if b = 8 then w.2.2 || s.pendPhg < w.2.1 + 1024 else s.pendPhg < w.2.1 + structSample m + 1152) then some 1
  else if 65536 < busPeriod m b then some 2
  else none

/-- HIT_NETL and HIT_CANLk show what the check found; a bus without stations carries nothing. -/
def Sys.showLoads (s : Sys) (m : List Host.Cell) : Sys :=
  (List.range 9).foldl (fun s b =>
    let w := if (busesUsed m).contains b then busWorst m (s.on HIT_CTL_AUTH) b else (0, 0, false)
    let v := Nat.min w.1 65535 * 65536 + Nat.min w.2.1 65535
    if b = 8 then s.setWord HIT_NETL v else s.setWord (HIT_CANL b) v) s

/-- The finding of R273, with the bus and the direction that does not fit. -/
def Sys.scheduleCheck (s : Sys) (m : List Host.Cell) : Option Finding :=
  ((busesUsed m).filterMap fun b => (s.busLate m b).map fun d => (0x0F02, [(b, 1), (Config.directionCode d, 1)])).head?

/-! ## Boundaries, budget and the voter's run -/

/-- R60: the pending boundaries and N. -/
def Sys.boundariesOk (s : Sys) : Bool :=
  let n := s.get ANG_CYC_N
  1 ≤ n && n ≤ 64 && 2048 ≤ s.pendPhg && s.pendPhg + 1024 ≤ s.pendPhc && s.pendPhc < s.pendPhv && s.pendPhv + 1024 ≤ s.pendL

/-- R76: the clocks of the voter's run under the set as held. -/
def Sys.voteClocks (s : Sys) : Nat :=
  let ow := ((s.publishList 0).map fun e => e.2).foldl (· + ·) 0
  let db := ((s.inUse 0).map fun r => r.2).foldl (· + ·) (64 * (s.slotsUsed 0).length)
  (ow + 7) / 8 + ((s.laneMeter 0).ewords + 7) / 8 + (db + 31) / 32 + 40

/-- The Vote span is shorter than the voter's run. -/
def Sys.voteShort (s : Sys) (clocks : Nat) : Bool := s.pendPhv - s.pendPhc < (clocks * 65 * 65536 + 199999999) / 200000000

/-! ## All checks -/

/-- The checks of R450 on the set whose parts `part` names, in their order. -/
def Sys.checkSet (s : Sys) (part : Nat → Nat × Nat) : Option Finding :=
  let h := s.asHeld part
  let st := part partStruct
  let lg := part partLogic
  let m := imageOf s.mem st.1 st.2
  let mt := imageOf s.mem (part partMeter).1 (part partMeter).2
  let stHash := sha256 (memBytes s.mem st.1 st.2)
  let lgHash := sha256 (memBytes s.mem lg.1 lg.2)
  let cls := h.pointClass 0
  firstFinding [
    s.structureCheck m st.2 cls ((meterImage mt 0).shares.take 1024),
    h.logicCheck stHash,
    h.loopCheck (imageOf s.mem (part partLoop).1 (part partLoop).2) lgHash,
    meterCheck mt m stHash cls,
    s.carryCheck (meterImage mt 0),
    s.stationCheck m,
    s.scheduleCheck m,
    findIf (!s.boundariesOk) (0x0404, []),
    findIf (!budgetFits (h.logic 0 0x10) (s.get PWR_OP_CUR) s.pendPhg s.pendPhc) (0x1211, []),
    findIf (s.voteShort h.voteClocks) (0x1212, [])]

/-- The schedule was judged: nothing before it in the order of R450 refused the set. -/
def judgedSchedule (f : Option Finding) : Bool :=
  match f with
  | some x => [0x0F02, 0x0404, 0x1211, 0x1212].contains x.1
  | none => true

/-- What the checks leave: the loads of R273 shown. -/
def Sys.afterChecks (s : Sys) (part : Nat → Nat × Nat) (f : Option Finding) : Sys :=
  if judgedSchedule f then s.showLoads (imageOf s.mem (part partStruct).1 (part partStruct).2) else s

end Sys2Proof.Machine
end

