-- ==== Sys2Proof/Machine/Start.lean ====
section
/-!
DEFINITION. The start after a module reset up to the open mailbox: steps 1 to 6 of R448 (spec/17_startup_and_image_update.md), with the
cellar check (R399, R400), the root (R417), the repair record (R362, R368), the self-tests (R257, R308) and what the start brings back
from the fuses and the loft (R70, R93, R94, R314, R407).
-/
namespace Sys2Proof.Machine

/-! ## The repair record at a start (R362, R368) -/

/-- The pages, rows and wear of a copy of the repair record. -/
def Sys.loadRepair (s : Sys) (k : Nat) : Sys :=
  let o := repairCopy k
  let page := (List.range 4096).filterMap fun i =>
    let w := s.loftRd (o + 0x20 + 4 * i) 4
    if bits w 30 2 = 0 then none else some (bits w 0 18, bits w 18 12)
  let row := (List.range 256).filterMap fun i =>
    let w := s.loftRd (o + 0x4020 + 2 * i) 2
    if w.testBit 15 then some (8192 * (i / 64) + bits w 0 13, i % 64) else none
  let wear := ((srange s.mem (loftBase + o + 0x4220) (loftBase + o + 0x8220)).map fun c => (c.1 - (loftBase + o + 0x4220)) / 4).foldl (fun acc p => insertAsc p acc) []
  { s with mi := { s.mi with
      pages := page, pagesUsed := page.map fun e => e.2, rows := row, rowsUsed := row.map fun e => 64 * (e.1 / 8192) + e.2
      wear := wear.map fun p => (p, s.loftRd (o + 0x4220 + 4 * p) 4), writes := [] } }

/-- The lists rebuilt by the self-tests: failed pages take the spares that passed, failed rows the spare rows of their lane. -/
def Sys.rebuildRepair (s : Sys) (found : StartFindings) : Sys :=
  let spares := (List.range 4096).filter fun k => !found.badSpares.contains k
  let page := found.badPages.zip spares
  let bad := fun (n : Nat) => found.badRows.filter fun r => r / 8192 == n
  let row := ((List.range 4).map fun n => (bad n).zip (List.range 64)).flatten
  { s with mi := { s.mi with
      pages := page, pagesUsed := found.badSpares ++ page.map fun e => e.2, rows := row, rowsUsed := row.map fun e => 64 * (e.1 / 8192) + e.2
      wear := [], writes := [] } }

/-- The counts of free spares show what is used. -/
def Sys.showSpares (s : Sys) : Sys :=
  let free := fun (n : Nat) => 64 - (s.mi.rowsUsed.filter fun k => k / 64 == n).length
  let s1 := (s.put MEM_SPARE_DPFREE (4096 - s.mi.pagesUsed.length)).put MEM_SPARE_LSFREE (256 - s.mi.sectorsUsed.length)
  (List.range 4).foldl (fun s n => s.put (rowFree n) (free n)) s1

/-- R368: the copy with the higher SEQ if it is valid, else the other with 0x0C0F, else the self-tests with 0x0C10. -/
def Sys.applyRepair (s : Sys) (found : StartFindings) : Sys :=
  let high := if s.loftRd (repairCopy 0 + 4) 4 < s.loftRd (repairCopy 1 + 4) 4 then 1 else 0
  let s1 := if s.repairOk high then s.loadRepair high
    else if s.repairOk (1 - high) then (s.loadRepair (1 - high)).note 0x0C0F
    else (s.rebuildRepair found).note 0x0C10
  s1.showSpares

/-! ## The steps (R448) -/

/-- Step 2: every gate but those of the lanes opens, and the clocks are brought up. -/
def Sys.startClocks (s : Sys) (found : ClockFindings) : Sys :=
  ((((((s.put CLK_GATE_PLLEN 31).put CLK_GATE_FAB 1).put CLK_GATE_CTL 1).put CLK_GATE_DATA 1).put CLK_GATE_CAN 1).put CLK_GATE_DRAM 1).put CLK_GATE_PHY 7
    |>.put CLK_GATE_MET 1 |>.bringClocksUp found

/-- The curve that the loft holds written into the cellar (R407). -/
def Sys.loadCurve (s : Sys) : Sys :=
  match s.loft.curve with
  | some c => ((s.setWord RTC_TCT c.1).setWord RTC_TCK c.2).reseal
  | none => s

/-- Step 3: the cellar checked or initialised, the cause of the reset shown, the root and DIK loaded. A time that is not valid clears the
record of removals. -/
def Sys.startCellar (s : Sys) (f : List (Nat × Nat)) : Sys :=
  let lost := s.cellarLost
  let cause := if lost then 1 else s.pwr.cause
  let s1 := (if lost then s.cellarInit else s).putB CEL_STAT_INTOK (!lost)
  let s2 := (((s1.put PWR_RCAUSE_CAUSE cause).post 0x030D 0 [(cause, 1)]).loadRoot).setSlot 31 3 0
    (numLE ((List.range 8).map fun i => bytesLE 4 (fuseWord f (8 + i))).flatten) []
  if s2.on RTC_STAT_VALID then s2.loadCurve
  else { s2.loadCurve.note 0x0506 with loft := { s2.loft with removedAt := [] } }

/-- R314: the ports' addresses. -/
def Sys.startMacs (s : Sys) (f : List (Nat × Nat)) : Sys :=
  let base := fuseWord f 2 + 2 ^ 32 * (fuseWord f 3 % 65536)
  [0, 1, 2].foldl (fun s n => (s.setWord (NET_MACL n) (base + n)).put (NET_MACH_ADDR n) ((base + n) % 2 ^ 48 / 2 ^ 32)) s

/-- Step 4: DRAM trained, or failed; its content is gone. -/
def Sys.startDram (s : Sys) (found : StartFindings) : Sys :=
  let s1 := { s with mem := memZero s.mem 0x80000000 0x38000000 }
  if found.dramOk then (s1.put MEM_STAT_DRAM dramRun).applyRepair found else s1.dramFails

/-- A recorded failed cell is never used (R261). -/
def Sys.recallCell (s : Sys) (cell : Nat) : Sys :=
  if cell < 192 then s.modChan cell fun c => { c with cellFailed := true } else s.setSpare (cell - 192) true 0xFF

/-- A recorded failed controller is never used (R310). -/
def Sys.recallCan (s : Sys) (k : Nat) : Sys :=
  let c := Fin.ofNat 9 k
  let s1 := s.modCan c fun x => { x with failed := true }
  if k = 8 then s1.putB CAN_SPMAP_SPFAIL true else s1

/-- Step 5: recorded failures, then the self-tests of fabric and controllers. -/
def Sys.startSelfTests (s : Sys) (found : StartFindings) : Sys :=
  let s1 := s.loft.failedCan.foldl Sys.recallCan (s.loft.failedCells.foldl Sys.recallCell s)
  let s2 := found.failedCells.foldl (fun s c => s.cellFailed c 1) s1
  found.failedCan.foldl (fun s k => if k < 9 then s.canFails (Fin.ofNat 9 k) 1 else s) s2

/-- The lanes at a start: those whose fuse is blown are RETIRED, and failed burns are tried again (R70, R94). -/
def Sys.startVoter (s : Sys) : Sys :=
  let s1 := (allLanes.filter fun n => s.bit SYS_FUSE_RETIRE n.val).foldl (fun s n => s.setLaneState n laneRetired) s
  { s1 with vot := { s1.vot with burns := s1.loft.unburned } }

/-- The rails are good, and the domains come up with their crossings resynchronised. -/
def Sys.startDomains (s : Sys) : Sys :=
  ((List.range 15).foldl Sys.raiseDomain { s.put PWR_RAIL_PG 0xFF with pwr := { s.pwr with started := true } }).synced

/-- Step 6: the mailbox opens. -/
def Sys.openMailbox (s : Sys) : Sys :=
  { (s.put UPD_STAT_STATE updWaitHost).note 0x0818 with upd := { s.upd with touched := s.fclk, opened := false } }

/-- R448, steps 1 to 6, once after the release of a module reset. With a crystal that is not usable the start ends with the cellar's check, and
the module waits for another reset (R375). -/
def Sys.coldStart (s : Sys) (f : List (Nat × Nat)) (found : StartFindings) : Sys :=
  if s.pwr.inReset || s.pwr.started then s
  else
    let s1 := ((s.mirrorFuses f).startClocks found.clocks).startCellar f
    let s2 := ((s1.startMacs f).startVoter).startDomains
    if s2.clk.crystalDead then s2 else ((s2.startDram found).startSelfTests found).openMailbox

def execColdStart (found : StartFindings) (s : State) : Host.Outcome State Fault Refusal := run (fun y => y.coldStart s.fuses found) s

end Sys2Proof.Machine
end

