-- ==== Sys2Proof/Machine/Update.lean ====
section
/-!
DEFINITION. Image sets and their update (R439 to R459, spec/17_startup_and_image_update.md): the check of a set, the mailbox commands,
cold activation (steps 8 to 10 of R448), activation while running, the larder copy, the version floor, and per-part mode.
-/
namespace Sys2Proof.Machine

/-! ## The check of a set (R439 to R443) -/

/-- A part's length is one that R439 gives its type. -/
def partLenOk (ty l : Nat) : Bool :=
  if ty = 1 || ty = 2 then 4096 ≤ l && l ≤ 0x80000
  else if ty = 3 then 0 < l && l % 32 == 0 && l ≤ 0x400000
  else if ty = 4 then 0 < l && l % 32 == 0 && l ≤ 0x100000
  else if ty = 5 then l == 66112
  else if ty = 6 then l == 41376
  else if ty = 7 then 32 ≤ l && l ≤ 65536
  else false

/-- The `k` bytes of field `o` of the manifest at module address `man`. -/
def Sys.manField (s : Sys) (man o k : Nat) : Nat := s.rd (man + o) k

/-- A field of part entry `i`. -/
def Sys.entryField (s : Sys) (man i o k : Nat) : Nat := s.rd (man + 0x80 + 64 * i + o) k

/-- The header breaks R440; a code bundle has two parts (R458). -/
def Sys.headerBad (s : Sys) (man : Nat) (bundle : Bool) : Bool :=
  let n := s.manField man 0x20 4
  s.manField man 0 4 != 0x100 || s.manField man 4 4 != 768 || 8 ≤ s.manField man 0x0C 1 || s.manField man 0x0D 3 != 0 || 2 ≤ s.manField man 0x1C 4
    || s.manField man 0x28 88 != 0 || (if bundle then n != 2 else n != 6 && n != 7)

/-- Where part `i` lies in the pantry: from, to. -/
def Sys.entrySpan (s : Sys) (man i : Nat) : Nat × Nat := (s.entryField man i 4 4, s.entryField man i 4 4 + s.entryField man i 8 4)

/-- Entry `i` of `n` breaks R439 or R441; parts end at `limit` at the latest. -/
def Sys.entryBad (s : Sys) (man n limit : Nat) (bundle : Bool) (i : Nat) : Bool :=
  if n ≤ i then s.entryField man i 0 64 != 0
  else
    let ty := s.entryField man i 0 2
    let p := s.entrySpan man i
    ty == 0 || (if bundle then 2 < ty else 7 < ty) || s.entryField man i 2 2 != 0 || s.entryField man i 0x0C 4 != 0 || s.entryField man i 0x30 16 != 0
      || p.1 % 32 != 0 || p.1 < 0x300 || limit < p.2 || !partLenOk ty (s.entryField man i 8 4)
      || (List.range n).any fun j =>
        let q := s.entrySpan man j
        j != i && (s.entryField man j 0 2 == ty || (p.1 < q.2 && q.1 < p.2))

/-- Order 1 of R443: the type of the part that offends, or 0. -/
def Sys.tableFault (s : Sys) (man limit : Nat) (bundle : Bool) : Option Nat :=
  let n := s.manField man 0x20 4
  if s.headerBad man bundle then some 0
  else match (List.range 8).find? fun i => s.entryBad man n limit bundle i with
    | some i => some (s.entryField man i 0 2 % 256)
    | none => (if bundle then [1, 2] else [1, 2, 3, 4, 5, 6]).find? fun ty => (s.partEntry man ty).isNone

/-- The bytes of the entry of a type. -/
def Sys.entryOf (s : Sys) (man ty : Nat) : List Nat :=
  match (List.range 8).find? fun i => s.entryField man i 0 2 == ty with
  | some i => memBytes s.mem (man + 0x80 + 64 * i) 64
  | none => []

/-- The HASH that a manifest gives the part of a type. -/
def Sys.partHash (s : Sys) (man ty : Nat) : List Nat := ((s.entryOf man ty).drop 0x10).take 32

/-- CODESIG verifies (R442). -/
def Sys.codeSigned (s : Sys) (man : Nat) : Bool :=
  let msg := memBytes s.mem (man + 8) 24 ++ s.entryOf man 1 ++ s.entryOf man 2
  let sig := memBytes s.mem (man + 0x280) 64
  ecdsaVerify Config.releaseKey (sha256 msg) sig || (s.get KEY_STAT_ROOT == rootTest && ecdsaVerify Config.testReleaseKey (sha256 msg) sig)

/-- HWPART, stepping and variant (order 2). -/
def Sys.hardwareFits (s : Sys) (man : Nat) : Bool :=
  let step := s.get SYS_ID_STEP
  s.manField man 8 2 == 0x6400 && s.manField man 0x0A 1 ≤ step && step ≤ s.manField man 0x0B 1
    && 1 ≤ s.get SYS_ID_VARIANT && (s.manField man 0x0C 1).testBit (s.get SYS_ID_VARIANT - 1)

/-- R443: the code of the first check that fails, or 0, and the part type it names. The manifest lies at pantry offset 0. -/
def Sys.verdict (s : Sys) (f : List (Nat × Nat)) (bundle : Bool) : Nat × Nat :=
  let man := pantryBase
  let n := s.manField man 0x20 4
  let version := s.manField man 0x18 4
  let uid := memBytes s.mem (man + 0x10) 8
  match s.tableFault man (if bundle then 0x200000 else 0x4000000) bundle with
  | some ty => (0x0803, ty)
  | none =>
    if !s.hardwareFits man then (0x0804, 0)
    else if uid != List.replicate 8 0 && uid != s.uid then (0x0805, 0)
    else if !s.codeSigned man then (0x0806, 0)
    else if version < s.get SYS_VFLOOR_COUNT || 128 < version then (0x0807, 0)
    else if !bundle && s.on SYS_FUSE_OWNLOCK && !s.ownerSigned f (memBytes s.mem man 0x280) (memBytes s.mem (man + 0x2C0) 64) then (0x0808, 0)
    else match (List.range n).find? fun i =>
        sha256 (memBytes s.mem (pantryBase + s.entryField man i 4 4) (s.entryField man i 8 4)) != memBytes s.mem (man + 0x80 + 64 * i + 0x10) 32 with
      | some i => (0x0809, s.entryField man i 0 2)
      | none => (0, 0)

/-- The post of a refusal under R443; 0x0809 shows its part in FAILPART. -/
def Sys.postVerdict (s : Sys) (v : Nat × Nat) : Sys :=
  let s1 := s.put UPD_STAT_FAILPART (if v.1 = 0x0809 then v.2 else 0)
  if v.1 = 0x0803 || v.1 = 0x0809 then s1.post v.1 0 [(v.2, 1)] else s1.note v.1

/-! ## Session commands (R446) -/

/-- OPEN: the pantry is cleared, and a session begins. -/
def Sys.openSession (s : Sys) : Sys :=
  let s1 := ((s.put UPD_STAT_PANTRY pantryOpen).setWord UPD_BYTES 0).note 0x080F
  Sys.heal { s1 with mem := memZero s1.mem pantryBase 0x4000000, upd := { s1.upd with parts := [], pantryAt := 0, opened := true } } pantryBase 0x4000000

/-- OPEN is served in EMPTY, FAILED and VERIFIED, but not while the larder copy runs or without DRAM. -/
def Sys.openOk (s : Sys) : Bool := (s.pantry == pantryEmpty || s.pantry == pantryFailed || s.pantry == pantryVerified) && s.dramUp && !s.upd.copying

def Sys.mbxOpen (s : Sys) : Sys := s.mailbox 1 false s.openOk fun z => (z.openSession, 0)

def execMbxOpen (who : Agent) (s : State) : Host.Outcome State Fault Refusal := run (fun y => (y.ringDoorbell who).mbxOpen) s

/-- The arguments of WRITE are in range. -/
def Sys.writeOk (s : Sys) : Bool :=
  s.pantry == pantryOpen && s.dramUp && s.arg 0 % 32 == 0 && 4 ≤ s.arg 1 && s.arg 1 ≤ 32768 && s.arg 1 % 4 == 0 && s.arg 0 + s.arg 1 ≤ 0x4000000

/-- WRITE: a block of UPD_BUF into the pantry. -/
def Sys.mbxWrite (s : Sys) : Sys :=
  s.mailbox 2 false s.writeOk fun z => ((z.putRow (pantryBase + z.arg 0) (z.bufBytes (z.arg 1))).setWord UPD_BYTES (z.word UPD_BYTES + z.arg 1), 0)

def execMbxWrite (who : Agent) (s : State) : Host.Outcome State Fault Refusal := run (fun y => (y.ringDoorbell who).mbxWrite) s

/-- COMMIT starts: the pantry is VERIFYING, and the verdict awaits the end of the check. -/
def Sys.mbxCommit (s : Sys) (f : List (Nat × Nat)) : Sys :=
  s.mailbox 3 false (s.pantry == pantryOpen && !s.on UPD_CTL_PERPART && s.dramUp) fun z =>
    let v := z.verdict f false
    ({ z.put UPD_STAT_PANTRY pantryVerifying with upd := { z.upd with failPart := v.2 } }, v.1)

def execMbxCommit (who : Agent) (s : State) : Host.Outcome State Fault Refusal := run (fun y => (y.ringDoorbell who).mbxCommit s.fuses) s

/-- The end of a COMMIT. -/
def Sys.commitDone (s : Sys) : Sys :=
  if s.upd.result = 0 then
    let id := s.rd (pantryBase + 0x24) 4
    (((s.put UPD_STAT_PANTRY pantryVerified).setWord UPD_PSETID id).put UPD_STAT_FAILPART 0).post 0x0810 0 [(id, 4)]
  else (s.put UPD_STAT_PANTRY pantryFailed).postVerdict (s.upd.result, s.upd.failPart)

/-- ABORT. -/
def Sys.mbxAbort (s : Sys) : Sys :=
  s.mailbox 5 false (s.pantry == pantryOpen || s.pantry == pantryVerified || s.pantry == pantryFailed) fun z => (z.put UPD_STAT_PANTRY pantryEmpty, 0)

def execMbxAbort (who : Agent) (s : State) : Host.Outcome State Fault Refusal := run (fun y => (y.ringDoorbell who).mbxAbort) s

/-- RESET: a module reset with cause 7. -/
def Sys.mbxReset (s : Sys) : Sys :=
  match s.mbxGate true with
  | .open => if s.arg 0 = 0x52535421 then s.moduleReset 7 false else s.touchSession.mbxRefuse 0x080A
  | _ => s.mailbox 0x20 true true fun z => (z, 0)

def execMbxReset (who : Agent) (s : State) : Host.Outcome State Fault Refusal := run (fun y => (y.ringDoorbell who).mbxReset) s

/-! ## Per-part mode (R458, R459) -/

/-- R458: the pantry offset and the largest length of a part of PART; 0 is the code bundle. -/
def partSlot (arg : Nat) : Option (Nat × Nat) :=
  if arg = 0 then some (0, 0x200000) else if arg = 3 then some (0x200000, 0x400000) else if arg = 4 then some (0x600000, 0x100000)
  else if arg = 5 then some (0x700000, 66112) else if arg = 6 then some (0x720000, 41376) else if arg = 7 then some (0x730000, 65536) else none

/-- The pantry offset of a slot. -/
def slotOf (ty : Nat) : Nat := ((partSlot ty).getD (0, 0)).1

/-- The arguments of PART are in range. -/
def Sys.partOk (s : Sys) : Bool :=
  s.pantry == pantryOpen && s.on UPD_CTL_PERPART && s.dramUp
    && match partSlot (s.arg 0) with
      | some p => 1 ≤ s.arg 1 && s.arg 1 ≤ p.2
      | none => false

/-- PART: the code it is refused with, or 0; a refused part is absent. -/
def Sys.declarePart (s : Sys) (f : List (Nat × Nat)) : Sys × Nat :=
  let ty := s.arg 0
  let len := s.arg 1
  let absent := { s with upd := { s.upd with parts := s.upd.parts.filter fun p => p.1 != ty } }
  let present := { s with upd := { s.upd with parts := putKey s.upd.parts ty len } }
  if ty = 0 then
    let v := s.verdict f true
    if v.1 = 0 then (present, 0) else (absent.postVerdict v, v.1)
  else if partLenOk ty len && s.rd (pantryBase + slotOf ty) 4 == 0x100 then (present, 0)
  else ((absent.put UPD_STAT_FAILPART ty).post 0x080E 0 [(ty, 1)], 0x080E)

def Sys.mbxPart (s : Sys) (f : List (Nat × Nat)) : Sys := s.mailbox 6 false s.partOk fun z => z.declarePart f

def execMbxPart (who : Agent) (s : State) : Host.Outcome State Fault Refusal := run (fun y => (y.ringDoorbell who).mbxPart s.fuses) s

/-- A write of UPD_CTL. PERPART changes only while the pantry is EMPTY, and not to 1 while OWNLOCK is blown. -/
def Sys.perpartWrite (s : Sys) (data : Nat) : Sys :=
  let dest := data.testBit 8
  let keep := fun (v : Bool) => s.storeWord UPD_CTL (data - (if dest then 256 else 0) + if v then 256 else 0)
  if dest = s.on UPD_CTL_PERPART || s.on UPD_CTL_LOCK then s.storeWord UPD_CTL data
  else if dest && s.on SYS_FUSE_OWNLOCK then (keep false).note 0x080C
  else if s.pantry = pantryEmpty then s.storeWord UPD_CTL data
  else keep (!dest)

def execPerpartWrite (_who : Agent) (data : Nat) (s : State) : Host.Outcome State Fault Refusal :=
  run (fun y => y.perpartWrite (data % 2 ^ 32)) s

/-- The module address and the length of a part of the set that the larder holds. -/
def Sys.larderPart (s : Sys) (ty : Nat) : Nat × Nat :=
  match s.upd.larderAt with
  | some a => match s.partEntry (larderBase + a) ty with
    | some p => (larderBase + p.1, p.2)
    | none => (larderBase, 0)
  | none => (larderBase, 0)

/-- A length up to the next granule. -/
def toGranule (n : Nat) : Nat := (n + 31) / 32 * 32

/-- The larder's code parts put into the bundle's slot, behind its manifest. -/
def Sys.fillBundle (s : Sys) : Sys :=
  let fw := s.larderPart partMgtfw
  let rt := s.larderPart partRuntime
  let old := larderBase + s.upd.larderAt.getD 0
  let at2 := 0x300 + toGranule fw.2
  let s1 := ((s.copyRow pantryBase old 0x300).copyRow (pantryBase + 0x300) fw.1 fw.2).copyRow (pantryBase + at2) rt.1 rt.2
  let s2 := s1.putRow (pantryBase + 0x20) (bytesLE 4 2)
  let s3 := s2.putRow (pantryBase + 0x80) (s.entryOf old 1 ++ s.entryOf old 2 ++ List.replicate 384 0)
  let s4 := (s3.putRow (pantryBase + 0x84) (bytesLE 4 0x300)).putRow (pantryBase + 0xC4) (bytesLE 4 at2)
  { s4 with upd := { s4.upd with parts := putKey s4.upd.parts 0 (at2 + rt.2) } }

/-- An absent part filled from the larder. -/
def Sys.fillPart (s : Sys) (ty : Nat) : Sys :=
  if s.upd.parts.any fun p => p.1 == ty then s
  else if ty = 0 then s.fillBundle
  else
    let p := s.larderPart ty
    if p.2 = 0 then s
    else let s1 := s.copyRow (pantryBase + slotOf ty) p.1 p.2; { s1 with upd := { s1.upd with parts := putKey s1.upd.parts ty p.2 } }

/-- The part that a cold start in per-part mode lacks; the code bundle is named by type 1. -/
def Sys.missingPart (s : Sys) : Option Nat :=
  ([0, 3, 4, 5, 6].find? fun ty => !s.upd.parts.any fun p => p.1 == ty).map fun ty => if ty = 0 then 1 else ty

/-- The entry of a part declared with PART. -/
def Sys.declaredEntry (s : Sys) (ty : Nat) : List Nat :=
  let len := lookupD 0 s.upd.parts ty
  if len = 0 then []
  else bytesLE 4 ty ++ bytesLE 4 (slotOf ty) ++ bytesLE 4 len ++ bytesLE 4 0 ++ sha256 (memBytes s.mem (pantryBase + slotOf ty) len) ++ List.replicate 16 0

/-- R459: the manifest synthesised at pantry offset 0x0074_0000. -/
def Sys.synthesise (s : Sys) : Sys :=
  let table := s.entryOf pantryBase 1 ++ s.entryOf pantryBase 2 ++ ([3, 4, 5, 6, 7].map s.declaredEntry).flatten
  let head := memBytes s.mem pantryBase 0x20 ++ bytesLE 4 (table.length / 64) ++ memBytes s.mem (pantryBase + 0x24) 0x5C
  let s1 := s.putRow (pantryBase + 0x740000)
    (head ++ table ++ List.replicate (512 - table.length) 0 ++ memBytes s.mem (pantryBase + 0x280) 64 ++ List.replicate 64 0)
  { s1 with upd := { s1.upd with pantryAt := 0x740000 } }

/-! ## What both activations share -/

/-- A part of the set in the pantry holds an uncorrectable word. -/
def Sys.pantryPoisoned (s : Sys) : Bool :=
  s.mi.poison.any fun g => [1, 2, 3, 4, 5, 6, 7].any fun ty => let p := s.pantryPart ty; g < p.1 + p.2 && p.1 < g + 32

/-- The manifests of the pantry's set and of the set in the larder. -/
def Sys.pantryMan (s : Sys) : Nat := pantryBase + s.upd.pantryAt

/-- The set's firmware differs from the firmware that runs. -/
def Sys.otherFirmware (s : Sys) : Bool := s.partHash s.pantryMan partMgtfw != s.partHash (larderBase + s.upd.larderAt.getD 0) partMgtfw

/-- Every part and the manifest copied from the pantry into the larder, at the same offsets (R448 step 8, R454). -/
def Sys.copyToLarder (s : Sys) : Sys :=
  let copyPart := fun (x : Sys) (ty : Nat) => let p := s.pantryPart ty; if p.2 = 0 then x else x.copyRow (p.1 - pantryBase + larderBase) p.1 p.2
  let s1 := ([1, 2, 3, 4, 5, 6, 7].foldl copyPart s).copyRow (larderBase + s.upd.pantryAt) s.pantryMan 768
  { s1 with upd := { s1.upd with larderAt := some s.upd.pantryAt } }

/-- The pending angle values and the set's cycle settings take effect (R59, R60). -/
def Sys.takePending (s : Sys) : Sys :=
  { s with
    ang := { s.ang with n := s.get ANG_CYC_N, phg := s.pendPhg, phc := s.pendPhc, phv := s.pendPhv }
    prog := { s.prog with chgmax := s.get CYC_CHGMAX_MAX, dig := s.get CYC_RSAVE_DIG } }

/-- The refusal of an activation check: its code posted. -/
def Sys.refuseSet (s : Sys) (x : Finding) : Sys := s.post x.1 0 x.2

/-- R444: the floor raised to CODEVER of the active set, whose manifest lies in the larder, and the fuses after it. -/
def raiseFloor (s : State) : State :=
  let y := s.sys
  let man := larderBase + y.upd.larderAt.getD 0
  let version := Nat.min (y.manField man 0x18 4) 128
  let count := y.get SYS_VFLOOR_COUNT
  if y.manField man 0x1C 4 % 2 = 0 || version ≤ count then s
  else if y.pfw then { s with sys := y.note 0x0814 }
  else
    let f := (List.range version).foldl (fun f k => if count ≤ k then blow f (24 + k / 32) (2 ^ (k % 32)) else f) s.fuses
    let z := y.mirrorFuses f
    { s with sys := z.post 0x0813 0 [(z.get SYS_VFLOOR_COUNT, 1)], fuses := f }

/-! ## Cold activation (R448, R449) -/

/-- The recorded substitution of a channel made again, if its spare still serves (R261). -/
def Sys.recallSpare (s : Sys) (k : Nat) : Sys :=
  if 192 ≤ k || !(s.chan k).cellFailed || (s.chan k).spare.isSome || s.fab.wait.contains k then s
  else match s.loft.spareCells.find? fun c => c.1 == k with
    | some c => if s.spareUsed c.2 then s.wantSpare k else (s.setSpare c.2 true k).modChan k fun x => { x with spare := some c.2 }
    | none => s.wantSpare k

/-- The recorded substitution of a CAN controller made again (R310). -/
def Sys.recallCanSpare (s : Sys) : Sys :=
  match s.loft.canSpare with
  | some k => if s.spareFree then ((s.putB CAN_SPMAP_USED true).put CAN_SPMAP_SEG k).putB (CAN_STAT_SPARED k) true else s.post 0x0E08 0 [(k, 1)]
  | none => s

/-- Step 8: the larder takes the set, and the firmware is loaded and started. -/
def Sys.startFirmware (s : Sys) : Sys :=
  let fw := s.pantryPart partMgtfw
  let s1 := ((s.copyToLarder.copyRow 0x10000000 fw.1 fw.2).put UPD_STAT_FW 1).put MGT_STAT_FWRUN 1
  if s.on UPD_STAT_FW then s1 else { s1 with mgt := { s1.mgt with watchdog := some s1.fclk } }

/-- R244: an activation with test records in effect is posted. -/
def Sys.testNotice (s : Sys) : Sys := if s.testSources.isEmpty then s else s.note 0x1013

/-- Steps 9 and 10 once the checks have passed: substitutions, fabric and lanes from the larder, metering, restored values, stations,
and the angle clock. -/
def Sys.startSet (s : Sys) (temp : Int) : Sys :=
  let s1 := (((s.loft.failedCells.foldl Sys.recallSpare s.takePending).recallCanSpare).loadStructure s.sourceStruct).testNotice
  let s2 := s1.startLanes.adoptSet.loadNominals
  let live := s2.liveLanes
  let s3 := ((s2.restoreRetentive live).restoreEnergy live).frontEndRun.applyTable 1 temp
  let s4 := s3.hitRunSet.runSet
  let s5 := { s4 with upd := { s4.upd with cold := true, announce := true } }
  if s5.get ANG_STAT_STATE = angLocked && s5.waitingForLock then s5.requestCycles else s5

/-- ACTIVATE at a cold start: the code it ends with. -/
def Sys.coldActivate (s : Sys) (temp : Int) : Sys × Nat :=
  if s.on UPD_STAT_FW && s.otherFirmware then (s.note 0x0816, 0x0816)
  else if s.pantryPoisoned then (((s.post 0x080B 0 [(1, 1)]).put UPD_STAT_PANTRY pantryFailed).put UPD_STAT_STATE updWaitHost, 0x080B)
  else
    let s1 := s.startFirmware
    let found := s1.checkSet s1.sourcePart
    let s2 := s1.afterChecks s1.sourcePart found
    match found with
    | some x => ((s2.refuseSet x).put UPD_STAT_STATE updWaitHost, x.1)
    | none => (((s2.saveWear.startSet temp).put UPD_STAT_STATE updLoading).put UPD_STAT_PANTRY pantryInUse, 0)

/-! ## Activation while running (R450 to R453) -/

/-- Cycle A if the checks end at this instant: the cycle in which they end, before its PHC, else the next. -/
def Sys.lastCycle (s : Sys) : Nat := if s.ang.time < s.ang.start + s.ang.phc then s.ang.cycle else s.ang.cycle + 1

/-- ACTIVATE while a set is active. It waits while PWR_OP.BUSY is 1. The wear counts are saved before the activation (R367). -/
def Sys.runningActivate (s0 : Sys) : Sys × Nat :=
  if s0.otherFirmware then (s0.note 0x0816, 0x0816)
  else if s0.pfw || s0.pwr.standby != 0 || s0.upd.copying then (s0.note 0x0817, 0x0817)
  else if s0.get MET_STAT_FE = feFrozen then (s0.note 0x1116, 0x1116)
  else
    let s := if s0.on PWR_OP_BUSY then s0.opChangeDone else s0
    let found := s.checkSet s.pantryPart
    let s1 := s.afterChecks s.pantryPart found
    match found with
    | some x => (s1.refuseSet x, x.1)
    | none =>
      let s2 := (s1.saveWear.put UPD_STAT_PANTRY pantryInUse).put UPD_STAT_STATE updActivating
      ({ s2 with upd := { s2.upd with activating := true, loaded := false, lastOld := s2.lastCycle } }, 0)

/-- The set that ACTIVATE names: in per-part mode the absent parts are filled and the manifest is made first. -/
def Sys.completeSet (s : Sys) : Sys :=
  if s.on UPD_CTL_PERPART then ((if s.prog.active then [0, 3, 4, 5, 6, 7].foldl Sys.fillPart s else s).synthesise) else s

/-- ACTIVATE is served in VERIFIED, and in per-part mode in OPEN. -/
def Sys.activateOk (s : Sys) : Bool := s.dramUp && (s.pantry == pantryVerified || (s.on UPD_CTL_PERPART && s.pantry == pantryOpen))

/-- R448, R450, R459. -/
def Sys.activate (s : Sys) (temp : Int) : Sys × Nat :=
  if s.on UPD_CTL_PERPART && !s.prog.active && s.missingPart.isSome then (s.post 0x080D 0 [(s.missingPart.getD 0, 1)], 0x080D)
  else if s.prog.active then s.completeSet.runningActivate
  else s.completeSet.coldActivate temp

def Sys.mbxActivate (s : Sys) (temp : Int) : Sys := s.mailbox 4 false s.activateOk fun z => z.activate temp

def execMbxActivate (who : Agent) (temperature : Int) (s : State) : Host.Outcome State Fault Refusal :=
  run (fun y => (y.ringDoorbell who).mbxActivate temperature) s

/-- Step 1 of R451: a reintegration in progress is aborted; its lane waits in reset (R92). -/
def Sys.abortReint (s : Sys) : Sys :=
  let busy := allLanes.filter fun n =>
    s.laneState n == laneReload || s.laneState n == lanePrecopy || s.laneState n == laneFinal || s.laneState n == laneShadow
  busy.foldl (fun s n =>
    let s1 := (s.setLaneState n laneReset).modLane n Lane.stopped
    { s1 with vot := { s1.vot with
        ready := s1.vot.ready.filter fun m => m != n
        waiting := if s1.vot.waiting.contains n then s1.vot.waiting else s1.vot.waiting ++ [n] } }) s.endCopy

/-- The parts that a running lane takes at the load: all but the metering image, which waits for a window boundary. -/
def Sys.loadRunning (s : Sys) (n : Fin 4) : Sys :=
  let part := fun ty => if ty = partMeter then (laneBase n + 0x5A4000, 0x10000) else s.sourcePart ty
  (s.holdSet part n).modLane n fun l => { l with meterPending := true }

/-- Steps 1 to 3 of R451: the saves of the old set, the load, and the restore data. -/
def Sys.loadNew (s0 : Sys) : Sys :=
  let s := s0.abortReint.put UPD_STAT_SRC 1
  let saved := match s.agreeLane with
    | some n => ((s.snapRanges n).saveRetentive n s.ang.cycle).saveEnergy n snapBase 3
    | none => s
  let shelved := allLanes.filter fun n => s.laneState n == laneShelved
  let voting := allLanes.filter fun n => s.votes n
  let s1 := shelved.foldl (fun s n => (s.loadWhole n).setLaneState n laneShelved) (voting.foldl Sys.loadRunning saved)
  let s2 := { s1 with upd := { s1.upd with restore := false, loaded := true }, prog := { s1.prog with snapCycle := none } }
  match s.agreeLane with
  | some n => s2.restoreFrom (s.laneRetained n) (voting ++ shelved)
  | none => s2.restoreRetentive (voting ++ shelved)

/-- R451, R453: from PHV of A, once its Emit has started, the new set is loaded. With the DRAM failed there is no image update: the
activation fails and the old set goes on (R37). -/
def Sys.activationLoad (s0 : Sys) : Sys :=
  if !s0.upd.activating || s0.upd.loaded || s0.ang.cycle != s0.upd.lastOld || !s0.ang.begun || !s0.vot.emitted || s0.vot.restart then s0
  else
    let s := s0.reach (s0.ang.start + s0.ang.phv)
    if !s.dramUp then s.failActivation 1
    else if s.pantryPoisoned then let s1 := s.failActivation 1; { s1 with vot := { s1.vot with restart := true } }
    else s.loadNew

def execActivationLoad (s : State) : Host.Outcome State Fault Refusal := run Sys.activationLoad s

/-- The grid of the new set (R59, R451). -/
def Sys.newGrid (s : Sys) : Sys :=
  if s.get ANG_CYC_N = s.ang.n then (let s1 := s.takePending; s1.resumeAt s1.cycleAfter)
  else
    let s1 := s.takePending
    { s1 with ang := { s1.ang with corg := (s1.ang.time + 65535) / 65536 * 65536 } }.resumeAt 0

/-- R127: the queue discards what waits in it. -/
def Sys.discardQueue (s : Sys) : Sys :=
  (Sys.showFill { s with chg := { s.chg with queue := [] } }).post 0x130D 0 [count32 s.chg.queue.length]

/-- Step 5 of R451, at the end of A. Where the DRAM fails before the fabric has been loaded the activation fails (R453, R456). A new EPOCH comes with a new N only: with N unchanged admitted stations stay (R292, R452). -/
def Sys.cutover (s0 : Sys) : Sys :=
  if !s0.upd.activating || !s0.upd.loaded || s0.vot.restart then s0
  else
    let s := s0.reach (s0.ang.start + s0.cycleLen)
    if !s.dramUp then let s1 := s.failActivation 1; { s1 with vot := { s1.vot with restart := true } }
    else
      let new := s.sourceStruct
      let s0 := ((s.discardQueue.newGrid).loadStructure new).adoptSet.loadNominals
      let s1 := if s.get ANG_CYC_N = s.ang.n then s0 else (s0.put HIT_CTL_RUN 0).hitRunSet
      let s2 := s1.endBindings 3 fun l => l != 0 && (lockerRec new l).isNone
      let s3 := { s2 with
        upd := { s2.upd with activating := false, loaded := false, announce := true }
        fe := { s2.fe with winState := Nat.min s2.fe.winState 2 } }
      s3.testNotice.startNext

def execActivationCutover (s : State) : Host.Outcome State Fault Refusal := run Sys.cutover s

/-! ## The larder copy (R454) -/

/-- The copy starts after the first valid vote of the new set. -/
def Sys.larderCopy (s : Sys) : Sys :=
  if s.on UPD_STAT_SRC && !s.upd.activating && !s.upd.announce && s.pantry == pantryInUse && !s.upd.copying && s.dramUp then
    { s.put UPD_STAT_STATE updCopying with upd := { s.upd with copying := true } }
  else s

def execLarderCopy (s : State) : Host.Outcome State Fault Refusal := run Sys.larderCopy s

/-- The copy ends, which it cannot once the DRAM has failed (R37): the larder holds the new set, and the floor follows. An uncorrectable word of the pantry makes the activation fail. -/
def larderCopyDone (s : State) : State :=
  let y := s.sys
  if !y.upd.copying || !y.dramUp then s
  else if y.pantryPoisoned then let z := y.failActivation 1; { s with sys := { z with vot := { z.vot with restart := true } } }
  else
    let z := ((y.copyToLarder.put UPD_STAT_SRC 0).put UPD_STAT_PANTRY pantryEmpty).put UPD_STAT_STATE updRun
    raiseFloor { s with sys := Sys.note { z with upd := { z.upd with copying := false } } 0x0812 }

def execLarderCopyDone (s : State) : Host.Outcome State Fault Refusal := .next (larderCopyDone s)

/-! ## The end of a command (R445) and the timeouts (R447) -/

/-- A write of GO with an OP: the command it names. -/
def mailboxRun (op : Nat) (temp : Int) (s : State) : State :=
  let y := s.sys
  let f := s.fuses
  if op = 0x10 then ownerMessage s
  else { s with sys :=
    if op = 1 then y.mbxOpen else if op = 2 then y.mbxWrite else if op = 3 then y.mbxCommit f else if op = 4 then y.mbxActivate temp
    else if op = 5 then y.mbxAbort else if op = 6 then y.mbxPart f else if op = 0x11 then y.ticket f else if op = 0x12 then y.unbind
    else if op = 0x13 then y.attest f else if op = 0x20 then y.mbxReset else y.mailbox op false false fun z => (z, 0) }

/-- An ACTIVATE has run to its end: the set's first valid image is out, or it was refused or failed. -/
def Sys.activateEnded (s : Sys) : Bool :=
  s.upd.result != 0 || (!s.upd.activating && !s.upd.announce && s.get UPD_STAT_STATE != updLoading && s.get UPD_STAT_STATE != updActivating)

/-- The running command ends. After an ACTIVATE at a cold start the floor follows at once, since the larder holds the set. -/
def commandDone (s : State) : State :=
  let y := s.sys
  match y.upd.running with
  | none => s
  | some op =>
    if op = 3 then { s with sys := y.commitDone.mbxEnd y.upd.result }
    else if op = 4 then
      if !y.activateEnded then s
      else
        let t : State := { s with sys := y.mbxEnd y.upd.result }
        if y.upd.result = 0 && !y.on UPD_STAT_SRC && y.pantry == pantryEmpty then raiseFloor t else t
    else { s with sys := y.mbxEnd y.upd.result }

/-- A command given in standby runs once the module is awake, as long as it takes. -/
def mailboxCommandDone (s : State) : State :=
  let y := s.sys
  if !y.upd.asleep then (if y.on UPD_RES_BUSY then commandDone s else s)
  else if y.pwr.standby != 0 then s
  else
    let d := y.draw
    let z := { d.2.put UPD_RES_BUSY 0 with upd := { d.2.upd with asleep := false, running := none } }
    commandDone (mailboxRun (y.upd.running.getD 0) (sint 16 (d.1 % 65536)) { s with sys := z })

def execMailboxCommandDone (s : State) : Host.Outcome State Fault Refusal := .next (mailboxCommandDone s)

/-- An instant of the fabric clock reached. -/
def Sys.reachClock (s : Sys) (t : Nat) : Sys := if t ≤ s.fclk then s else s.elapse (t - s.fclk)

/-- R447: the session that receives no command for UPD_TMO.IDLE seconds is discarded. -/
def Sys.sessionIdle (s0 : Sys) : Sys :=
  if s0.pantry != pantryOpen then s0
  else ((s0.reachClock (s0.upd.touched + s0.get UPD_TMO_IDLE * clocksPerSecond)).put UPD_STAT_PANTRY pantryEmpty).note 0x0802

def execSessionIdleTimeout (s : State) : Host.Outcome State Fault Refusal := run Sys.sessionIdle s

/-- R447: UPD_TMO.HOST seconds pass without an OPEN. -/
def Sys.hostWait (s0 : Sys) : Sys :=
  if s0.get UPD_STAT_STATE != updWaitHost || s0.upd.opened then s0
  else
    let s := (s0.reachClock (s0.upd.touched + s0.get UPD_TMO_HOST * clocksPerSecond)).note 0x0801
    { s with upd := { s.upd with touched := s.fclk } }

def execHostWaitTimeout (s : State) : Host.Outcome State Fault Refusal := run Sys.hostWait s

end Sys2Proof.Machine
end

