-- ==== Sys2Proof/Machine/Writes.lean ====
section
/-!
DEFINITION. What a register write does, block by block: the fields under their access types (R11, spec/00_scope.md), the ranges that each
register's description sets, and the commands that a write gives. The block and the agent have been judged before (Machine/Access.lean).
-/
namespace Sys2Proof.Machine

/-- A write stored if what the register would hold is in range, or refused with the block's code. -/
def Sys.storeIf (s : Sys) (a v code : Nat) (ok : Nat → Bool) : Sys :=
  if ok (s.wouldHold a v).toNat then s.storeWord a v else s.note code

/-- A field lies in `[lo, hi]`. -/
def inRange (w at_ width lo hi : Nat) : Bool := lo ≤ bits w at_ width && bits w at_ width ≤ hi

/-- The index of an array's element at `a`. -/
def ixOf (base stride a : Nat) : Nat := (a - base) / stride

/-! ## Control plane -/

/-- ANG (spec/02_mains_angle_clock.md): REFCH, HOFS and RUN act where they change. A refused REFCH or QUAL refuses the whole write, and of both
only 0x0405 is posted (DESIGN CHOICE, notes/assumptions/121.md). -/
def Sys.writeAngCtl (s : Sys) (v : Nat) : Sys :=
  let w := (s.wouldHold ANG_CTL v).toNat
  if 5 < bits w 1 3 then s.note 0x0405
  else if bits w 8 5 = 0 then s.note 0x0406
  else
    let s1 := (s.storeWord ANG_CTL v).put ⟨ANG_CTL, 0, 5⟩ (bits (s.word ANG_CTL) 0 5)
    let s2 := if bits w 1 3 = s.get ANG_CTL_REFCH then s1 else s1.refchTake (bits w 1 3)
    let s3 := if w.testBit 4 == s.on ANG_CTL_HOFS then s2 else if w.testBit 4 then s2.hofsSet else s2.hofsClear
    if w.testBit 0 == s.on ANG_CTL_RUN then s3 else if w.testBit 0 then s3.runSet else s3.runClear

def Sys.writeAng (s : Sys) (a v : Nat) : Sys :=
  if a = ANG_CTL then s.writeAngCtl v
  else if a = ANG_SLEW then s.storeIf a v 0x0406 fun w => bits w 16 6 != 0 && bits w 0 16 != 0
  else if a = ANG_VMIN then s.storeIf a v 0x0406 fun w => inRange w 0 7 10 90
  else if a = ANG_SNAP then (if v.testBit 0 then s.angSnap else s)
  else s.storeWord a v

/-- HIT (spec/09_hitil_station_exchange.md). -/
def Sys.writeHit (s : Sys) (a v : Nat) : Sys :=
  if a = HIT_CTL then
    (if bits (s.wouldHold a v).toNat 12 4 = 0 then s.note 0x0F0F
    else if v.testBit 0 && !s.on HIT_CTL_RUN then ((s.storeWord a v).put HIT_CTL_RUN 0).hitRunSet
    else s.storeWord a v)
  else if a = HIT_ETYPE then s.storeIf a v 0x0F0F fun w => 0x600 ≤ w
  else if a = HIT_SSEL then s.storeIf a v 0x0F0F fun w => w < 1280
  else s.storeWord a v

/-- FAB (spec/08_structure_image_and_fabric.md). -/
def Sys.writeFab (s : Sys) (a v : Nat) : Sys :=
  if a = FAB_CSEL then s.storeIf a v 0x1014 fun w => w ≤ 191 else s.storeWord a v

/-- MET (spec/07_metering.md). The front end's temperature at a command is open. -/
def Sys.writeMet (s : Sys) (a v : Nat) : Sys :=
  if a = MET_CTL then
    let s1 := (s.storeWord a v).put MET_CTL_RUN (s.get MET_CTL_RUN)
    if v.testBit 0 == s.on MET_CTL_RUN then s1 else if v.testBit 0 then s1.frontEndRun else s1.frontEndStop
  else if a = MET_SAVE then s.storeIf a v 0x1115 fun w => inRange w 0 12 1 3600
  else if a = MET_ARUP then s.storeIf a v 0x1115 fun w => w != 0
  else if a = MET_TCFG then s.storeIf a v 0x1115 fun w => inRange w 0 8 1 100
  else if a = MET_TCMD then (if v.testBit 0 then s.draw.2.applyTable 2 (sint 16 (s.draw.1 % 65536)) else s)
  else if MET_TRIM 0 ≤ a && a ≤ MET_TRIM 77 then s.metTrimWrite (ixOf (MET_TRIM 0) 4 a) (bits v 0 17)
  else s.storeWord a v

/-- VOT (spec/03_lanes_and_voting.md). -/
def Sys.writeVot (s : Sys) (a v : Nat) : Sys :=
  if a = VOT_CTL then s.storeIf a v 0x120E fun w => bits w 8 4 != 0
  else if a = VOT_RWIN then s.storeIf a v 0x120E fun w => inRange w 0 8 1 168
  else if a = VOT_CUFF then s.storeIf a v 0x120E fun w => bits w 8 4 != 0 && bits w 0 8 != 0
  else if a = VOT_RCFG then s.storeIf a v 0x120E fun w => bits w 16 4 != 0 && bits w 0 16 != 0
  else if a = VOT_LCMD then
    let n := Fin.ofNat 4 (bits v 8 2)
    if bits v 0 2 = 1 then s.laneRemoveCmd n else if bits v 0 2 = 2 then s.laneRejoinCmd n else if bits v 0 2 = 3 then s.note 0x120E else s
  else s.storeWord a v

/-- CYC (spec/04_cycle_engine.md): GO of the host's staging set and of the firmware's. -/
def Sys.writeCyc (s : Sys) (a v : Nat) : Sys :=
  if a = CYC_CTL || a = CYC_FACT then s.latchPhg.storeWord a v
  else if a = CYC_CHGMAX then s.storeIf a v 0x130E fun w => inRange w 0 13 1 4096
  else if a = CYC_RSAVE then s.storeIf a v 0x130E fun w => w != 0
  else if a = CYC_HSUBG then (if v.testBit 0 then s.changeSubmit .host else s)
  else if a = CYC_MSUBG then (if v.testBit 0 then s.changeSubmit .mgmt else s)
  else s.storeWord a v

/-- LOOP (spec/06_loop_engine.md). -/
def Sys.writeLoop (s : Sys) (a v : Nat) : Sys := if a = LOOP_SSEL then (s.storeWord a v).showSlot else s.storeWord a v

/-- CAN (spec/10_can_fd_controllers.md): R311, R304. A write that leaves MODE as it is asks for none, but for DETECT, which starts the search
again (R307). -/
def Sys.writeCanCtl (s : Sys) (k : Fin 9) (v : Nat) : Sys :=
  let mode := bits v 8 2
  if s.modeRefused k mode then s.canPost k 0x0E0E []
  else
    let s1 := s.storeWord (CAN_CTL k.val) v
    if mode = s.get (CAN_CTL_MODE k.val) && mode != modeDetect then s1 else s1.askMode k mode

def Sys.writeCan (s : Sys) (a v : Nat) : Sys :=
  let k := Fin.ofNat 9 (ixOf (CAN_CTL 0) 0x1000 a)
  let hitil := s.hitilOnly k
  if a = CAN_SPCMD then (if v.testBit 7 then s.canFails (Fin.ofNat 9 (bits v 0 3)) 4 else s)
  else if a = CAN_CTL k.val then (if hitil then s.canPost k 0x0E0C [] else s.writeCanCtl k v)
  else if a = CAN_BOFF k.val then (if hitil then s.canPost k 0x0E0C [] else s.storeWord a v)
  else if a = CAN_CMD k.val then
    (if hitil then s.canPost k 0x0E0C []
    else
      let s1 := if v.testBit 0 then s.canRecoverCmd k else s
      if v.testBit 1 || v.testBit 2 then s1.canAbortCmd k (v.testBit 1) (v.testBit 2) else s1)
  else if a = CAN_ADCTL k.val then
    (if hitil then s.canPost k 0x0E0C []
    else if bits v 8 8 = 0 || bits v 0 4 = 0 then s.canPost k 0x0E0E []
    else s.storeWord a v)
  else s.storeWord a v

/-! ## Data plane -/

/-- A ring's base or configuration, while its enable bit is 1 or out of range, is refused. -/
def Sys.writeRing (s : Sys) (p : Fin 3) (a v : Nat) (en : Fld) (ok : Bool) : Sys :=
  if s.on en || !ok then s.netPost p 0x0D07 [] else s.storeWord a v

/-- NET (spec/11_ethernet_ports.md): commands in the order of their bits. -/
def Sys.writeNetCmd (s : Sys) (who : Agent) (p : Fin 3) (v : Nat) : Sys :=
  let s1 := if v.testBit 0 then s.netReneg who p else s
  let s2 := if v.testBit 1 then s1.ringReset who p (NET_CTL_TXEN p.val) (NET_TXHEAD_IDX p.val) (NET_TXTAIL_IDX p.val) else s1
  if v.testBit 2 then s2.ringReset who p (NET_CTL_RXEN p.val) (NET_RXHEAD_IDX p.val) (NET_RXTAIL_IDX p.val) else s2

/-- XON and XOFF are in range, in their order, and QUANTA is not 0. -/
def pauseOk (w : Nat) : Bool := inRange w 24 6 1 30 && inRange w 16 6 2 31 && bits w 24 6 < bits w 16 6 && bits w 0 16 != 0

def Sys.writeNet (s : Sys) (who : Agent) (a v : Nat) : Sys :=
  let p := Fin.ofNat 3 (ixOf (NET_CTL 0) 0x4000 a)
  let n := p.val
  let held := (s.wouldHold a v).toNat
  if netRefuses who p then s.netPost p 0x0D07 []
  else if a = NET_CTL n then s.netCtlWrite who p v
  else if a = NET_CMD n then s.writeNetCmd who p v
  else if a = NET_ADV n then (if bits held 0 3 = 0 then s.netPost p 0x0D07 [] else s.storeWord a (if p = 2 then v % 8 else v))
  else if a = NET_MACL n || a = NET_MACH n then (if p = 2 then s else s.storeWord a v)
  else if a = NET_TXBASE n then s.writeRing p a v (NET_CTL_TXEN n) true
  else if a = NET_RXBASE n then s.writeRing p a v (NET_CTL_RXEN n) true
  else if a = NET_TXCFG n then s.writeRing p a v (NET_CTL_TXEN n) (inRange v 0 4 4 12)
  else if a = NET_RXCFG n then s.writeRing p a v (NET_CTL_RXEN n) (inRange v 0 4 4 12 && inRange v 8 6 2 63)
  else if a = NET_PAUSE n then (if pauseOk held then s.storeWord a v else s.netPost p 0x0D07 [])
  else if a = NET_MDIO n then (if v.testBit 30 then s.mdioRead who p (bits v 16 5) else s.storeWord a v)
  else s.storeWord a v

/-- DMA (spec/12_dma_arbiter_semaphores.md): the registers of a channel. GO goes before ABORT where one write carries both. -/
def Sys.writeChannel (s : Sys) (who : Agent) (a v : Nat) : Sys :=
  let c := Fin.ofNat 16 (ixOf (DMA_CHCMD 0) 0x20 a)
  if a = DMA_CHCMD c.val then
    let s1 := if v.testBit 0 then s.dmaGo who c else s
    if v.testBit 1 then s1.dmaAbort who c else s1
  else if chMissing c then s
  else if a = DMA_CHDESC c.val then (if s.chState c = chRun then s.chPost c 0x0B07 else s.storeWord a v)
  else if a = DMA_CHLK c.val then s.chlkWrite c v
  else s.storeWord a v

/-- The CAN rings of DMA. -/
def Sys.writeCanRing (s : Sys) (a v : Nat) : Sys :=
  let k := ixOf (DMA_CRBASE 0 0) 0x40 a
  let r := (a - DMA_CRBASE 0 0) % 0x40 / 0x10
  if a = DMA_CRCFG k r then s.crcfgWrite k r v
  else if a = DMA_CRBASE k r && s.on (DMA_CRCFG_EN k r) then s.ringPost k r 0x0B09
  else s.storeWord a v

/-- The host does not reach the interrupt bits of channels 10 to 15. -/
def Sys.writeDma (s : Sys) (who : Agent) (a v : Nat) : Sys :=
  if a = DMA_INT then s.storeWord a (if who = .host then v % 1024 else v)
  else if DMA_CRBASE 0 0 ≤ a then s.writeCanRing a v
  else if DMA_CHCMD 0 ≤ a then s.writeChannel who a v
  else s.storeWord a v

/-- MEM (spec/13_memory_integrity_and_spares.md). -/
def Sys.writeMem (s : Sys) (a v : Nat) : Sys :=
  if a = MEM_SCRUB then s.storeIf a v 0x0C11 fun w => 16 ≤ bits w 0 16
  else if a = MEM_THR then s.storeIf a v 0x0C11 fun w => bits w 0 8 != 0 && bits w 8 8 != 0 && bits w 16 8 != 0 && bits w 24 8 != 0
  else if a = MEM_LWEAR then s.storeIf a v 0x0C11 fun w => w != 0
  else if a = MEM_RCMD then s.forcedRepair v
  else s.storeWord a v

/-- LCK (spec/16_keys_tamper_lockers.md). -/
def Sys.writeLck (s : Sys) (a v : Nat) : Sys :=
  let k := ixOf (LCK_RNGA 0) 8 a
  if LCK_RNGA 0 ≤ a then s.lckRange k (a == LCK_RNGS k) v else s.storeWord a v

/-- ARB: MASK stops the count of a wait; a semaphore's owner releases it or clears its mark. -/
def Sys.writeArb (s : Sys) (who : Agent) (a v : Nat) : Sys :=
  if a = ARB_MASK then s.countWaits.storeWord a v
  else if ARB_RCFG 0 ≤ a && a ≤ ARB_RCFG 31 then s.rcfgWrite (ixOf (ARB_RCFG 0) 4 a) v
  else if ARB_SEM 0 ≤ a && a ≤ ARB_SEM 63 then
    let k := ixOf (ARB_SEM 0) 4 a
    if v.testBit 0 then s.semWrite who k true else if v.testBit 1 then s.semWrite who k false else s
  else s.storeWord a v

/-- The messages that wait behind a vector's mask go out when it is unmasked (PRESUMED, notes/assumptions/30.md). -/
def Sys.unmask (s : Sys) (k : Nat) : Sys :=
  if !(s.word (PCI_MSIX (4 * k + 3))).testBit 0 && s.bit (PCI_PBA_BITS 0) k then
    { s.putBit (PCI_PBA_BITS 0) k false with signals := s.signals ++ [k] }
  else s

/-- R33 (spec/01_architecture.md): the base is judged when a write sets EN. -/
def Sys.dwbWrite (s : Sys) (v : Nat) : Sys :=
  if v.testBit 0 && !inRange v 26 6 0x21 0x2B then s.note 0x1701 else s.storeWord PCI_DWB v

def Sys.writePci (s : Sys) (a v : Nat) : Sys :=
  if a = PCI_DWB then s.dwbWrite v
  else if PCI_MSIX 0 ≤ a && a ≤ PCI_MSIX 127 then (s.storeWord a v).unmask (ixOf (PCI_MSIX 0) 16 a)
  else s.storeWord a v

/-! ## Management plane -/

/-- SYS: the firmware clears the fault slots (R468). -/
def Sys.writeSys (s : Sys) (a v : Nat) : Sys := if a = SYS_FCLR then (if v.testBit 0 then s.clearFaults else s) else s.storeWord a v

/-- CLK (spec/14_clocks_power_reset.md). -/
def Sys.writeClk (s : Sys) (a v : Nat) : Sys :=
  if a = CLK_CTL then s.muxRequest v
  else if a = CLK_GATE then s.clkGateWrite v
  else if a = CLK_FMCTL then
    (if v.testBit 31 then s.meterGo (bits v 16 3) (bits v 0 16) else s.storeIf a v 0x0207 fun w => bits w 0 16 != 0)
  else s.storeWord a v

/-- PWR. -/
def Sys.writePwr (s : Sys) (who : Agent) (a v : Nat) : Sys :=
  if a = PWR_OP then s.opRequest (bits v 0 2)
  else if a = PWR_RCMD then (if v.testBit 31 then s.domainCmd (bits v 0 4) else s)
  else if a = PWR_SBCMD then (if v.testBit 0 then s.standbyRequest who else s)
  else if a = PWR_XSEL then s.storeIf a v 0x030C fun w => w ≤ 14
  else s.storeWord a v

/-- RTC_CMD (spec/15_cellar_and_rtc.md): one bit at a time. -/
def Sys.writeRtcCmd (s : Sys) (v : Nat) : Sys :=
  let c := v % 64
  if c = 1 then s.cross RTC_CMD 1 (s.word RTC_SETS) (s.get RTC_SETF_SUB)
  else if c = 2 then s.shiftCmd
  else if c = 4 then (if s.armRefused then s.note 0x0507 else s.rtcCommand 4)
  else if c = 16 && s.get RTC_PER_P = 0 then s.note 0x0507
  else if c = 0 || c = 8 || c = 16 || c = 32 then s.rtcCommand c
  else s.note 0x0507

/-- RTC: SETS, SETF, SHIFT and INTEN take a write at once; the other writable registers cross into the cellar (R405). -/
def Sys.writeRtc (s : Sys) (a v : Nat) : Sys :=
  if a = RTC_CMD then s.writeRtcCmd v
  else if a = RTC_WDAY && v % 8 = 0 then s.note 0x0507
  else if a = RTC_SETS || a = RTC_SETF || a = RTC_SHIFT || a = RTC_INTEN then s.storeWord a v
  else match regAt a with
    | some d => if d.rw = 0 && d.rwl = 0 && d.w1c = 0 && d.w1s = 0 then s else s.cross a v 0 0
    | none => s

/-- CEL: what the integrity word covers is sealed again (R398). -/
def Sys.writeCel (s : Sys) (a v : Nat) : Sys :=
  if a = CEL_CLOW then s.storeIf a v 0x0604 fun w => 2000 ≤ w && w ≤ 3400
  else if CEL_SCR 0 ≤ a && a ≤ CEL_SCR 7 then (s.storeWord a v).reseal else s.storeWord a v

/-- An operation of the key store by its number (R425, spec/16_keys_tamper_lockers.md). Whether the TRNG is healthy is open. -/
def Sys.keyCommand (s : Sys) (v : Nat) : Sys :=
  let op := bits v 24 4
  let slot := bits v 16 5
  let kind := bits v 4 4
  if op = 1 then s.derive slot (bits v 8 5) kind
  else if op = 2 then s.keyErase slot
  else if op = 3 then s.gcmEnc slot
  else if op = 4 then s.gcmDec slot
  else if op = 5 then s.keyHmac slot
  else if op = 6 then s.keySha
  else if op = 7 then s.keySign
  else if op = 8 then s.keyVerify
  else if op = 9 then s.keyEcdh slot kind
  else if op = 10 then s.draw.2.keyRandom (s.draw.1 % 2 == 0)
  else if op = 11 then s.hitLoad slot
  else s.keyOp [] none (fun _ => false) 0 fun y => (y, 0)

def Sys.writeKey (s : Sys) (a v : Nat) : Sys :=
  if a = KEY_CMD then (if v.testBit 31 then s.keyCommand v else s)
  else if a = KEY_FBURN then (if v.testBit 31 then s.fuseBurn (bits v 0 6) (s.word KEY_FDATA) else s)
  else s.storeWord a v

/-- UPD but its doorbell (spec/17_startup_and_image_update.md). -/
def Sys.writeUpd (s : Sys) (a v : Nat) : Sys :=
  if a = UPD_CTL then s.perpartWrite v
  else if a = UPD_TMO then s.storeIf a v 0x080A fun w => bits w 0 8 != 0 && bits w 8 8 != 0
  else s.storeWord a v

/-- UPD_CMD: the doorbell (R445). The front end's temperature at an activation is open. -/
def updCommand (who : Agent) (v : Nat) (s : State) : State :=
  if !v.testBit 31 then s
  else if v % 256 = 4 then
    let d := s.sys.draw
    mailboxRun 4 (sint 16 (d.1 % 65536)) { s with sys := d.2.ringDoorbell who }
  else mailboxRun (v % 256) 0 { s with sys := s.sys.ringDoorbell who }

/-- EVR (spec/18_management_and_event_recorder.md). -/
def Sys.writeEvr (s : Sys) (a v : Nat) : Sys :=
  let c := ixOf (EVR_CBIND 0) 0x40 a
  if a = EVR_FCFG then s.storeIf a v 0x0907 fun w => bits w 16 8 != 0 && bits w 0 11 != 0
  else if a = EVR_CCLR c then s.logClear c v
  else s.storeWord a v

/-- MGT: host commands by their number (R465); the front end's temperature at TEMPAPPLY is open. -/
def Sys.hostCmdWrite (s : Sys) (v : Nat) : Sys :=
  let op := v % 256
  if op = opAckFault then s.ackFault
  else if op = opTempApply then s.draw.2.tempApply (sint 16 (s.draw.1 % 65536))
  else if op = opFlush then s.hostFlush
  else s.hostRefuse op

def Sys.writeMgt (s : Sys) (a v : Nat) : Sys :=
  if a = MGT_WDT then s.storeIf a v 0x1605 fun w => inRange w 0 16 10 10000
  else if a = MGT_WDKICK then s.watchdogKick v
  else if a = MGT_HCMD then (if v.testBit 31 then s.hostCmdWrite v else s)
  else if MGT_SLIM 0 ≤ a && a ≤ MGT_SLIM 12 then s.storeIf a v 0x1605 fun w => bits w 0 16 < bits w 16 16
  else s.storeWord a v

/-! ## All blocks -/

/-- The block that holds an address (R31). -/
def regBlock (a : Nat) : Nat := (a - 0x40000000) / 0x10000

/-- A write to a register, but the doorbell of UPD. -/
def Sys.writeBlock (s : Sys) (who : Agent) (a v : Nat) : Sys :=
  match regBlock a with
  | 0x01 => s.writeSys a v
  | 0x02 => s.writeClk a v
  | 0x03 => s.writePwr who a v
  | 0x04 => s.writeAng a v
  | 0x05 => s.writeRtc a v
  | 0x06 => s.writeCel a v
  | 0x07 => s.writeKey a v
  | 0x08 => s.writeUpd a v
  | 0x09 => s.writeEvr a v
  | 0x0A => s.writeArb who a v
  | 0x0B => s.writeDma who a v
  | 0x0C => s.writeMem a v
  | 0x0D => s.writeNet who a v
  | 0x0E => s.writeCan a v
  | 0x0F => s.writeHit a v
  | 0x10 => s.writeFab a v
  | 0x11 => s.writeMet a v
  | 0x12 => s.writeVot a v
  | 0x13 => s.writeCyc a v
  | 0x14 => s.writeLoop a v
  | 0x15 => s.writeLck a v
  | 0x16 => s.writeMgt a v
  | 0x17 => s.writePci a v
  | _ => s

/-- A write to a register. -/
def writeRegister (who : Agent) (a v : Nat) (s : State) : State :=
  if a = UPD_CMD then updCommand who v s else { s with sys := s.sys.writeBlock who a v }

end Sys2Proof.Machine
end

