-- ==== Sys2Proof/Machine/Access.lean ====
section
/-!
DEFINITION. Accesses of the management core and of the host (spec/01_architecture.md): the address map (R27, R29), the register blocks (R31,
R509) with the reads that have an effect (R11), the rules of size and alignment (R9), absent peers (R387), the lane windows (R30), the DRAM
window (R32 to R34) and the portals (R432, R433).
-/
namespace Sys2Proof.Machine

/-! ## Absent peers (R387) -/

/-- A read answered with a bus error to the management core. -/
def Sys.busFail (s : Sys) : Sys :=
  { s with response := { value := 0, bytes := [], busError := true, unsupported := false, poisoned := false } }

/-- A read of the host toward a domain that is down. -/
def Sys.countAbsent (s : Sys) (d : Nat) : Sys :=
  { s with pwr := { s.pwr with absent := putKey s.pwr.absent d (Nat.min (lookupD 0 s.pwr.absent d + 1) 0xFFFF) } }

/-- A read toward a domain that is down. -/
def Sys.absentRead (s : Sys) (who : Agent) (d : Nat) : Sys :=
  match who with
  | .host => (s.countAbsent d).answer 0
  | .mgmt => s.busFail

/-- The domain that holds a register (R15, R386). -/
def regDomain (a : Nat) : Nat :=
  match regBlock a with
  | 0x04 | 0x0F | 0x10 | 0x11 | 0x12 | 0x13 | 0x14 => 1
  | 0x0B | 0x0C | 0x15 => 9
  | 0x0D => 11 + Nat.min ((a - 0x400D0000) / 0x4000) 2
  | 0x0E => 8
  | 0x17 => 14
  | _ => 0

/-! ## Register reads -/

/-- A field's bits at their place in the register. -/
def place (f : Fld) (v : Nat) : Nat := v % 2 ^ f.width * 2 ^ f.lo

/-- Reads of a register that is gathered from the block's state. -/
def Sys.gathered (s : Sys) (who : Agent) (a : Nat) : Option Nat :=
  let ch := s.get FAB_CSEL_UC
  let c := s.chan ch
  let d := s.get PWR_XSEL_DOM
  let n := Fin.ofNat 4 (ixOf (VOT_LSTAT 0) 0x1000 a)
  let e := ixOf (EVR_CBIND 0) 0x40 a
  if a = HIT_STAT then some s.hitStat
  else if a = HIT_SSTAT then some s.hitSelected.1
  else if a = HIT_SMISS then some s.hitSelected.2.1
  else if a = HIT_SLAST then some s.hitSelected.2.2
  else if a = FAB_STAT then some (s.word a + if s.testSources.isEmpty then 0 else 2 ^ 16)
  else if a = FAB_CSTAT then
    some (place FAB_CSTAT_QUAL (if (s.chanRec ch).func = 0 then 0 else c.qual) + place FAB_CSTAT_DRIVEN c.driven.toNat
      + place FAB_CSTAT_LEVEL (s.pinLevel ch).toNat
      + place FAB_CSTAT_PEND c.pending.isSome.toNat + place FAB_CSTAT_SPARE c.spare.isSome.toNat + place FAB_CSTAT_FUNC (s.chanRec ch).func)
  else if a = FAB_CVAL then some c.value
  else if a = FAB_CAUX then some c.aux
  else if a = VOT_LSTAT n.val then some ((s.put (VOT_LSTAT_WINCNT n.val) (s.windowCount n)).word a)
  else if a = EVR_CSTAT e then some (s.cursorLost e)
  else if a = PWR_XSTAT then some (place PWR_XSTAT_PEERUP (s.domUp d).toNat + lookupD 0 s.pwr.drops d)
  else if a = PWR_XABS then some (lookupD 0 s.pwr.absent d)
  else if a = DMA_INT && who == .host then some (s.word a % 1024)
  else none

/-- A register's RC fields cleared after its read (R11), with what the block keeps of them. -/
def Sys.clearRead (s : Sys) (a rc : Nat) : Sys :=
  let d := s.get PWR_XSEL_DOM
  if a = PWR_XSTAT then { s with pwr := { s.pwr with drops := putKey s.pwr.drops d 0 } }
  else if a = PWR_XABS then { s with pwr := { s.pwr with absent := putKey s.pwr.absent d 0 } }
  else
    let s1 := if rc = 0 then s else s.setReg a (s.reg a &&& ~~~ BitVec.ofNat 32 rc)
    if a = CYC_PEAK then allLanes.foldl (fun y n => y.modLane n fun l => { l with rt := { l.rt with peak := 0 } }) s1 else s1

/-- A register that returns what it holds; a WO field reads 0. -/
def Sys.plainRead (s : Sys) (who : Agent) (a : Nat) : Sys :=
  match regAt a with
  | none => s.answer 0
  | some d =>
    let v := (s.gathered who a).getD (s.reg a &&& ~~~ BitVec.ofNat 32 d.wo).toNat
    (s.clearRead a d.rc).answer v

/-- An offset of a CAN channel at which DMA has no register: its channels 8 and 9 have no command, descriptor, residue and locker word
(R329, spec/12_dma_arbiter_semaphores.md). -/
def chReserved (a : Nat) : Bool :=
  DMA_CHCMD 0 ≤ a && a < DMA_CHCMD 16 && chMissing (Fin.ofNat 16 (ixOf (DMA_CHCMD 0) 0x20 a))
    && !([8, 9].any fun c => a == DMA_CHSTAT c || a == DMA_CHBYT c)

/-- The reads that latch or fetch, and the plain ones. -/
def Sys.readBlock (s : Sys) (who : Agent) (a : Nat) : Sys :=
  let e := ixOf (EVR_CBIND 0) 0x40 a
  if a = ANG_TIMEL then s.timelRead
  else if a = VOT_VCYCL then s.vcyclRead
  else if a = RTC_TIMES then s.timesRead
  else if a = CYC_FLT then s.cycFltRead
  else if a = LOOP_TRDAT then s.trdatRead
  else if ARB_SEM 0 ≤ a && a ≤ ARB_SEM 63 then s.semAcquire who (ixOf (ARB_SEM 0) 4 a)
  else if a = EVR_CDAT e 0 && e < 8 then s.cursorFetch e
  else if a = MET_FRZL then (s.setWord MET_FRZH (s.fe.freeze / 2 ^ 32)).answer (s.word MET_FRZL)
  else if a = PWR_SBDURL then (s.setWord PWR_SBDURH (s.pwr.standbyDur / 2 ^ 32)).answer s.pwr.standbyDur
  else if chReserved a then s.answer 0
  else s.plainRead who a

/-! ## Access rights (R31, R509) -/

/-- The host's access to the blocks. -/
def blockHost (b : Nat) : HostAccess :=
  if [0x02, 0x06, 0x07].contains b then .none
  else if [0x01, 0x03, 0x04, 0x0C, 0x0F, 0x10, 0x11, 0x12, 0x15].contains b then .read
  else .full

/-- A mapped block. -/
def blockMapped (b : Nat) : Bool := 1 ≤ b && b ≤ 0x17

/-- An access of the host that is refused with 0x0112: by its block, by its register, or on a channel of the management class. An offset
without a register acts as its block does (R10). -/
def hostRefused (write : Bool) (a : Nat) : Bool :=
  let h := match regAt a with
    | some d => d.host
    | none => blockHost (regBlock a)
  let defined := (regAt a).isSome && !chReserved a
  if defined then h == .none || (write && h == .read) || (DMA_CHCMD 10 ≤ a && a < DMA_CHCMD 16)
  else blockHost (regBlock a) == .none || (write && blockHost (regBlock a) == .read)

/-- The NET2 ring registers, which are reserved (R313). -/
def net2Ring (a : Nat) : Bool := 0x400D8020 ≤ a && a < 0x400D8040

/-- A write to a register block. A host write to the reserved ring registers of NET2 is refused as one to any NET2 register (R313). -/
def regWrite (who : Agent) (a size v : Nat) (s : State) : State :=
  let on := fun (f : Sys → Sys) => ({ s with sys := f s.sys } : State)
  if size != 4 || a % 4 != 0 then on fun y => y.note 0x0110
  else if !blockMapped (regBlock a) then on fun y => y.note 0x0113
  else if who == .host && hostRefused true a then on fun y => y.note 0x0112
  else if !s.sys.peerUp (regDomain a) then on fun y => y.dropWrite (regDomain a)
  else if who == .host && net2Ring a then on fun y => y.netPost 2 0x0D07 []
  else if (regAt a).isNone then s
  else writeRegister who a (v % 2 ^ 32) s

/-- A read of a register block. -/
def Sys.regRead (s : Sys) (who : Agent) (a size : Nat) : Sys :=
  if size != 4 || a % 4 != 0 then (s.note 0x0110).answer 0
  else if !blockMapped (regBlock a) then (s.note 0x0113).answer 0
  else if who == .host && hostRefused false a then (s.note 0x0112).answer 0
  else if !s.peerUp (regDomain a) then s.absentRead who (regDomain a)
  else s.readBlock who a

/-! ## Memory -/

/-- What a read of memory returns whose contents are open: the boot ROM (DESIGN CHOICE, notes/assumptions/97.md). -/
def Sys.answerOpen (s : Sys) (n : Nat) : Sys := s.draw.2.answer (s.draw.1 % 256 ^ n)

/-- R9: a naturally aligned access of 1, 2 or 4 bytes. -/
def aligned (a n : Nat) : Bool := (n == 1 || n == 2 || n == 4) && a % n == 0

/-- R30, R69: a write through a lane's window. A lane in FINAL, SHADOW or VOTING counts as a voting lane. -/
def Sys.windowWrite (s : Sys) (n : Fin 4) (off size v : Nat) : Sys :=
  if !aligned off size then s.note 0x0110
  else if s.laneAbsent n then s.dropWrite (2 + n.val)
  else if s.receives n then s.note 0x0114
  else s.wr (laneBase n + off) size v

/-- R30: a read through a lane's window. -/
def Sys.windowRead (s : Sys) (n : Fin 4) (off size : Nat) : Sys :=
  if !aligned off size then (s.note 0x0110).answer 0
  else if s.laneAbsent n then s.busFail
  else s.answer (s.lrd n off size)

/-- A write of the management core to DRAM. -/
def Sys.dramStore (s : Sys) (a size v : Nat) : Sys :=
  match s.dramGap with
  | some d => s.dropWrite d
  | none => let r := s.dramPut 8 a (bytesLE size v); if r.2 then r.1.busFail else r.1

/-- A read of the management core from DRAM. -/
def Sys.dramLoad (s : Sys) (a size : Nat) : Sys :=
  match s.dramGap with
  | some _ => s.busFail
  | none => let r := s.dramGet 8 a size; if r.2 then r.1.busFail else r.1.answer (r.1.rd a size)

/-- A write of the management core outside the register blocks (R27). The boot ROM takes R9's rule of size and alignment too, though its list
of memories leaves it out (DESIGN CHOICE, notes/assumptions/92.md). -/
def Sys.memStore (s : Sys) (a size v : Nat) : Sys :=
  match windowOf a with
  | some n => s.windowWrite n (a - laneBase n) size v
  | none =>
    if !aligned a size then s.note 0x0110
    else if a < 0x40000 then s
    else if within a size 0x10000000 0x10100000 then s.wr a size v
    else if within a size 0x20000000 0x20200000 then
      (if !s.peerUp 1 then s.dropWrite 1 else s.wr a size v)
    else if within a size 0x30000000 0x31000000 then s.loftStore a size v
    else if within a size 0x80000000 0xB8000000 then s.dramStore a size v
    else s.note 0x0113

/-- A read of the management core outside the register blocks. The boot ROM's contents are open, and it takes R9's rule of size and alignment
too (DESIGN CHOICE, notes/assumptions/92.md). -/
def Sys.memLoad (s : Sys) (a size : Nat) : Sys :=
  match windowOf a with
  | some n => s.windowRead n (a - laneBase n) size
  | none =>
    if !aligned a size then (s.note 0x0110).answer 0
    else if a < 0x40000 then s.answerOpen size
    else if within a size 0x10000000 0x10100000 then s.answer (s.rd a size)
    else if within a size 0x20000000 0x20200000 then
      (if !s.peerUp 1 then s.busFail else s.answer (s.rd a size))
    else if within a size 0x30000000 0x31000000 then
      (if 0x30F00000 ≤ a then (s.note 0x0C11).answer 0 else s.answer (s.rd a size))
    else if within a size 0x80000000 0xB8000000 then s.dramLoad a size
    else (s.note 0x0113).answer 0

/-! ## The address map (R27, R29) -/

/-- The register blocks' 16 MiB. -/
def inBlocks (a : Nat) : Bool := 0x40000000 ≤ a && a < 0x41000000

/-- A write at a module address. The host's BAR0 reaches the register blocks alone. -/
def busWrite (who : Agent) (a size v : Nat) (s : State) : State :=
  if inBlocks a then regWrite who a size v s
  else if who == .host then s
  else { s with sys := s.sys.memStore a size v }

/-- A read at a module address. -/
def Sys.busRead (s : Sys) (who : Agent) (a size : Nat) : Sys :=
  if inBlocks a then s.regRead who a size else if who == .host then s else s.memLoad a size

def execRegisterWrite (who : Agent) (addr size data : Nat) (s : State) : Host.Outcome State Fault Refusal :=
  .next (busWrite who addr size data s)

def execRcRegisterRead (who : Agent) (addr size : Nat) (s : State) : Host.Outcome State Fault Refusal :=
  run (fun y => y.busRead who addr size) s

/-- An access of the host to a block or register that is closed to it. -/
def execHostBlockedAccess (write : Bool) (addr data : Nat) (s : State) : Host.Outcome State Fault Refusal :=
  .next (if write then busWrite .host addr 4 data s else { s with sys := s.sys.busRead .host addr 4 })

/-- An access outside every range. -/
def execUnmappedAccess (who : Agent) (write : Bool) (addr data : Nat) (s : State) : Host.Outcome State Fault Refusal :=
  .next (if write then busWrite who addr 4 data s else { s with sys := s.sys.busRead who addr 4 })

/-- A lane's window at an offset; the upper half of the stride is unmapped. -/
def Sys.laneWindow (s : Sys) (write : Bool) (n : Fin 4) (off size v : Nat) : Sys :=
  if 0x800000 ≤ off then
    let code := if aligned off size then 0x0113 else 0x0110
    if write then s.note code else (s.note code).answer 0
  else if write then s.windowWrite n off size v else s.windowRead n off size

def execLaneWindowAccess (write : Bool) (lane : Fin 4) (offset size data : Nat) (s : State) : Host.Outcome State Fault Refusal :=
  run (fun y => y.laneWindow write lane offset size data) s

def execPciDwbWrite (who : Agent) (data : Nat) (s : State) : Host.Outcome State Fault Refusal :=
  .next (regWrite who PCI_DWB 4 data s)

/-! ## BAR2 (R32 to R35) -/

/-- A request outside its BAR: Unsupported Request. -/
def Sys.unsupported (s : Sys) : Sys :=
  { s.note 0x1702 with response := { value := 0, bytes := [], busError := false, unsupported := true, poisoned := false } }

/-- A completion with the EP bit. -/
def Sys.poisonAnswer (s : Sys) (bs : List Nat) : Sys :=
  { s with response := { value := 0, bytes := bs, busError := false, unsupported := false, poisoned := true } }

/-- A host read of DRAM. -/
def Sys.hostLoad (s : Sys) (a n : Nat) : Sys :=
  match s.dramGap with
  | some d => (s.countAbsent d).answerBytes (List.replicate n 0)
  | none =>
    let r := s.dramGet 10 a n
    if r.2 then r.1.poisonAnswer (memBytes r.1.mem a n) else r.1.answerBytes (memBytes r.1.mem a n)

/-- A host write of DRAM. -/
def Sys.hostStore (s : Sys) (a : Nat) (bs : List Nat) : Sys :=
  match s.dramGap with
  | some d => s.dropWrite d
  | none => (s.dramPut 10 a bs).1

/-- A host request through BAR2: a read of `len` bytes, or a write of `bytes`. A request beyond the BAR's size is Unsupported (R35) also while
the window is closed, where R33 would give zeros (DESIGN CHOICE, notes/assumptions/113.md). -/
def Sys.bar2 (s : Sys) (write : Bool) (off len : Nat) (bytes : List Nat) : Sys :=
  let n := if write then bytes.length else len
  let a := s.get PCI_DWB_BASE * 2 ^ 26 + off
  if 0x4000000 < off + n then s.unsupported
  else if !s.on PCI_DWB_EN then (if write then s else s.answerBytes (List.replicate n 0))
  else if write then s.hostStore a bytes else s.hostLoad a n

def execHostDramWindowAccess (write : Bool) (offset : Nat) (len : Nat) (bytes : List Nat) (s : State) : Host.Outcome State Fault Refusal :=
  run (fun y => y.bar2 write offset len bytes) s

/-! ## BAR4 (R432, R433) -/

/-- The address of a point's mirror record (R24). -/
def mirrorAt (i : Nat) : Nat := 0x80000000 + 32 * i

/-- Point `i` is visible in portal `p`. -/
def Sys.visibleIn (s : Sys) (p i : Nat) : Bool :=
  s.on (LCK_PBIND_VALID p)
    && (s.get (LCK_PBIND_LOCKER p) == 0 || s.rd (mirrorAt i + 6) 2 % 1024 == s.get (LCK_PBIND_LOCKER p))

/-- The entry of a point: VALUE, QUALITY and the low bits of CYCLE. -/
def Sys.portalEntry (s : Sys) (i : Nat) : Nat :=
  s.rd (mirrorAt i) 4 + 2 ^ 32 * (s.rd (mirrorAt i + 4) 2 + 2 ^ 16 * s.rd (mirrorAt i + 8) 2)

/-- A read's bytes as the host receives them. -/
def Sys.answerEntry (s : Sys) (n v : Nat) : Sys :=
  { s with response := { value := v % 2 ^ 32, bytes := bytesLE n v, busError := false, unsupported := false, poisoned := false } }

/-- R432: a read at an offset of a portal. -/
def Sys.portalRead (s : Sys) (p off n : Nat) : Sys :=
  let i := off / 8
  if !((n == 4 || n == 8) && off % n == 0) || !s.on (LCK_PBIND_VALID p) then (s.incSat (LCK_PSTAT_RREF p)).answerEntry n 0
  else
    let r := s.dramGet 10 (mirrorAt i) 32
    let v := if s.visibleIn p i then s.portalEntry i / 2 ^ (8 * (off % 8)) % 256 ^ n else 0
    if r.2 && s.visibleIn p i then r.1.poisonAnswer (bytesLE n v) else r.1.answerEntry n v

/-- A write that the window does not take. -/
def Sys.portalRefuse (s : Sys) (p i : Nat) : Sys :=
  ((s.incSat (LCK_PSTAT_WREF p)).put (LCK_PCODE_CODE p) 0x1503).postLimited (0x15030000 + p) clocksPerSecond 0x1503 (s.get (LCK_PBIND_LOCKER p))
    [(p, 1), (i, 4)]

/-- R433: a write at an offset of a portal, offered to the change queue. -/
def Sys.portalWrite (s : Sys) (p off n v : Nat) : Sys :=
  let i := off / 8
  let locker := s.get (LCK_PBIND_LOCKER p)
  let open_ := s.on (LCK_PBIND_VALID p) && s.on (LCK_PBIND_WRITE p) && s.lockerWrites locker
  if !(n == 4 && off % 8 == 0) || !open_ || !s.visibleIn p i then s.portalRefuse p i
  else
    let r := s.offer 3 locker i 0 (v % 2 ^ 32)
    if r.2.1 = 0 then r.1.setWord (LCK_PSEQ p) r.2.2 else r.1.put (LCK_PCODE_CODE p) r.2.1

/-- A request through BAR4, which ends after the last portal; without the data plane or the DRAM the portals are absent (R37). -/
def Sys.bar4 (s : Sys) (write : Bool) (p off n v : Nat) : Sys :=
  let a := p * 2 ^ 20 + off
  if 2 ^ 24 < a + n then s.unsupported
  else match s.dramGap with
    | some d => if write then s.dropWrite d else (s.countAbsent d).answerEntry n 0
    | none => if write then s.portalWrite (a / 2 ^ 20) (a % 2 ^ 20) n v else s.portalRead (a / 2 ^ 20) (a % 2 ^ 20) n

def execPortalRead (portal : Fin 16) (offset size : Nat) (s : State) : Host.Outcome State Fault Refusal :=
  run (fun y => y.bar4 false portal.val offset size 0) s

def execPortalWrite (portal : Fin 16) (offset size data : Nat) (s : State) : Host.Outcome State Fault Refusal :=
  run (fun y => y.bar4 true portal.val offset size data) s

end Sys2Proof.Machine
end

