-- ==== Sys2Proof/Machine/Dispatch.lean ====
section
/-!
DEFINITION. One arm for each command: its meaning, called directly, or its rejection by name.
-/
namespace Sys2Proof.Machine

/-- The meaning of a command on everything but the queue. -/
def exec (i : Instr) (s : State) : Host.Outcome State Fault Refusal :=
  match i with
  | .registerWrite who addr size data => Sys2Proof.Machine.execRegisterWrite who addr size data s
  | .rcRegisterRead who addr size => Sys2Proof.Machine.execRcRegisterRead who addr size s
  | .hostBlockedAccess write addr data => Sys2Proof.Machine.execHostBlockedAccess write addr data s
  | .unmappedAccess who write addr data => Sys2Proof.Machine.execUnmappedAccess who write addr data s
  | .laneWindowAccess write lane offset size data => Sys2Proof.Machine.execLaneWindowAccess write lane offset size data s
  | .pciDwbWrite who data => Sys2Proof.Machine.execPciDwbWrite who data s
  | .hostDramWindowAccess write offset len bytes => Sys2Proof.Machine.execHostDramWindowAccess write offset len bytes s
  | .portalRead portal offset size => Sys2Proof.Machine.execPortalRead portal offset size s
  | .portalWrite portal offset size data => Sys2Proof.Machine.execPortalWrite portal offset size data s
  | .zeroCrossing clocks rising interval rms => Sys2Proof.Machine.execZeroCrossing clocks rising interval rms s
  | .crossingMissing => Sys2Proof.Machine.execCrossingMissing s
  | .correctionEnd => Sys2Proof.Machine.execCorrectionEnd s
  | .angRunSet => Sys2Proof.Machine.execAngRunSet s
  | .angRunClear => Sys2Proof.Machine.execAngRunClear s
  | .hofsSet => Sys2Proof.Machine.execHofsSet s
  | .hofsClear => Sys2Proof.Machine.execHofsClear s
  | .refchWrite channel => Sys2Proof.Machine.execRefchWrite channel s
  | .angSnap => Sys2Proof.Machine.execAngSnap s
  | .angTimelRead who => Sys2Proof.Machine.execAngTimelRead who s
  | .lockWaitExpired => Sys2Proof.Machine.execLockWaitExpired s
  | .cycleStart => Sys2Proof.Machine.execCycleStart s
  | .collectorClose => Sys2Proof.Machine.execCollectorClose s
  | .compute lane => Sys2Proof.Machine.execCompute lane s
  | .llpDone lane => Sys2Proof.Machine.execLlpDone lane s
  | .vote => Sys2Proof.Machine.execVote s
  | .emitStart => Sys2Proof.Machine.execEmitStart s
  | .controlPlaneRestart temperature => Sys2Proof.Machine.execControlPlaneRestart temperature s
  | .laneResetEnd lane => Sys2Proof.Machine.execLaneResetEnd lane s
  | .reloadComplete lane => Sys2Proof.Machine.execReloadComplete lane s
  | .copyRoundEnd lane => Sys2Proof.Machine.execCopyRoundEnd lane s
  | .finalRoundEnd lane => Sys2Proof.Machine.execFinalRoundEnd lane s
  | .laneRemoveCmd lane => Sys2Proof.Machine.execLaneRemoveCmd lane s
  | .laneRejoinCmd lane => Sys2Proof.Machine.execLaneRejoinCmd lane s
  | .votVcyclRead who => Sys2Proof.Machine.execVotVcyclRead who s
  | .retentiveSave lane complete => Sys2Proof.Machine.execRetentiveSave lane complete s
  | .refusedEntryReport => Sys2Proof.Machine.execRefusedEntryReport s
  | .changeSubmit who => Sys2Proof.Machine.execChangeSubmit who s
  | .cycFltRead who => Sys2Proof.Machine.execCycFltRead who s
  | .ldv lane o => Sys2Proof.Machine.execLdv lane o s
  | .stv lane o => Sys2Proof.Machine.execStv lane o s
  | .ldp lane o => Sys2Proof.Machine.execLdp lane o s
  | .mov lane o => Sys2Proof.Machine.execMov lane o s
  | .ldx lane o => Sys2Proof.Machine.execLdx lane o s
  | .cvt lane o => Sys2Proof.Machine.execCvt lane o s
  | .nop lane o => Sys2Proof.Machine.execNop lane o s
  | .add lane o => Sys2Proof.Machine.execAdd lane o s
  | .sub lane o => Sys2Proof.Machine.execSub lane o s
  | .mul lane o => Sys2Proof.Machine.execMul lane o s
  | .div lane o => Sys2Proof.Machine.execDiv lane o s
  | .mod lane o => Sys2Proof.Machine.execMod lane o s
  | .neg lane o => Sys2Proof.Machine.execNeg lane o s
  | .abs lane o => Sys2Proof.Machine.execAbs lane o s
  | .min lane o => Sys2Proof.Machine.execMin lane o s
  | .max lane o => Sys2Proof.Machine.execMax lane o s
  | .clmp lane o => Sys2Proof.Machine.execClmp lane o s
  | .sqrt lane o => Sys2Proof.Machine.execSqrt lane o s
  | .cmp lane o => Sys2Proof.Machine.execCmp lane o s
  | .and lane o => Sys2Proof.Machine.execAnd lane o s
  | .or lane o => Sys2Proof.Machine.execOr lane o s
  | .xor lane o => Sys2Proof.Machine.execXor lane o s
  | .not lane o => Sys2Proof.Machine.execNot lane o s
  | .lnot lane o => Sys2Proof.Machine.execLnot lane o s
  | .shl lane o => Sys2Proof.Machine.execShl lane o s
  | .shr lane o => Sys2Proof.Machine.execShr lane o s
  | .sar lane o => Sys2Proof.Machine.execSar lane o s
  | .rol lane o => Sys2Proof.Machine.execRol lane o s
  | .btst lane o => Sys2Proof.Machine.execBtst lane o s
  | .bset lane o => Sys2Proof.Machine.execBset lane o s
  | .bclr lane o => Sys2Proof.Machine.execBclr lane o s
  | .set lane o => Sys2Proof.Machine.execSet lane o s
  | .br lane o => Sys2Proof.Machine.execBr lane o s
  | .brt lane o => Sys2Proof.Machine.execBrt lane o s
  | .brf lane o => Sys2Proof.Machine.execBrf lane o s
  | .call lane o => Sys2Proof.Machine.execCall lane o s
  | .ret lane o => Sys2Proof.Machine.execRet lane o s
  | .endTask lane o => Sys2Proof.Machine.execEnd lane o s
  | .tmr lane o => Sys2Proof.Machine.execTmr lane o s
  | .tet lane o => Sys2Proof.Machine.execTet lane o s
  | .trst lane o => Sys2Proof.Machine.execTrst lane o s
  | .ctu lane o => Sys2Proof.Machine.execCtu lane o s
  | .ctd lane o => Sys2Proof.Machine.execCtd lane o s
  | .crst lane o => Sys2Proof.Machine.execCrst lane o s
  | .cld lane o => Sys2Proof.Machine.execCld lane o s
  | .ccv lane o => Sys2Proof.Machine.execCcv lane o s
  | .redg lane o => Sys2Proof.Machine.execRedg lane o s
  | .fedg lane o => Sys2Proof.Machine.execFedg lane o s
  | .qld lane o => Sys2Proof.Machine.execQld lane o s
  | .qok lane o => Sys2Proof.Machine.execQok lane o s
  | .lprd lane o => Sys2Proof.Machine.execLprd lane o s
  | .lpwr lane o => Sys2Proof.Machine.execLpwr lane o s
  | .stp lane o => Sys2Proof.Machine.execStp lane o s
  | .swa lane o => Sys2Proof.Machine.execSwa lane o s
  | .dlq lane o => Sys2Proof.Machine.execDlq lane o s
  | .cal lane o => Sys2Proof.Machine.execCal lane o s
  | .illegalInstruction lane => Sys2Proof.Machine.execIllegalInstruction lane s
  | .loopEventReport => Sys2Proof.Machine.execLoopEventReport s
  | .loopTrdatRead who => Sys2Proof.Machine.execLoopTrdatRead who s
  | .sampleBlock codes => Sys2Proof.Machine.execSampleBlock codes s
  | .blockJob lane => Sys2Proof.Machine.execBlockJob lane s
  | .meterEventReport => Sys2Proof.Machine.execMeterEventReport s
  | .metTrimWrite k trim => Sys2Proof.Machine.execMetTrimWrite k trim s
  | .applyCommand temperature => Sys2Proof.Machine.execApplyCommand temperature s
  | .temperatureBandCheck temperature => Sys2Proof.Machine.execTemperatureBandCheck temperature s
  | .frontEndFailed => Sys2Proof.Machine.execFrontEndFailed s
  | .frontEndReset success temperature => Sys2Proof.Machine.execFrontEndReset success temperature s
  | .energySave complete => Sys2Proof.Machine.execEnergySave complete s
  | .flushJob lane => Sys2Proof.Machine.execFlushJob lane s
  | .meteringImageSwitch lane => Sys2Proof.Machine.execMeteringImageSwitch lane s
  | .channelSample conversions => Sys2Proof.Machine.execChannelSample conversions s
  | .outputApply angle => Sys2Proof.Machine.execOutputApply angle s
  | .pinEdge uc level clocks => Sys2Proof.Machine.execPinEdge uc level clocks s
  | .stuckTimeout uc => Sys2Proof.Machine.execStuckTimeout uc s
  | .timedSwitch uc => Sys2Proof.Machine.execTimedSwitch uc s
  | .daliFrameSend line => Sys2Proof.Machine.execDaliFrameSend line s
  | .daliRetry line => Sys2Proof.Machine.execDaliRetry line s
  | .daliAnswerWindowClose line => Sys2Proof.Machine.execDaliAnswerWindowClose line s
  | .daliBackwardFrame line data bad => Sys2Proof.Machine.execDaliBackwardFrame line data bad s
  | .daliLineFailed line => Sys2Proof.Machine.execDaliLineFailed line s
  | .daliLineRestored line => Sys2Proof.Machine.execDaliLineRestored line s
  | .fabricScrubWord corrected uncorrectable => Sys2Proof.Machine.execFabricScrubWord corrected uncorrectable s
  | .cellFailed cell cause => Sys2Proof.Machine.execCellFailed cell cause s
  | .spareCellIn uc => Sys2Proof.Machine.execSpareCellIn uc s
  | .fabricFailed => Sys2Proof.Machine.execFabricFailed s
  | .bankSupplyLost bank millivolts => Sys2Proof.Machine.execBankSupplyLost bank millivolts s
  | .bankSupplyRestored bank millivolts => Sys2Proof.Machine.execBankSupplyRestored bank millivolts s
  | .hitilInputFrame frame => Sys2Proof.Machine.execHitilInputFrame frame s
  | .joinRequest frame => Sys2Proof.Machine.execJoinRequest frame s
  | .admitStation station => Sys2Proof.Machine.execAdmit station s
  | .hitRunSet => Sys2Proof.Machine.execHitRunSet s
  | .canFrameReceived k frame => Sys2Proof.Machine.execCanFrameReceived k frame s
  | .canBusError k found dataPhase transmitting => Sys2Proof.Machine.execCanBusError k found dataPhase transmitting s
  | .canTxComplete k sent => Sys2Proof.Machine.execCanTxComplete k sent s
  | .canAbort who k q0 q1 => Sys2Proof.Machine.execCanAbort who k q0 q1 s
  | .recover who k => Sys2Proof.Machine.execRecover who k s
  | .busOffHoldExpired k => Sys2Proof.Machine.execBusOffHoldExpired k s
  | .busOffRecovered k => Sys2Proof.Machine.execBusOffRecovered k s
  | .canModeWrite who k mode => Sys2Proof.Machine.execCanModeWrite who k mode s
  | .canModeApply k => Sys2Proof.Machine.execCanModeApply k s
  | .detectTimeout k => Sys2Proof.Machine.execDetectTimeout k s
  | .canControllerFailed k cause => Sys2Proof.Machine.execCanControllerFailed k cause s
  | .canSpareIn => Sys2Proof.Machine.execCanSpareIn s
  | .forcedSubstitution seg => Sys2Proof.Machine.execForcedSubstitution seg s
  | .linkUp port ability => Sys2Proof.Machine.execLinkUp port ability s
  | .linkDown port => Sys2Proof.Machine.execLinkDown port s
  | .nomatch port => Sys2Proof.Machine.execNomatch port s
  | .autonegRestart port => Sys2Proof.Machine.execAutonegRestart port s
  | .reneg who port => Sys2Proof.Machine.execReneg who port s
  | .txrst who port => Sys2Proof.Machine.execTxrst who port s
  | .rxrst who port => Sys2Proof.Machine.execRxrst who port s
  | .netFrameReceived port frame error overflow fill => Sys2Proof.Machine.execNetFrameReceived port frame error overflow fill s
  | .pauseExpired port => Sys2Proof.Machine.execPauseExpired port s
  | .pauseRepeat port => Sys2Proof.Machine.execPauseRepeat port s
  | .pauseXon port fill => Sys2Proof.Machine.execPauseXon port fill s
  | .netTransmit port => Sys2Proof.Machine.execNetTransmit port s
  | .netTxComplete port => Sys2Proof.Machine.execNetTxComplete port s
  | .netRingEnable who port data => Sys2Proof.Machine.execNetRingEnable who port data s
  | .mdioRead who port reg => Sys2Proof.Machine.execMdioRead who port reg s
  | .dmaGo who c => Sys2Proof.Machine.execDmaGo who c s
  | .dmaAbort who c => Sys2Proof.Machine.execDmaAbort who c s
  | .dmaDescriptorDone c => Sys2Proof.Machine.execDmaDescriptorDone c s
  | .dmaChlkWrite c data => Sys2Proof.Machine.execDmaChlkWrite c data s
  | .bindingVoid c => Sys2Proof.Machine.execBindingVoid c s
  | .canRingEnable who k r data => Sys2Proof.Machine.execCanRingEnable who k r data s
  | .canRingDrain k => Sys2Proof.Machine.execCanRingDrain k s
  | .canRingFeed k r => Sys2Proof.Machine.execCanRingFeed k r s
  | .arbitration present => Sys2Proof.Machine.execArbitration present s
  | .requestOverdue r => Sys2Proof.Machine.execRequestOverdue r s
  | .arbRcfgWrite r data => Sys2Proof.Machine.execArbRcfgWrite r data s
  | .semaphoreAcquire who sem => Sys2Proof.Machine.execSemaphoreAcquire who sem s
  | .rel who sem => Sys2Proof.Machine.execRel who sem s
  | .clrorph who sem => Sys2Proof.Machine.execClrorph who sem s
  | .scrubWord mem addr bad => Sys2Proof.Machine.execScrubWord mem addr bad s
  | .pageRetired page bad => Sys2Proof.Machine.execPageRetired page bad s
  | .rowRepairDone lane row bad => Sys2Proof.Machine.execRowRepairDone lane row bad s
  | .sectorReplaced sector bad => Sys2Proof.Machine.execSectorReplaced sector bad s
  | .wearCountSave => Sys2Proof.Machine.execWearCountSave s
  | .forcedRepair data => Sys2Proof.Machine.execForcedRepair data s
  | .freqMeterGo sel gate => Sys2Proof.Machine.execFreqMeterGo sel gate s
  | .freqMeasurementDone count => Sys2Proof.Machine.execFreqMeasurementDone count s
  | .clkGateWrite data => Sys2Proof.Machine.execClkGateWrite data s
  | .muxSwitchRequest data => Sys2Proof.Machine.execMuxSwitchRequest data s
  | .muxSwitchComplete mux => Sys2Proof.Machine.execMuxSwitchComplete mux s
  | .clockMissing clock => Sys2Proof.Machine.execClockMissing clock s
  | .clockWatchdogExpired => Sys2Proof.Machine.execClockWatchdogExpired s
  | .xtalRecheck passes => Sys2Proof.Machine.execXtalRecheck passes s
  | .pllRetry locks => Sys2Proof.Machine.execPllRetry locks s
  | .opRequest op => Sys2Proof.Machine.execOpRequest op s
  | .opChange => Sys2Proof.Machine.execOpChange s
  | .opChangeDone => Sys2Proof.Machine.execOpChangeDone s
  | .powerOnRelease => Sys2Proof.Machine.execPowerOnRelease s
  | .powerFailWarning => Sys2Proof.Machine.execPowerFailWarning s
  | .powerFailClear => Sys2Proof.Machine.execPowerFailClear s
  | .brownOut => Sys2Proof.Machine.execBrownOut s
  | .railPowerGoodLost rail => Sys2Proof.Machine.execRailPowerGoodLost rail s
  | .railPowerGoodRestored rail => Sys2Proof.Machine.execRailPowerGoodRestored rail s
  | .mrst => Sys2Proof.Machine.execMrst s
  | .domainResetCmd dom => Sys2Proof.Machine.execDomainResetCmd dom s
  | .domainResetRelease dom => Sys2Proof.Machine.execDomainResetRelease dom s
  | .pciReset cause => Sys2Proof.Machine.execPciReset cause s
  | .perst rising => Sys2Proof.Machine.execPerst rising s
  | .standbyRequest who => Sys2Proof.Machine.execStandbyRequest who s
  | .wake source ticks found => Sys2Proof.Machine.execWake source ticks found s
  | .coldStart found => Sys2Proof.Machine.execColdStart found s
  | .supplySwitch cell => Sys2Proof.Machine.execSupplySwitch cell s
  | .retentionTrip => Sys2Proof.Machine.execRetentionTrip s
  | .cellMeasurement millivolts => Sys2Proof.Machine.execCellMeasurement millivolts s
  | .rtcWrap => Sys2Proof.Machine.execRtcWrap s
  | .rtcTimesRead who => Sys2Proof.Machine.execRtcTimesRead who s
  | .cellarWriteEffect => Sys2Proof.Machine.execCellarWriteEffect s
  | .rtcSet who => Sys2Proof.Machine.execRtcSet who s
  | .shift who => Sys2Proof.Machine.execShift who s
  | .shiftApply => Sys2Proof.Machine.execShiftApply s
  | .almarm who => Sys2Proof.Machine.execAlmarm who s
  | .almoff who => Sys2Proof.Machine.execAlmoff who s
  | .alarmFire => Sys2Proof.Machine.execAlarmFire s
  | .peron who => Sys2Proof.Machine.execPeron who s
  | .peroff who => Sys2Proof.Machine.execPeroff who s
  | .periodicEvent => Sys2Proof.Machine.execPeriodicEvent s
  | .rtcTempMeasure temperature => Sys2Proof.Machine.execRtcTempMeasure temperature s
  | .fuseBurn word bits => Sys2Proof.Machine.execFuseBurn word bits s
  | .fuseBurnDone readBack => Sys2Proof.Machine.execFuseBurnDone readBack s
  | .derive slot parent kind => Sys2Proof.Machine.execDerive slot parent kind s
  | .erase slot => Sys2Proof.Machine.execErase slot s
  | .gcmenc slot => Sys2Proof.Machine.execGcmenc slot s
  | .gcmdec slot => Sys2Proof.Machine.execGcmdec slot s
  | .hmac slot => Sys2Proof.Machine.execHmac slot s
  | .sha256 => Sys2Proof.Machine.execSha256 s
  | .sign => Sys2Proof.Machine.execSign s
  | .verify => Sys2Proof.Machine.execVerify s
  | .ecdh slot kind => Sys2Proof.Machine.execEcdh slot kind s
  | .random healthy => Sys2Proof.Machine.execRandom healthy s
  | .hitload slot => Sys2Proof.Machine.execHitload slot s
  | .keyOperationDone => Sys2Proof.Machine.execKeyOperationDone s
  | .tamper source => Sys2Proof.Machine.execTamper source s
  | .owner who => Sys2Proof.Machine.execOwner who s
  | .ticket who => Sys2Proof.Machine.execTicket who s
  | .unbind who => Sys2Proof.Machine.execUnbind who s
  | .bindingExpiry kind index => Sys2Proof.Machine.execBindingExpiry kind index s
  | .attest who => Sys2Proof.Machine.execAttest who s
  | .lckRangeWrite k second data => Sys2Proof.Machine.execLckRangeWrite k second data s
  | .mbxOpen who => Sys2Proof.Machine.execMbxOpen who s
  | .mbxWrite who => Sys2Proof.Machine.execMbxWrite who s
  | .mbxCommit who => Sys2Proof.Machine.execMbxCommit who s
  | .mbxActivate who temperature => Sys2Proof.Machine.execMbxActivate who temperature s
  | .mbxAbort who => Sys2Proof.Machine.execMbxAbort who s
  | .mbxPart who => Sys2Proof.Machine.execMbxPart who s
  | .mbxReset who => Sys2Proof.Machine.execMbxReset who s
  | .perpartWrite who data => Sys2Proof.Machine.execPerpartWrite who data s
  | .sessionIdleTimeout => Sys2Proof.Machine.execSessionIdleTimeout s
  | .hostWaitTimeout => Sys2Proof.Machine.execHostWaitTimeout s
  | .activationLoad => Sys2Proof.Machine.execActivationLoad s
  | .activationCutover => Sys2Proof.Machine.execActivationCutover s
  | .larderCopy => Sys2Proof.Machine.execLarderCopy s
  | .larderCopyDone => Sys2Proof.Machine.execLarderCopyDone s
  | .watchdogKick key => Sys2Proof.Machine.execWatchdogKick key s
  | .managementWatchdogExpired => Sys2Proof.Machine.execManagementWatchdogExpired s
  | .sensorSample values => Sys2Proof.Machine.execSensorSample values s
  | .ackfault who => Sys2Proof.Machine.execAckfault who s
  | .tempapply who temperature => Sys2Proof.Machine.execTempapply who temperature s
  | .flush who => Sys2Proof.Machine.execFlush who s
  | .eventAccept together => Sys2Proof.Machine.execEventAccept together s
  | .holdTimeout => Sys2Proof.Machine.execHoldTimeout s
  | .ringFlush => Sys2Proof.Machine.execRingFlush s
  | .flushInterval => Sys2Proof.Machine.execFlushInterval s
  | .ringFlushDone => Sys2Proof.Machine.execRingFlushDone s
  | .logScanDone => Sys2Proof.Machine.execLogScanDone s
  | .cursorFetch who c => Sys2Proof.Machine.execCursorFetch who c s
  | .logClear who c upTo => Sys2Proof.Machine.execLogClear who c upTo s
  | .logClearDone => Sys2Proof.Machine.execLogClearDone s
  | .globalReloadDone success => Sys2Proof.Machine.execGlobalReloadDone success s
  | .canTransmitAttempt k => Sys2Proof.Machine.execCanTransmitAttempt k s
  | .linkPartnerDetected port => Sys2Proof.Machine.execLinkPartnerDetected port s
  | .mdioReadDone port value => Sys2Proof.Machine.execMdioReadDone port value s
  | .dmaCompletionTimeout c => Sys2Proof.Machine.execDmaCompletionTimeout c s
  | .pllLock pll locks => Sys2Proof.Machine.execPllLock pll locks s
  | .mailboxCommandDone => Sys2Proof.Machine.execMailboxCommandDone s
  | .hostCommandDone => Sys2Proof.Machine.execHostCommandDone s
  | .vmainRises => Sys2Proof.Machine.execVmainRises s
  | .vmainFalls => Sys2Proof.Machine.execVmainFalls s
  | .rtcDayChange => Sys2Proof.Machine.execRtcDayChange s
  | .daliForwardFrameEnd line => Sys2Proof.Machine.execDaliForwardFrameEnd line s
  | .daliCollision line => Sys2Proof.Machine.execDaliCollision line s
  | .pwmPeriodBoundary uc => Sys2Proof.Machine.execPwmPeriodBoundary uc s
  | .levelAccepted uc => Sys2Proof.Machine.execLevelAccepted uc s
  | .pcieLinkUp => Sys2Proof.Machine.execPcieLinkUp s
  | .tamperConditionCleared source => Sys2Proof.Machine.execTamperConditionCleared source s

end Sys2Proof.Machine
end

