-- ==== Sys2Proof/Safety.lean ====
section
/-!
DEFINITION. The terms that claims are stated in: what one state shares with another (frames), the fuses that only ever blow (R415,
spec/16_keys_tamper_lockers.md), and what a run of the part is that never stops.
-/
namespace Sys2Proof.Machine

/-- The components of the part beside its registers. -/
inductive Part where
  | memory
  | hostMemory
  | response
  | posts
  | fclk
  | lfxo
  | limits
  | draws
  | signals
  | ang
  | ctx
  | col
  | lanes
  | vot
  | loft
  | chg
  | program
  | fe
  | fab
  | hit
  | can
  | ports
  | dma
  | arb
  | mi
  | clk
  | pwr
  | rtc
  | keys
  | lck
  | upd
  | evr
  | mgt
  | strap
deriving DecidableEq, Repr

/-- A component is the same in two parts. -/
def Part.same (p : Part) (s t : Sys) : Prop :=
  match p with
  | .memory => t.mem = s.mem
  | .hostMemory => t.hostMem = s.hostMem
  | .response => t.response = s.response
  | .posts => t.posts = s.posts
  | .fclk => t.fclk = s.fclk
  | .lfxo => t.lfxo = s.lfxo
  | .limits => t.limits = s.limits
  | .draws => t.draws = s.draws
  | .signals => t.signals = s.signals
  | .ang => t.ang = s.ang
  | .ctx => t.ctx = s.ctx
  | .col => t.col = s.col
  | .lanes => t.lanes = s.lanes
  | .vot => t.vot = s.vot
  | .loft => t.loft = s.loft
  | .chg => t.chg = s.chg
  | .program => t.prog = s.prog
  | .fe => t.fe = s.fe
  | .fab => t.fab = s.fab
  | .hit => t.hit = s.hit
  | .can => t.can = s.can
  | .ports => t.ports = s.ports
  | .dma => t.dma = s.dma
  | .arb => t.arb = s.arb
  | .mi => t.mi = s.mi
  | .clk => t.clk = s.clk
  | .pwr => t.pwr = s.pwr
  | .rtc => t.rtc = s.rtc
  | .keys => t.keys = s.keys
  | .lck => t.lck = s.lck
  | .upd => t.upd = s.upd
  | .evr => t.evr = s.evr
  | .mgt => t.mgt = s.mgt
  | .strap => t.strap = s.strap

/-- Nothing changes between two parts but the components in `ps` and the registers whose address `w` holds of. -/
def SysKeeps (ps : List Part) (w : Nat → Bool) (s t : Sys) : Prop :=
  (∀ p, p ∉ ps → p.same s t) ∧ ∀ a, w a = false → t.reg a = s.reg a

/-- Nothing changes between two states but the components in `ps` and the registers whose address `w` holds of: the fuses and the queue
stay too. -/
def Keeps (ps : List Part) (w : Nat → Bool) (s t : State) : Prop :=
  t.fuses = s.fuses ∧ t.pending = s.pending ∧ SysKeeps ps w s.sys t.sys

/-- The registers at the addresses of a list. -/
def among (l : List Nat) (a : Nat) : Bool := l.contains a

/-- The registers of block `b` (R31, spec/01_architecture.md). -/
def inBlock (b a : Nat) : Bool := 0x40000000 + b * 0x10000 ≤ a && a < 0x40000000 + (b + 1) * 0x10000

/-! ## Instructions of the logic image -/

/-- An instruction that costs `cost` with `ext` extension words is executed in lane `n`: the charge stays within the program allowance (R114)
and the extension words lie below LENGTH (R134). -/
def Sys.canRun (s : Sys) (n : Fin 4) (cost ext : Nat) : Prop :=
  (s.lane n).engine.clocks + cost ≤ s.prog.allowance ∧ (ext = 0 ∨ (s.lane n).engine.pc + ext < s.logicTop n)

/-- The engine past an instruction: charged, with PC after it. -/
def Engine.past (e : Engine) (cost ext : Nat) : Engine := { e with pc := e.pc + 1 + ext, clocks := e.clocks + cost }

/-- A W register of the engine given all its 64 bits. -/
def Engine.give (e : Engine) (d : Fin 8) (v : Nat) : Engine := { e with w := e.w.set d (BitVec.ofNat 64 v) }

/-- The state with one lane's engine changed and nothing else. -/
def State.engine (s : State) (n : Fin 4) (f : Engine → Engine) : State := { s with sys := s.sys.modEngine n f }

/-! ## Domain and module resets -/

/-- Nothing changes between two states but what domains hold that can go down and come up (R386, spec/14_clocks_power_reset.md), the posts, and
the clock, power and memory controllers: the fuses, the queue, the loft, the RTC, the key store, the update controller, the recorder and the
management domain's own records stay, with the registers of their blocks. It says nothing while a flush waits for its vote, which a lane
that goes down ends with a save (R80, R234). -/
def PlanesOnly (s t : State) : Prop :=
  s.sys.vot.flushDue = false →
  Keeps [.memory, .mi, .posts, .signals, .ang, .col, .lanes, .vot, .chg, .program, .fe, .fab, .hit, .can, .ports, .dma, .arb, .clk, .pwr, .lck]
    (fun a => !([1, 5, 6, 7, 8, 9, 0x16].any fun b => inBlock b a)) s t

/-- The registers that a module reset leaves or reads anew (R385, R489, spec/14_clocks_power_reset.md): the cellar's and the fuse mirrors,
and those with a field that shows the cellar, a pin, a supply or a strap. -/
def resetKeeps : List Nat := cellarRegs ++ [RTC_CTL, RTC_STAT, CEL_STAT, KEY_STAT, PWR_VMON, CLK_STAT, ANG_CTL, ANG_FREQ, ANG_FGOOD]

/-- R385: `t` is `s` after a module reset with a cause; `hold` says that it holds. The fuses, the queue, the cellar, the loft and the host's
memory stay; every other memory byte, the lanes, the key store and the registers are at reset. -/
def ModuleReset (s t : State) (cause : Nat) (hold : Bool) : Prop :=
  t.fuses = s.fuses ∧ t.pending = s.pending ∧ t.sys.pwr.cause = cause ∧ t.sys.pwr.inReset = hold ∧ t.sys.pwr.started = false
    ∧ (∀ a, a ∈ cellarRegs → t.sys.reg a = s.sys.reg a) ∧ (∀ a, a ∉ resetKeeps → t.sys.reg a = regReset a)
    ∧ (∀ a, memByte t.sys.mem a = if 0x30000000 ≤ a ∧ a < 0x30F00000 then memByte s.sys.mem a else memDefault a)
    ∧ t.sys.hostMem = s.sys.hostMem ∧ t.sys.loft = s.sys.loft ∧ t.sys.rtc.root = s.sys.rtc.root ∧ t.sys.posts = []
    ∧ t.sys.lanes = Sys.zero.lanes ∧ t.sys.keys = Sys.zero.keys ∧ t.sys.prog = Sys.zero.prog ∧ t.sys.evr = Sys.zero.evr

/-! ## Fuses -/

/-- Bit `b` of fuse word `w` is blown. -/
def blown (f : List (Nat × Nat)) (w b : Nat) : Bool := (fuseWord f w).testBit b

/-- Every fuse blown before is blown after (R415). -/
def FusesGrow (f g : List (Nat × Nat)) : Prop := ∀ w b, blown f w b = true → blown g w b = true

/-- A state that steps from `s` lead to. -/
inductive Reaches (s : State) : State → Prop where
  | here : Reaches s s
  | more {t u : State} : Reaches s t → step t = .next u → Reaches s u

/-- No run from `s` stops: every state it leads to has a next one. -/
def Safe (s : State) : Prop := ∀ t, Reaches s t → ∃ u, step t = .next u

end Sys2Proof.Machine
end

