-- ==== Sys2Proof/WellFormed.lean ====
section
/-!
DEFINITION. Which commands are well formed: every operand lies in the range that the widths of the spec's fields, ports and memories give
it. A command that is not is no command of the part; a command that the spec has the part refuse is well formed.
-/
namespace Sys2Proof

/-- A number below a bound. -/
def below (v n : Nat) : Bool := Nat.blt v n

/-- A word of 32 bits, or an address of the module (R9, R27). -/
def word32 (v : Nat) : Bool := below v 0x100000000

/-- An access of 1 to 8 bytes. -/
def sizeOk (n : Nat) : Bool := below 0 n && below n 9

/-- What an access of `n` bytes carries. -/
def fits (n v : Nat) : Bool := below v (256 ^ n)

/-- A row of bytes. -/
def bytesOk (l : List Nat) : Bool := l.all fun b => below b 256

/-- A signed number of 16 bits: a temperature in 0.1 °C, or a sensor's value (R463). -/
def short16 (v : Int) : Bool := decide (-32768 ≤ v) && decide (v < 32768)

/-- A cause of a cell's or a controller's failure (R257, R308). -/
def causeOk (c : Nat) : Bool := c == 1 || c == 2 || c == 3

/-- A metering block: 16 samples of 54 codes (R196, R197). -/
def blockOk (codes : List (List Nat)) : Bool :=
  codes.length == 16 && codes.all fun s => s.length == 54 && s.all fun c => below c 0x1000000

/-- Conversions of analog channels (R252). -/
def conversionsOk (l : List (Nat × List Nat)) : Bool := l.all fun x => below x.1 192 && x.2.all fun v => below v 65536

/-- What a scrubbed word's 36 bytes carry of faults (R351). -/
def faultOk (bad : List Nat) : Bool := below bad.length 37 && bytesOk bad

/-- The fields of the five formats (R138). -/
def OpR.ok (o : OpR) : Bool := below o.t 4 && below o.f 4 && below o.b 65536 && below o.long (2 ^ 64)
def OpM.ok (o : OpM) : Bool := below o.t 4 && below o.index 131072
def OpK.ok (o : OpK) : Bool := below o.t 4 && below o.ref 131072
def OpJ.ok (o : OpJ) : Bool := below o.cond 16 && below o.target 262144
def OpZ.ok (o : OpZ) : Bool := below o.bits 67108864

/-- A Hitil input frame's fields (R274, R278). -/
def HitilInput.ok (f : HitilInput) : Bool :=
  below f.bus 9 && below f.ver 256 && below f.station 65536 && below f.flags 65536 && below f.len 65536 && below f.cycle (2 ^ 64)
    && below f.fragment 256 && f.words.all word32 && below f.tag (2 ^ 128)

/-- A join request's fields (R275). -/
def JoinInput.ok (f : JoinInput) : Bool :=
  below f.bus 9 && below f.ver 256 && below f.station 65536 && below f.flags 65536 && below f.len 65536 && below f.cycle (2 ^ 64)
    && bytesOk f.payload && below f.tag (2 ^ 128)

/-- A CAN frame's fields (R296). -/
def CanInput.ok (f : CanInput) : Bool := below f.id (if f.ide then 0x20000000 else 0x800) && below f.dlc 16 && below f.data.length 65 && bytesOk f.data

/-- The five PLLs, and the counts of at most three attempts (R374, R375). -/
def ClockFindings.ok (f : ClockFindings) : Bool :=
  below f.counts.length 4 && f.slowPlls.all (fun p => below p 5) && f.deadPlls.all fun p => below p 5

/-- Pages, spares, rows, cells and controllers by their numbers. -/
def StartFindings.ok (f : StartFindings) : Bool :=
  f.clocks.ok && f.badPages.all (fun p => below p 258048) && f.badSpares.all (fun p => below p 4096) && f.badRows.all (fun r => below r 32768)
    && f.failedCells.all (fun c => below c 200) && f.failedCan.all fun k => below k 9

/-- The operands of a command are in range. -/
def Instr.wellFormed (i : Instr) : Bool :=
  match i with
  | .registerWrite _ addr size data => word32 addr && sizeOk size && fits size data
  | .rcRegisterRead _ addr size => word32 addr && sizeOk size
  | .hostBlockedAccess _ addr data => word32 addr && word32 data
  | .unmappedAccess _ _ addr data => word32 addr && word32 data
  | .laneWindowAccess _ _ offset size data => below offset 0x1000000 && sizeOk size && fits size data
  | .pciDwbWrite _ data => word32 data
  | .hostDramWindowAccess _ offset len bytes => word32 offset && below len 4097 && bytes.all (fun b => below b 257)
  | .portalRead _ offset size => below offset 0x100000 && sizeOk size
  | .portalWrite _ offset size data => below offset 0x100000 && sizeOk size && fits size data
  | .zeroCrossing _ _ interval rms => word32 interval && word32 rms
  | .crossingMissing => true
  | .correctionEnd => true
  | .angRunSet => true
  | .angRunClear => true
  | .hofsSet => true
  | .hofsClear => true
  | .refchWrite channel => below channel 8
  | .angSnap => true
  | .angTimelRead _ => true
  | .lockWaitExpired => true
  | .cycleStart => true
  | .collectorClose => true
  | .compute _ => true
  | .llpDone _ => true
  | .vote => true
  | .emitStart => true
  | .controlPlaneRestart temperature => short16 temperature
  | .laneResetEnd _ => true
  | .reloadComplete _ => true
  | .copyRoundEnd _ => true
  | .finalRoundEnd _ => true
  | .laneRemoveCmd _ => true
  | .laneRejoinCmd _ => true
  | .votVcyclRead _ => true
  | .retentiveSave _ _ => true
  | .refusedEntryReport => true
  | .changeSubmit _ => true
  | .cycFltRead _ => true
  | .ldv _ o => o.ok
  | .stv _ o => o.ok
  | .ldp _ o => o.ok
  | .mov _ o => o.ok
  | .ldx _ o => o.ok
  | .cvt _ o => o.ok
  | .nop _ o => o.ok
  | .add _ o => o.ok
  | .sub _ o => o.ok
  | .mul _ o => o.ok
  | .div _ o => o.ok
  | .mod _ o => o.ok
  | .neg _ o => o.ok
  | .abs _ o => o.ok
  | .min _ o => o.ok
  | .max _ o => o.ok
  | .clmp _ o => o.ok
  | .sqrt _ o => o.ok
  | .cmp _ o => o.ok
  | .and _ o => o.ok
  | .or _ o => o.ok
  | .xor _ o => o.ok
  | .not _ o => o.ok
  | .lnot _ o => o.ok
  | .shl _ o => o.ok
  | .shr _ o => o.ok
  | .sar _ o => o.ok
  | .rol _ o => o.ok
  | .btst _ o => o.ok
  | .bset _ o => o.ok
  | .bclr _ o => o.ok
  | .set _ o => o.ok
  | .br _ o => o.ok
  | .brt _ o => o.ok
  | .brf _ o => o.ok
  | .call _ o => o.ok
  | .ret _ o => o.ok
  | .endTask _ o => o.ok
  | .tmr _ o => o.ok
  | .tet _ o => o.ok
  | .trst _ o => o.ok
  | .ctu _ o => o.ok
  | .ctd _ o => o.ok
  | .crst _ o => o.ok
  | .cld _ o => o.ok
  | .ccv _ o => o.ok
  | .redg _ o => o.ok
  | .fedg _ o => o.ok
  | .qld _ o => o.ok
  | .qok _ o => o.ok
  | .lprd _ o => o.ok
  | .lpwr _ o => o.ok
  | .stp _ o => o.ok
  | .swa _ o => o.ok
  | .dlq _ o => o.ok
  | .cal _ o => o.ok
  | .illegalInstruction _ => true
  | .loopEventReport => true
  | .loopTrdatRead _ => true
  | .sampleBlock codes => blockOk codes
  | .blockJob _ => true
  | .meterEventReport => true
  | .metTrimWrite k trim => below k 78 && below trim 0x20000
  | .applyCommand temperature => short16 temperature
  | .temperatureBandCheck temperature => short16 temperature
  | .frontEndFailed => true
  | .frontEndReset _ temperature => short16 temperature
  | .energySave _ => true
  | .flushJob _ => true
  | .meteringImageSwitch _ => true
  | .channelSample conversions => conversionsOk conversions
  | .outputApply angle => below angle 0x400000
  | .pinEdge uc _ _ => below uc 192
  | .stuckTimeout uc => below uc 192
  | .timedSwitch uc => below uc 192
  | .daliFrameSend _ => true
  | .daliRetry _ => true
  | .daliAnswerWindowClose _ => true
  | .daliBackwardFrame _ data _ => below data 256
  | .daliLineFailed _ => true
  | .daliLineRestored _ => true
  | .fabricScrubWord _ _ => true
  | .cellFailed cell cause => below cell 200 && causeOk cause
  | .spareCellIn uc => below uc 192
  | .fabricFailed => true
  | .bankSupplyLost _ millivolts => below millivolts 65536
  | .bankSupplyRestored _ millivolts => below millivolts 65536
  | .hitilInputFrame frame => frame.ok
  | .joinRequest frame => frame.ok
  | .admitStation station => below station 1280
  | .hitRunSet => true
  | .canFrameReceived _ frame => frame.ok
  | .canBusError _ found _ _ => below found.kind 7
  | .canTxComplete _ _ => true
  | .canAbort _ _ _ _ => true
  | .recover _ _ => true
  | .busOffHoldExpired _ => true
  | .busOffRecovered _ => true
  | .canModeWrite _ _ mode => below mode 4
  | .canModeApply _ => true
  | .detectTimeout _ => true
  | .canControllerFailed _ cause => causeOk cause || cause == 4
  | .canSpareIn => true
  | .forcedSubstitution _ => true
  | .linkUp _ ability => below ability 128
  | .linkDown _ => true
  | .nomatch _ => true
  | .autonegRestart _ => true
  | .reneg _ _ => true
  | .txrst _ _ => true
  | .rxrst _ _ => true
  | .netFrameReceived _ frame _ _ fill => bytesOk frame.bytes && below fill 32769
  | .pauseExpired _ => true
  | .pauseRepeat _ => true
  | .pauseXon _ fill => below fill 32769
  | .netTransmit _ => true
  | .netTxComplete _ => true
  | .netRingEnable _ _ data => word32 data
  | .mdioRead _ _ reg => below reg 32
  | .dmaGo _ _ => true
  | .dmaAbort _ _ => true
  | .dmaDescriptorDone _ => true
  | .dmaChlkWrite _ data => word32 data
  | .bindingVoid _ => true
  | .canRingEnable _ _ _ data => word32 data
  | .canRingDrain _ => true
  | .canRingFeed _ _ => true
  | .arbitration present => present.all (fun r => below r 32)
  | .requestOverdue _ => true
  | .arbRcfgWrite _ data => word32 data
  | .semaphoreAcquire _ _ => true
  | .rel _ _ => true
  | .clrorph _ _ => true
  | .scrubWord mem addr bad => below mem 7 && word32 addr && faultOk bad
  | .pageRetired page bad => below page 262144 && bad.all (fun b => below b 128)
  | .rowRepairDone _ row _ => below row 8192
  | .sectorReplaced sector bad => below sector 3840 && bad.all (fun b => below b 128)
  | .wearCountSave => true
  | .forcedRepair data => word32 data
  | .freqMeterGo sel gate => below sel 8 && below gate 65536
  | .freqMeasurementDone count => word32 count
  | .clkGateWrite data => word32 data
  | .muxSwitchRequest data => word32 data
  | .muxSwitchComplete _ => true
  | .clockMissing _ => true
  | .clockWatchdogExpired => true
  | .xtalRecheck _ => true
  | .pllRetry _ => true
  | .opRequest _ => true
  | .opChange => true
  | .opChangeDone => true
  | .powerOnRelease => true
  | .powerFailWarning => true
  | .powerFailClear => true
  | .brownOut => true
  | .railPowerGoodLost _ => true
  | .railPowerGoodRestored _ => true
  | .mrst => true
  | .domainResetCmd _ => true
  | .domainResetRelease _ => true
  | .pciReset _ => true
  | .perst _ => true
  | .standbyRequest _ => true
  | .wake _ _ found => found.ok
  | .coldStart found => found.ok
  | .supplySwitch _ => true
  | .retentionTrip => true
  | .cellMeasurement millivolts => below millivolts 65536
  | .rtcWrap => true
  | .rtcTimesRead _ => true
  | .cellarWriteEffect => true
  | .rtcSet _ => true
  | .shift _ => true
  | .shiftApply => true
  | .almarm _ => true
  | .almoff _ => true
  | .alarmFire => true
  | .peron _ => true
  | .peroff _ => true
  | .periodicEvent => true
  | .rtcTempMeasure temperature => short16 temperature
  | .fuseBurn word bits => below word 64 && word32 bits
  | .fuseBurnDone readBack => word32 readBack
  | .derive slot parent kind => below slot 32 && below parent 32 && below kind 16
  | .erase slot => below slot 32
  | .gcmenc slot => below slot 32
  | .gcmdec slot => below slot 32
  | .hmac slot => below slot 32
  | .sha256 => true
  | .sign => true
  | .verify => true
  | .ecdh slot kind => below slot 32 && below kind 16
  | .random _ => true
  | .hitload slot => below slot 32
  | .keyOperationDone => true
  | .tamper _ => true
  | .owner _ => true
  | .ticket _ => true
  | .unbind _ => true
  | .bindingExpiry kind index => (kind == 1 || kind == 2 || kind == 3) && below index (if kind == 1 then 16 else 8)
  | .attest _ => true
  | .lckRangeWrite _ _ data => word32 data
  | .mbxOpen _ => true
  | .mbxWrite _ => true
  | .mbxCommit _ => true
  | .mbxActivate _ temperature => short16 temperature
  | .mbxAbort _ => true
  | .mbxPart _ => true
  | .mbxReset _ => true
  | .perpartWrite _ data => word32 data
  | .sessionIdleTimeout => true
  | .hostWaitTimeout => true
  | .activationLoad => true
  | .activationCutover => true
  | .larderCopy => true
  | .larderCopyDone => true
  | .watchdogKick key => below key 65536
  | .managementWatchdogExpired => true
  | .sensorSample values => values.length == 13 && values.all short16
  | .ackfault _ => true
  | .tempapply _ temperature => short16 temperature
  | .flush _ => true
  | .eventAccept _ => true
  | .holdTimeout => true
  | .ringFlush => true
  | .flushInterval => true
  | .ringFlushDone => true
  | .logScanDone => true
  | .cursorFetch _ _ => true
  | .logClear _ _ upTo => word32 upTo
  | .logClearDone => true
  | .globalReloadDone _ => true
  | .canTransmitAttempt _ => true
  | .linkPartnerDetected _ => true
  | .mdioReadDone _ value => below value 65536
  | .dmaCompletionTimeout _ => true
  | .pllLock _ _ => true
  | .mailboxCommandDone => true
  | .hostCommandDone => true
  | .vmainRises => true
  | .vmainFalls => true
  | .rtcDayChange => true
  | .daliForwardFrameEnd _ => true
  | .daliCollision _ => true
  | .pwmPeriodBoundary uc => below uc 192
  | .levelAccepted uc => below uc 192
  | .pcieLinkUp => true
  | .tamperConditionCleared _ => true

end Sys2Proof
end

