-- ==== Sys2Proof/Certificates/Slice0/Obligations.lean ====
section
/-!
DEFINITION. The statements for the provers.
-/
open Sys2Proof Sys2Proof.Machine

/-- The queue of the part: a step executes the command at its front with the rest waiting. The second clause, a fabric clock on an empty
queue, is the model's choice (notes/assumptions/3.md). -/
def Obligations.StepRunsTheFrontCommand : Prop :=
  (∀ (c : Instr) (rest : List Instr) (s : State), step { s with pending := c :: rest } = exec c { s with pending := rest })
  ∧ (∀ s : State, step { s with pending := [] } = .next { s with sys := s.sys.elapse 1, pending := [] })

/-- No command faults or is refused, none touches the queue, and no run stops. -/
def Obligations.NoCommandStops : Prop :=
  (∀ (c : Instr) (s : State), ∃ t, exec c s = .next t ∧ t.pending = s.pending) ∧ ∀ s : State, Safe s

/-- R415: no step, and no run, takes a blown fuse back. -/
def Obligations.BlownFusesStayBlown : Prop :=
  (∀ s t : State, step s = .next t → FusesGrow s.fuses t.fuses) ∧ (∀ s t : State, Reaches s t → FusesGrow s.fuses t.fuses)

/-- R416, R423, R444: the commands that may blow a fuse. -/
def Obligations.OnlyBurnsTouchFuses : Prop :=
  ∀ (c : Instr) (s t : State),
    (∀ r, c ≠ .fuseBurnDone r) → (∀ w, c ≠ .owner w) → c ≠ .larderCopyDone → c ≠ .mailboxCommandDone →
    (∀ w a n v, c ≠ .registerWrite w a n v) → (∀ w a v, c ≠ .hostBlockedAccess w a v) → (∀ w x a v, c ≠ .unmappedAccess w x a v) →
    exec c s = .next t → t.fuses = s.fuses

/-- Reset values that the register tables state, over the kinds of registers. -/
def Obligations.StateAfterReset : Prop :=
  let y := State.reset.sys
  State.reset.pending = [] ∧ y.mem = [] ∧ Memory.wf y.mem = true ∧ Memory.wf y.hostMem = true
  ∧ y.get ANG_STAT_STATE = 0 ∧ y.word ANG_FREQ = 0x320000 ∧ y.word ANG_FGOOD = 0x320000 ∧ y.get ANG_CTL_RUN = 0
  ∧ (∀ n : Fin 4, y.laneState n = laneReset) ∧ y.word VOT_STAT = 0x00020003
  ∧ y.word (ARB_RCFG 8) = 0x08000001 ∧ y.word (ARB_RCFG 7) = 0x20000003 ∧ y.word (ARB_RCFG 11) = 0x10000002
  ∧ y.word (DMA_CRCFG 0 0) = 0x00010004 ∧ y.word (MGT_SLIM 4) = 0x03B60352 ∧ y.word (NET_CTL 2) = 0x80
  ∧ y.word SYS_ID = 0x64000101 ∧ y.get CLK_FMCTL_GATE = 32

/-- R11: the access types, on registers whose write does no more than store. -/
def Obligations.RegisterWriteByAccessType : Prop :=
  (∀ (s : State) (a v : Nat) (d : RegDesc),
    a ∈ [ANG_OFS, PWR_CTL, CLK_MONST, EVR_CTL, DMA_CANINT, MEM_CTL, FAB_CTL, CYC_CTL, CYC_FACT, LOOP_CTL, MGT_FINT, CEL_CTL, KEY_CTL] → regAt a = some d →
    s.sys.peerUp (regDomain a) = true → s.sys.domUp 0 = true → v < 2 ^ 32 →
    let lock := s.sys.locked a
    let old := s.sys.reg a
    ∃ t, exec (.registerWrite .mgmt a 4 v) s = .next t
      ∧ (∀ i, i < 32 → (t.sys.reg a).getLsbD i =
          if d.rw.testBit i || (d.rwl.testBit i && !lock) then v.testBit i
          else if d.w1c.testBit i then old.getLsbD i && !v.testBit i
          else if d.w1s.testBit i then old.getLsbD i || v.testBit i
          else old.getLsbD i)
      ∧ ((lock = true ∧ ∃ i, i < 32 ∧ d.rwl.testBit i = true ∧ old.getLsbD i ≠ v.testBit i) → t.sys.posts = s.sys.posts ++ [⟨8, 0x0111, 0, 0⟩])
      ∧ (¬ (lock = true ∧ ∃ i, i < 32 ∧ d.rwl.testBit i = true ∧ old.getLsbD i ≠ v.testBit i) → t.sys.posts = s.sys.posts)
      ∧ Keeps [.posts] (among [a]) s t)
  ∧ (∀ (s : State) (a : Nat), a ∈ [EVR_RLOST, EVR_LLOST, MEM_DCE, MEM_DUE, MEM_LUE, NET_RUNT 0, NET_FILT 1, CAN_RXDROP 3, LOOP_EVLOST] →
    s.sys.peerUp (regDomain a) = true →
    ∃ t, exec (.rcRegisterRead .mgmt a 4) s = .next t ∧ t.sys.response.value = s.sys.word a ∧ t.sys.word a = (if a = LOOP_EVLOST then s.sys.word a / 65536 * 65536 else 0)
      ∧ Keeps [.response] (among [a]) s t)

/-- R9, R14, R27, R31: the refusals of accesses. That size and alignment are judged first is the model's reading (notes/assumptions/92.md). -/
def Obligations.AccessesRefused : Prop :=
  ∀ (s : State),
    let posted := fun (code : Nat) => ({ s with sys := s.sys.note code } : State)
    let read := fun (code : Nat) => ({ s with sys := (s.sys.note code).answer 0 } : State)
    (∀ who a size v, inBlocks a = true → size ≠ 4 ∨ a % 4 ≠ 0 →
      exec (.registerWrite who a size v) s = .next (posted 0x0110) ∧ exec (.rcRegisterRead who a size) s = .next (read 0x0110))
    ∧ (∀ a v, a % 4 = 0 →
      (∀ r ∈ [(0, 0x40000), (0x10000000, 0x10100000), (0x20000000, 0x20200000), (0x30000000, 0x31000000), (0x40000000, 0x41000000),
        (0x50000000, 0x50800000), (0x51000000, 0x51800000), (0x52000000, 0x52800000), (0x53000000, 0x53800000), (0x80000000, 0xB8000000)],
        a < r.1 ∨ r.2 ≤ a) →
      exec (.unmappedAccess .mgmt true a v) s = .next (posted 0x0113) ∧ exec (.unmappedAccess .mgmt false a v) s = .next (read 0x0113))
    ∧ (∀ who a v, a % 4 = 0 → inBlocks a = true → regBlock a = 0 ∨ 0x18 ≤ regBlock a →
      exec (.unmappedAccess who true a v) s = .next (posted 0x0113) ∧ exec (.unmappedAccess who false a v) s = .next (read 0x0113))
    ∧ (∀ a v, a % 4 = 0 → inBlock 0x02 a || inBlock 0x06 a || inBlock 0x07 a = true → 
      exec (.hostBlockedAccess true a v) s = .next (posted 0x0112) ∧ exec (.hostBlockedAccess false a v) s = .next (read 0x0112))
    ∧ (∀ a v d, a % 4 = 0 → inBlocks a = true → blockMapped (regBlock a) = true → regAt a = some d → d.host = .read → chReserved a = false →
      exec (.hostBlockedAccess true a v) s = .next (posted 0x0112))
    ∧ (∀ a v, a % 4 = 0 → inBlocks a = true → blockHost (regBlock a) = .read → regAt a = none →
      exec (.hostBlockedAccess true a v) s = .next (posted 0x0112))

/-- R9, R27, R30, R69: the lane windows. -/
def Obligations.LaneWindow : Prop :=
  ∀ (s : State) (n : Fin 4) (off size v : Nat),
    (off < 0x800000 → size = 1 ∨ size = 2 ∨ size = 4 → off % size = 0 →
      (s.sys.laneState n ≠ laneRetired → s.sys.peerUp (2 + n.val) = true →
        (∃ t, exec (.laneWindowAccess false n off size v) s = .next t ∧ t.sys.response.value = s.sys.lrd n off size % 2 ^ 32
          ∧ t.sys.response.busError = false ∧ Keeps [.response] (fun _ => false) s t)
        ∧ (s.sys.laneState n ∉ [laneFinal, laneShadow, laneVoting] →
          ∃ t, exec (.laneWindowAccess true n off size v) s = .next t ∧ t.sys.lrd n off size = v % 256 ^ size
            ∧ (∀ a, a < laneBase n + off ∨ laneBase n + off + size ≤ a → memByte t.sys.mem a = memByte s.sys.mem a)
            ∧ Keeps [.memory] (fun _ => false) s t)
        ∧ (s.sys.laneState n ∈ [laneFinal, laneShadow, laneVoting] →
          exec (.laneWindowAccess true n off size v) s = .next { s with sys := s.sys.note 0x0114 }))
      ∧ (s.sys.laneState n = laneRetired ∨ s.sys.peerUp (2 + n.val) = false →
        (∃ t, exec (.laneWindowAccess false n off size v) s = .next t ∧ t.sys.response.busError = true ∧ t.sys.response.value = 0
          ∧ Keeps [.response] (fun _ => false) s t)
        ∧ (∃ t, exec (.laneWindowAccess true n off size v) s = .next t
          ∧ lookupD 0 t.sys.pwr.drops (2 + n.val) = Nat.min (lookupD 0 s.sys.pwr.drops (2 + n.val) + 1) 0xFFFF
          ∧ Keeps [.posts, .limits, .pwr] (fun _ => false) s t)))
    ∧ (¬ (size = 1 ∨ size = 2 ∨ size = 4) ∨ off % size ≠ 0 →
      exec (.laneWindowAccess true n off size v) s = .next { s with sys := s.sys.note 0x0110 }
      ∧ exec (.laneWindowAccess false n off size v) s = .next { s with sys := (s.sys.note 0x0110).answer 0 })
    ∧ (0x800000 ≤ off → size = 1 ∨ size = 2 ∨ size = 4 → off % size = 0 →
      exec (.laneWindowAccess true n off size v) s = .next { s with sys := s.sys.note 0x0113 }
      ∧ exec (.laneWindowAccess false n off size v) s = .next { s with sys := (s.sys.note 0x0113).answer 0 })

/-- R33. -/
def Obligations.DramWindowClosed : Prop :=
  ∀ (s : State) (off len : Nat) (bytes : List Nat), s.sys.on PCI_DWB_EN = false →
    (off + len ≤ 0x4000000 →
      ∃ t, exec (.hostDramWindowAccess false off len bytes) s = .next t ∧ t.sys.response.bytes = List.replicate len 0
        ∧ Keeps [.response] (fun _ => false) s t)
    ∧ (off + bytes.length ≤ 0x4000000 → exec (.hostDramWindowAccess true off len bytes) s = .next s)

/-- R32 to R35, R37, R354: the base, and requests through BAR2. An entry of `bytes` of 256 or more is a byte whose enable is 0. That a request beyond the
BAR is judged before EN is the model's choice (notes/assumptions/113.md). -/
def Obligations.DramWindow : Prop :=
  ∀ (s : State),
    (∀ who v, s.sys.peerUp 14 = true → v < 2 ^ 32 →
      if v.testBit 0 = true ∧ (v / 2 ^ 26 < 0x21 ∨ 0x2B < v / 2 ^ 26) then exec (.pciDwbWrite who v) s = .next { s with sys := s.sys.note 0x1701 }
      else ∃ t, exec (.pciDwbWrite who v) s = .next t ∧ t.sys.get PCI_DWB_BASE = v / 2 ^ 26 ∧ t.sys.on PCI_DWB_EN = v.testBit 0
        ∧ Keeps [] (among [PCI_DWB]) s t)
    ∧ (∀ off len bytes, s.sys.on PCI_DWB_EN = true → s.sys.dramGap = none →
      let a := s.sys.get PCI_DWB_BASE * 2 ^ 26 + off
      let sound := fun (n : Nat) => ∀ g ∈ s.sys.mi.poison, g + 32 ≤ a ∨ a + n ≤ g
      (off + len ≤ 0x4000000 → sound len →
        ∃ t, exec (.hostDramWindowAccess false off len bytes) s = .next t ∧ t.sys.response.bytes = memBytes s.sys.mem a len
          ∧ t.sys.response.poisoned = false ∧ Keeps [.response] (fun _ => false) s t)
      ∧ (off + len ≤ 0x4000000 → ¬ sound len →
        ∃ t, exec (.hostDramWindowAccess false off len bytes) s = .next t ∧ t.sys.response.poisoned = true ∧ t.sys.response.bytes = memBytes s.sys.mem a len
          ∧ Keeps [.response, .posts, .mi] (among [MEM_DUE, MEM_UEA, MEM_UEI, MEM_STAT]) s t)
      ∧ (off + bytes.length ≤ 0x4000000 → ¬ sound bytes.length →
        ∃ t, exec (.hostDramWindowAccess true off len bytes) s = .next t
          ∧ (∀ b, b < a ∨ a + bytes.length ≤ b → memByte t.sys.mem b = memByte s.sys.mem b)
          ∧ (a % 32 + bytes.length ≤ 32 → bytes.length < 32 → a / 32 * 32 ∈ s.sys.mi.poison → t.sys.mem = s.sys.mem)
          ∧ Keeps [.memory, .posts, .mi] (among [MEM_DUE, MEM_UEA, MEM_UEI, MEM_STAT]) s t)
      ∧ (off + bytes.length ≤ 0x4000000 → sound bytes.length →
        ∃ t, exec (.hostDramWindowAccess true off len bytes) s = .next t
          ∧ (∀ i (h : i < bytes.length), bytes[i] < 256 → (memByte t.sys.mem (a + i)).toNat = bytes[i])
          ∧ (∀ b, (∀ i (h : i < bytes.length), bytes[i] < 256 → b ≠ a + i) → memByte t.sys.mem b = memByte s.sys.mem b)
          ∧ Keeps [.memory] (fun _ => false) s t))
    ∧ (∀ off len bytes d, s.sys.on PCI_DWB_EN = true → s.sys.dramGap = some d →
      (off + len ≤ 0x4000000 → ∃ t, exec (.hostDramWindowAccess false off len bytes) s = .next t ∧ t.sys.response.bytes = List.replicate len 0
        ∧ lookupD 0 t.sys.pwr.absent d = Nat.min (lookupD 0 s.sys.pwr.absent d + 1) 0xFFFF ∧ Keeps [.response, .pwr] (fun _ => false) s t)
      ∧ (off + bytes.length ≤ 0x4000000 → ∃ t, exec (.hostDramWindowAccess true off len bytes) s = .next t
        ∧ lookupD 0 t.sys.pwr.drops d = Nat.min (lookupD 0 s.sys.pwr.drops d + 1) 0xFFFF ∧ Keeps [.posts, .limits, .pwr] (fun _ => false) s t))
    ∧ (∀ off len bytes, s.sys.domUp 0 = true →
      (0x4000000 < off + len → ∃ t, exec (.hostDramWindowAccess false off len bytes) s = .next t ∧ t.sys.response.unsupported = true
        ∧ t.sys.posts = s.sys.posts ++ [⟨8, 0x1702, 0, 0⟩] ∧ Keeps [.response, .posts] (fun _ => false) s t)
      ∧ (0x4000000 < off + bytes.length → ∃ t, exec (.hostDramWindowAccess true off len bytes) s = .next t ∧ t.sys.response.unsupported = true
        ∧ t.sys.posts = s.sys.posts ++ [⟨8, 0x1702, 0, 0⟩] ∧ Keeps [.response, .posts] (fun _ => false) s t))

/-- R35, R37, R354, R432, R433: reads and writes through a portal. LCK_PCODE for a write that is not offered is the model's reading
(notes/assumptions/100.md). -/
def Obligations.Portals : Prop :=
  ∀ (s : State) (p : Fin 16) (off n : Nat), off < 2 ^ 20 →
    let y := s.sys
    let i := off / 8
    let rec_ := 0x80000000 + 32 * i
    let locker := y.get (LCK_PBIND_LOCKER p.val)
    let inside := p.val * 2 ^ 20 + off + n ≤ 2 ^ 24
    let bound := y.on (LCK_PBIND_VALID p.val) = true
    let visible := bound ∧ (locker = 0 ∨ y.rd (rec_ + 6) 2 % 1024 = locker)
    let sound := ∀ g ∈ y.mi.poison, g + 32 ≤ rec_ ∨ rec_ + 32 ≤ g
    let entry := memBytes y.mem rec_ 4 ++ memBytes y.mem (rec_ + 4) 2 ++ memBytes y.mem (rec_ + 8) 2
    let taken := n = 4 ∧ bound ∧ visible ∧ off % 8 = 0 ∧ y.on (LCK_PBIND_WRITE p.val) = true ∧ y.lockerWrites locker = true
    (y.dramGap = none → inside →
      (bound → n = 4 ∨ n = 8 → off % n = 0 →
        ∃ t, exec (.portalRead p off n) s = .next t
          ∧ (visible → t.sys.response.bytes = (entry.drop (off % 8)).take n) ∧ (¬ visible → t.sys.response.bytes = List.replicate n 0)
          ∧ (t.sys.response.poisoned = true ↔ visible ∧ ¬ sound) ∧ (sound → Keeps [.response] (fun _ => false) s t)
          ∧ Keeps [.response, .posts, .mi] (among [MEM_DUE, MEM_UEA, MEM_UEI, MEM_STAT]) s t)
      ∧ (¬ bound ∨ ¬ (n = 4 ∨ n = 8) ∨ off % n ≠ 0 →
        ∃ t, exec (.portalRead p off n) s = .next t ∧ t.sys.response.bytes = List.replicate n 0
          ∧ t.sys.get (LCK_PSTAT_RREF p.val) = Nat.min (y.get (LCK_PSTAT_RREF p.val) + 1) 0xFFFF
          ∧ Keeps [.response] (among [LCK_PSTAT p.val]) s t)
      ∧ (∀ v, taken →
        (y.chg.queue.length < 4096 → ∃ t, exec (.portalWrite p off n v) s = .next t
          ∧ t.sys.chg.queue = y.chg.queue ++ [⟨i, 0, 3, locker, false, y.chg.nextSeq, v % 2 ^ 32⟩]
          ∧ t.sys.word (LCK_PSEQ p.val) = y.chg.nextSeq % 2 ^ 32
          ∧ Keeps [.chg] (among [LCK_PSEQ p.val, CYC_CHGST]) s t)
        ∧ (4096 ≤ y.chg.queue.length → y.domUp 0 = true → ∃ t, exec (.portalWrite p off n v) s = .next t
          ∧ t.sys.get (LCK_PCODE_CODE p.val) = 0x1307 ∧ t.sys.posts = y.posts ++ [⟨8, 0x1307, locker, 0⟩]
          ∧ Keeps [.posts] (among [LCK_PCODE p.val]) s t))
      ∧ (∀ v, ¬ taken →
        ∃ t, exec (.portalWrite p off n v) s = .next t ∧ t.sys.get (LCK_PCODE_CODE p.val) = 0x1503
          ∧ t.sys.get (LCK_PSTAT_WREF p.val) = Nat.min (y.get (LCK_PSTAT_WREF p.val) + 1) 0xFFFF
          ∧ Keeps [.posts, .limits] (among [LCK_PSTAT p.val, LCK_PCODE p.val]) s t))
    ∧ (∀ d, y.dramGap = some d → inside →
      (∃ t, exec (.portalRead p off n) s = .next t ∧ t.sys.response.bytes = List.replicate n 0
        ∧ lookupD 0 t.sys.pwr.absent d = Nat.min (lookupD 0 y.pwr.absent d + 1) 0xFFFF ∧ Keeps [.response, .pwr] (fun _ => false) s t)
      ∧ ∀ v, ∃ t, exec (.portalWrite p off n v) s = .next t ∧ lookupD 0 t.sys.pwr.drops d = Nat.min (lookupD 0 y.pwr.drops d + 1) 0xFFFF
        ∧ Keeps [.posts, .limits, .pwr] (fun _ => false) s t)
    ∧ (¬ inside → y.domUp 0 = true →
      (∃ t, exec (.portalRead p off n) s = .next t ∧ t.sys.response.unsupported = true ∧ t.sys.posts = y.posts ++ [⟨8, 0x1702, 0, 0⟩]
        ∧ Keeps [.response, .posts] (fun _ => false) s t)
      ∧ ∀ v, ∃ t, exec (.portalWrite p off n v) s = .next t ∧ t.sys.response.unsupported = true ∧ t.sys.posts = y.posts ++ [⟨8, 0x1702, 0, 0⟩]
        ∧ Keeps [.response, .posts] (fun _ => false) s t)

/-- R142, R144, R145, R150 for the integer types: results, flags, charge and frame of ADD, SUB, MUL and NEG. -/
def Obligations.IntegerArithmetic : Prop :=
  ∀ (s : State) (n : Fin 4) (o : OpR), o.t = 0 ∨ o.t = 1 ∨ o.t = 3 →
    let w := typeWidth o.t
    let a := s.sys.w n o.a % 2 ^ w
    let b := s.sys.opB n o % 2 ^ w
    let done := fun (cost r : Nat) (c v : Bool) =>
      s.engine n fun e => ((e.past cost o.ext).give o.d (extend o.t r)).setFlags ⟨r % 2 ^ w == 0, r.testBit (w - 1), c, v, false⟩
    (o.twoSource = true → s.sys.canRun n (1 + o.ext) o.ext →
      exec (.add n o) s = .next (done (1 + o.ext) (a + b) (decide (2 ^ w ≤ a + b)) (!fitsSigned w (sint w a + sint w b))))
    ∧ (o.twoSource = true → s.sys.canRun n (1 + o.ext) o.ext →
      exec (.sub n o) s = .next (done (1 + o.ext) (a + 2 ^ w - b) (decide (a < b)) (!fitsSigned w (sint w a - sint w b))))
    ∧ (o.twoSource = true → o.t = 3 → s.sys.canRun n (4 + o.ext) o.ext →
      exec (.mul n o) s = .next (done (4 + o.ext) (a * b) (decide (2 ^ 64 ≤ a * b)) false))
    ∧ (o.twoSource = true → o.t < 2 → s.sys.canRun n (1 + o.t + o.ext) o.ext →
      exec (.mul n o) s = .next (done (1 + o.t + o.ext) (unsint w (sint w a * sint w b)) false (!fitsSigned w (sint w a * sint w b))))
    ∧ (o.oneSource = true → s.sys.canRun n 1 0 →
      exec (.neg n o) s = .next (done 1 (2 ^ w - a) (a != 0) (a == 2 ^ (w - 1))))

/-- R144, R145, R150: DIV and MOD of integers by a divisor other than 0. -/
def Obligations.IntegerDivision : Prop :=
  ∀ (s : State) (n : Fin 4) (o : OpR), o.t = 0 ∨ o.t = 1 ∨ o.t = 3 → o.twoSource = true →
    let w := typeWidth o.t
    let a := s.sys.w n o.a % 2 ^ w
    let b := s.sys.opB n o % 2 ^ w
    let cost := (if o.t = 0 then 10 else if o.t = 1 then 18 else 34) + o.ext
    let done := fun (r : Nat) (v : Bool) =>
      s.engine n fun e => ((e.past cost o.ext).give o.d (extend o.t r)).setFlags ⟨r % 2 ^ w == 0, r.testBit (w - 1), false, v, false⟩
    b ≠ 0 → s.sys.canRun n cost o.ext →
    (o.t = 3 → exec (.div n o) s = .next (done (a / b) false) ∧ exec (.mod n o) s = .next (done (a % b) false))
    ∧ (o.t < 2 →
      exec (.div n o) s = .next (done (unsint w (Int.tdiv (sint w a) (sint w b))) (sint w a == -(2 ^ (w - 1)) && sint w b == -1))
      ∧ exec (.mod n o) s = .next (done (unsint w (Int.tmod (sint w a) (sint w b))) false))

/-- R146. -/
def Obligations.DivisionByZero : Prop :=
  ∀ (s : State) (n : Fin 4) (o : OpR), o.t = 0 ∨ o.t = 1 ∨ o.t = 3 → o.twoSource = true →
    let cost := (if o.t = 0 then 10 else if o.t = 1 then 18 else 34) + o.ext
    let done := s.engine n fun e => ((e.past cost o.ext).give o.d 0).setFlags ⟨true, false, false, true, false⟩
    s.sys.opB n o % 2 ^ typeWidth o.t = 0 → s.sys.canRun n cost o.ext →
    exec (.div n o) s = .next { done with sys := done.sys.raise n 1 (4 * (s.sys.lane n).engine.pc) }
    ∧ exec (.mod n o) s = .next { done with sys := done.sys.raise n 1 (4 * (s.sys.lane n).engine.pc) }

/-- R142, R144, R145, R150: ABS, MIN, MAX, CLMP and CMP of integers. -/
def Obligations.IntegerSelection : Prop :=
  ∀ (s : State) (n : Fin 4) (o : OpR), o.t = 0 ∨ o.t = 1 ∨ o.t = 3 →
    let w := typeWidth o.t
    let x := s.sys.w n o.d
    let a := s.sys.w n o.a
    let b := s.sys.opB n o
    let value := fun (v : Nat) => if o.t = 3 then Int.ofNat (v % 2 ^ 64) else sint w v
    let done := fun (cost r : Nat) (v : Bool) =>
      s.engine n fun e => ((e.past cost o.ext).give o.d (extend o.t r)).setFlags ⟨r % 2 ^ w == 0, r.testBit (w - 1), false, v, false⟩
    (o.twoSource = true → s.sys.canRun n (1 + o.ext) o.ext →
      exec (.min n o) s = .next (done (1 + o.ext) (if value b < value a then b else a) false)
      ∧ exec (.max n o) s = .next (done (1 + o.ext) (if value a < value b then b else a) false))
    ∧ (o.twoSource = true → s.sys.canRun n (2 + o.ext) o.ext →
      exec (.clmp n o) s = .next (done (2 + o.ext)
        (let m := if value x < value a then a else x; if value b < value m then b else m) false))
    ∧ (o.twoSource = true → o.d = 0 → s.sys.canRun n (1 + o.ext) o.ext →
      exec (.cmp n o) s = .next (s.engine n fun e => (e.past (1 + o.ext) o.ext).setFlags
        ⟨a % 2 ^ w == b % 2 ^ w, decide (value a < value b), decide (a % 2 ^ w < b % 2 ^ w), false, false⟩))
    ∧ (o.oneSource = true → o.t < 2 → s.sys.canRun n 1 0 →
      exec (.abs n o) s = .next (done 1 (unsint w (Int.ofNat (sint w a).natAbs)) (a % 2 ^ w == 2 ^ (w - 1))))

/-- R142, R147, R150: the REAL32 operations and when they raise class 7. -/
def Obligations.RealArithmetic : Prop :=
  ∀ (s : State) (n : Fin 4) (o : OpR), o.t = 2 →
    let a := s.sys.w n o.a % 2 ^ 32
    let b := s.sys.opB n o % 2 ^ 32
    let done := fun (cost r : Nat) (finite : Bool) =>
      let t := s.engine n fun e => ((e.past cost o.ext).give o.d r).setFlags
        ⟨realIsZero r, realNeg r && !realIsNaN r, false, finite && realIsInf r, realIsNaN r⟩
      if finite && !realFinite r then { t with sys := t.sys.raise n 7 (4 * (s.sys.lane n).engine.pc) } else t
    (o.twoSource = true → s.sys.canRun n (3 + o.ext) o.ext →
      exec (.add n o) s = .next (done (3 + o.ext) (realAdd a b) (realFinite a && realFinite b))
      ∧ exec (.sub n o) s = .next (done (3 + o.ext) (realSub a b) (realFinite a && realFinite b))
      ∧ exec (.mul n o) s = .next (done (3 + o.ext) (realMul a b) (realFinite a && realFinite b)))
    ∧ (o.twoSource = true → s.sys.canRun n (14 + o.ext) o.ext →
      exec (.div n o) s = .next (done (14 + o.ext) (realDiv a b) (realFinite a && realFinite b)))
    ∧ (o.oneSource = true → s.sys.canRun n 16 0 →
      exec (.sqrt n o) s = .next (done 16 (realSqrt a) (realFinite a)))

/-- R151: the logic, shift and rotate instructions, bit by bit, and the bit instructions. -/
def Obligations.LogicShiftsBits : Prop :=
  ∀ (s : State) (n : Fin 4) (o : OpR), o.t = 0 ∨ o.t = 1 ∨ o.t = 3 → s.sys.canRun n (1 + o.ext) o.ext →
    let w := typeWidth o.t
    let a := s.sys.w n o.a % 2 ^ w
    let b := s.sys.opB n o
    let k := b % 64
    let i := b % 2 ^ w
    let done := fun (r : Nat) (c : Bool) =>
      s.engine n fun e => ((e.past (1 + o.ext) o.ext).give o.d (extend o.t r)).setFlags ⟨r % 2 ^ w == 0, r.testBit (w - 1), c, false, false⟩
    let bad := fun (r : Nat) =>
      let t := s.engine n fun e => (e.past (1 + o.ext) o.ext).give o.d (extend o.t r)
      ({ t with sys := t.sys.raise n 2 (4 * (s.sys.lane n).engine.pc) } : State)
    (o.twoSource = true →
      exec (.and n o) s = .next (done (a &&& b % 2 ^ w) false)
      ∧ exec (.or n o) s = .next (done (a ||| b % 2 ^ w) false)
      ∧ exec (.xor n o) s = .next (done (a ^^^ b % 2 ^ w) false)
      ∧ exec (.shl n o) s = .next (done (a * 2 ^ k) (k != 0 && decide (k ≤ w) && a.testBit (w - k)))
      ∧ exec (.shr n o) s = .next (done (a / 2 ^ k) (k != 0 && a.testBit (k - 1)))
      ∧ exec (.sar n o) s = .next (done (unsint w (sint w a / 2 ^ k)) (k != 0 && a.testBit (Nat.min k w - 1)))
      ∧ exec (.rol n o) s = .next (done (a * 2 ^ (k % w) % 2 ^ w + a / 2 ^ (w - k % w)) (k % w != 0 && a.testBit (w - k % w)))
      ∧ (i < w →
        exec (.btst n o) s = .next (done (if a.testBit i then 1 else 0) false)
        ∧ exec (.bset n o) s = .next (done (a ||| 2 ^ i) false)
        ∧ exec (.bclr n o) s = .next (done (if a.testBit i then a - 2 ^ i else a) false))
      ∧ (w ≤ i → exec (.btst n o) s = .next (bad 0) ∧ exec (.bset n o) s = .next (bad a) ∧ exec (.bclr n o) s = .next (bad a)))
    ∧ (o.oneSource = true →
      exec (.not n o) s = .next (done (2 ^ w - 1 - a) false)
      ∧ exec (.lnot n o) s = .next (done (if a = 0 then 1 else 0) false))

/-- R149, R154: the loads, moves and conversions. -/
def Obligations.LoadsMovesConversions : Prop :=
  ∀ (s : State) (n : Fin 4),
    (∀ o : OpM, o.formOk = true →
      let k := s.sys.opK n o
      let off := 4 * (s.sys.lane n).engine.pc
      let done := fun (cost v : Nat) => s.engine n fun e => (e.past cost 0).give o.d v
      let bad := fun (cost : Nat) => let t := done cost 0; ({ t with sys := t.sys.raise n 2 off } : State)
      (o.t = 3 → s.sys.canRun n (3 + o.extra) 0 →
        exec (.ldv n o) s = .next (if k % 2 = 0 ∧ (k + 2) * 4 ≤ s.sys.vlen n then done (3 + o.extra) (s.sys.lrd n (0x200000 + 4 * k) 8 % 2 ^ 64)
          else bad (3 + o.extra)))
      ∧ (o.t < 3 → s.sys.canRun n (2 + o.extra) 0 →
        exec (.ldv n o) s = .next (if k * 4 < s.sys.vlen n then done (2 + o.extra) (extend o.t (s.sys.lrd n (0x200000 + 4 * k) 4))
          else bad (2 + o.extra)))
      ∧ (o.t < 3 → s.sys.canRun n (3 + o.extra) 0 →
        exec (.ldp n o) s = .next (if k < 131072 then done (3 + o.extra) (extend o.t (s.sys.pointValue n k)) else bad (3 + o.extra)))
      ∧ (o.t = 1 → s.sys.canRun n (4 + o.extra) 0 →
        exec (.qld n o) s = .next (if k < 131072 then done (4 + o.extra) (s.sys.pointQuality n k) else bad (4 + o.extra))
        ∧ exec (.qok n o) s = .next (if k < 131072 then done (4 + o.extra) (if s.sys.pointQuality n k &&& 0x00BF = 0 then 1 else 0)
          else bad (4 + o.extra))))
    ∧ (∀ o : OpR,
      let done := fun (cost v : Nat) => s.engine n fun e => (e.past cost o.ext).give o.d v
      (o.twoSource = true → o.a = 0 → s.sys.canRun n (1 + o.ext) o.ext → exec (.mov n o) s = .next (done (1 + o.ext) (extend o.t (s.sys.opB n o))))
      ∧ (o.t = 3 → o.f = 1 → o.a = 0 → o.b ≤ 6 → s.sys.canRun n 2 0 → exec (.ldx n o) s = .next (done 2 (s.sys.ctxItem n o.b)))
      ∧ (o.f = 1 → o.b ≤ 3 → s.sys.canRun n 3 0 →
        let r := aluCvt o.t o.b (s.sys.w n o.a)
        exec (.cvt n o) s = .next (s.engine n fun e => ((e.past 3 0).give o.d r.res).setFlags r.fl)))
    ∧ (s.sys.canRun n 1 0 → exec (.nop n ⟨0⟩) s = .next (s.engine n fun e => e.past 1 0))

/-- R148 for the integer types. -/
def Obligations.IntegerConversion : Prop :=
  ∀ (s : State) (n : Fin 4) (o : OpR), (o.t = 0 ∨ o.t = 1 ∨ o.t = 3) → (o.b = 0 ∨ o.b = 1 ∨ o.b = 3) → o.t ≠ o.b → o.f = 1 →
    s.sys.canRun n 3 0 →
    let v := s.sys.w n o.a
    let x : Int := if o.b = 3 then Int.ofNat (v % 2 ^ 64) else sint (typeWidth o.b) v
    let lo : Int := if o.t = 3 then 0 else -(2 ^ (typeWidth o.t - 1))
    let hi : Int := if o.t = 3 then 2 ^ 64 - 1 else 2 ^ (typeWidth o.t - 1) - 1
    let y := max lo (min hi x)
    exec (.cvt n o) s = .next (s.engine n fun e =>
      ((e.past 3 0).give o.d (unsint 64 y)).setFlags ⟨y == 0, (unsint 64 y).testBit (typeWidth o.t - 1), false, decide (y ≠ x), false⟩)

/-- R143, R152. -/
def Obligations.ControlFlow : Prop :=
  ∀ (s : State) (n : Fin 4),
    let e0 := (s.sys.lane n).engine
    let top := s.sys.logicTop n
    let raised := fun (cost cls : Nat) =>
      let t := s.engine n fun e => e.past cost 0
      ({ t with sys := t.sys.raise n cls (4 * e0.pc) } : State)
    let jump := fun (taken : Bool) (target : Nat) =>
      if taken then (if target < top then s.engine n fun e => { e.past 2 0 with pc := target } else raised 2 5)
      else s.engine n fun e => e.past 2 0
    (∀ o : OpJ, o.reserved = false →
      (o.cond ≤ 12 → o.target = 0 → s.sys.canRun n 1 0 →
        exec (.set n o) s = .next (s.engine n fun e => (e.past 1 0).give o.reg (if condHolds o.cond e.flags then 1 else 0)))
      ∧ (s.sys.canRun n 2 0 →
        (o.cond ≤ 12 → o.reg = 0 → exec (.br n o) s = .next (jump (condHolds o.cond e0.flags) o.target))
        ∧ (o.cond = 0 → exec (.brt n o) s = .next (jump (s.sys.w n o.reg % 2 ^ 32 != 0) o.target))
        ∧ (o.cond = 0 → exec (.brf n o) s = .next (jump (s.sys.w n o.reg % 2 ^ 32 == 0) o.target)))
      ∧ (o.cond = 0 → o.reg = 0 → s.sys.canRun n 3 0 →
        exec (.call n o) s = .next (if 16 ≤ e0.stack.length then raised 3 6
          else if o.target < top then s.engine n fun e => { e.past 3 0 with stack := (e.pc + 1) :: e.stack, pc := o.target }
          else raised 3 5)))
    ∧ (s.sys.canRun n 3 0 → exec (.ret n ⟨0⟩) s = .next (match e0.stack with
        | [] => raised 3 6
        | p :: rest => s.engine n fun e => { e.past 3 0 with stack := rest, pc := p }))
    ∧ (s.sys.canRun n 1 0 → exec (.endTask n ⟨0⟩) s = .next (s.engine n fun e => { e.past 1 0 with stack := [], ended := true }))

/-- R153, R156, R157: what the timer and counter instructions leave in the record and in D. -/
def Obligations.FunctionBlocks : Prop :=
  ∀ (s : State) (n : Fin 4) (o : OpK),
    let inp : Bool := s.sys.w n o.a % 2 ^ 32 != 0
    let bad := fun (cost : Nat) =>
      let t := s.engine n fun e => (e.past cost 0).give o.d 0
      (.next { t with sys := t.sys.raise n 2 (4 * (s.sys.lane n).engine.pc) } : Host.Outcome State Fault Refusal)
    (o.timerRef = true → (o.ref + 1) * 32 ≤ s.sys.vlen n →
      let a := 0x200000 + 32 * o.ref
      let r := s.sys.timer n a
      let now := s.sys.ctxTime n
      let since := fun (start : Nat) => (now + 2 ^ 64 - start) % 2 ^ 64
      let left := fun (t : State) (q : TimerRec) (cost : Nat) =>
        t.sys = (s.sys.setTimer n a q).modEngine n fun e => (e.past cost 0).give o.d (if q.q then 1 else 0)
      let runs := fun (q : TimerRec) => if q.pt ≤ since q.start then { q with et := Nat.min (since q.start) q.pt, q := false, run := false }
        else { q with et := Nat.min (since q.start) q.pt }
      (s.sys.canRun n 12 0 →
        (o.t = 0 → ∃ t, exec (.tmr n o) s = .next t ∧ left t (if inp = true then
              let start := if r.inn then r.start else now
              { r with start := start, run := true, et := Nat.min (since start) r.pt, q := decide (r.pt ≤ since start), inn := true }
            else { r with run := false, q := false, et := 0, inn := false }) 12)
        ∧ (o.t = 1 → ∃ t, exec (.tmr n o) s = .next t ∧ left t (if inp = true then { r with q := true, run := false, et := 0, inn := true }
            else if r.inn = true then { runs { r with start := now, run := true } with inn := false }
            else if r.run = true then { runs r with inn := false } else r) 12)
        ∧ (o.t = 2 → ∃ t, exec (.tmr n o) s = .next t ∧ left t (if inp = true ∧ r.inn = false ∧ r.run = false then
              { runs { r with start := now, run := true, q := true } with inn := true }
            else if r.run = true then { runs r with inn := inp }
            else { r with et := if inp then r.et else 0, inn := inp }) 12))
      ∧ (o.t = 3 → o.a = 0 → s.sys.canRun n 2 0 → exec (.tet n o) s = .next (s.engine n fun e => (e.past 2 0).give o.d r.et))
      ∧ (o.t = 1 → o.a = 0 → o.d = 0 → s.sys.canRun n 4 0 →
        ∃ t, exec (.trst n o) s = .next t
          ∧ t.sys = (s.sys.setTimer n a { r with start := 0, et := 0, inn := false, q := false, run := false }).modEngine n fun e => e.past 4 0))
    ∧ (o.timerRef = true → s.sys.vlen n < (o.ref + 1) * 32 →
      (o.t < 3 → s.sys.canRun n 12 0 → exec (.tmr n o) s = bad 12) ∧ (o.t = 3 → o.a = 0 → s.sys.canRun n 2 0 → exec (.tet n o) s = bad 2)
      ∧ (o.t = 1 → o.a = 0 → o.d = 0 → s.sys.canRun n 4 0 → exec (.trst n o) s =
          (let t := s.engine n fun e => e.past 4 0
           .next { t with sys := t.sys.raise n 2 (4 * (s.sys.lane n).engine.pc) })))
    ∧ (o.counterRef = true → o.t = 1 → (o.ref + 1) * 16 ≤ s.sys.vlen n →
      let a := 0x200000 + 16 * o.ref
      let r := s.sys.counter n a
      let up := fun (cv : Int) => if r.pv ≤ cv then 1 else 0
      let down := fun (cv : Int) => if cv ≤ 0 then 1 else 0
      let left := fun (t : State) (c : CounterRec) (d cost : Nat) =>
        t.sys = (s.sys.setCounter n a c).modEngine n fun e => (e.past cost 0).give o.d d
      (s.sys.canRun n 6 0 →
        (let cv := if !r.word.testBit 2 && inp && !r.word.testBit 0 && decide (r.cv < 2 ^ 31 - 1) then r.cv + 1 else r.cv
         ∃ t, exec (.ctu n o) s = .next t ∧ left t { r with cv := cv, word := flagBit (flagBit r.word 2 false) 0 inp } (up cv) 6)
        ∧ (let cv := if !r.word.testBit 3 && inp && !r.word.testBit 1 && decide (-(2 ^ 31) < r.cv) then r.cv - 1 else r.cv
         ∃ t, exec (.ctd n o) s = .next t ∧ left t { r with cv := cv, word := flagBit (flagBit r.word 3 false) 1 inp } (down cv) 6))
      ∧ (s.sys.canRun n 4 0 →
        (let cv := if inp then 0 else r.cv; ∃ t, exec (.crst n o) s = .next t ∧ left t { r with cv := cv } (up cv) 4)
        ∧ (let cv := if inp then r.pv else r.cv; ∃ t, exec (.cld n o) s = .next t ∧ left t { r with cv := cv } (down cv) 4))
      ∧ (o.a = 0 → s.sys.canRun n 2 0 →
        exec (.ccv n o) s = .next (s.engine n fun e => (e.past 2 0).give o.d (extend 1 (s.sys.lrd n a 4)))))
    ∧ (o.counterRef = true → o.t = 1 → s.sys.vlen n < (o.ref + 1) * 16 →
      (s.sys.canRun n 6 0 → exec (.ctu n o) s = bad 6 ∧ exec (.ctd n o) s = bad 6)
      ∧ (s.sys.canRun n 4 0 → exec (.crst n o) s = bad 4 ∧ exec (.cld n o) s = bad 4)
      ∧ (o.a = 0 → s.sys.canRun n 2 0 → exec (.ccv n o) s = bad 2))
    ∧ (o.t = 1 → o.reserved = false → s.sys.vlen n < (o.ref + 1) * 4 → s.sys.canRun n 3 0 →
      exec (.redg n o) s = bad 3 ∧ exec (.fedg n o) s = bad 3)

/-- R158. -/
def Obligations.EdgeInstructions : Prop :=
  ∀ (s : State) (n : Fin 4) (o : OpK), o.t = 1 → o.reserved = false → (o.ref + 1) * 4 ≤ s.sys.vlen n → s.sys.canRun n 3 0 →
    let a := 0x200000 + 4 * o.ref
    let w := s.sys.lrd n a 4
    let m := w.testBit 0
    let new := w.testBit 1
    let inp : Bool := s.sys.w n o.a % 2 ^ 32 != 0
    let word := flagBit (flagBit w 1 false) 0 inp
    let left := fun (t : State) (hit : Bool) =>
      t.sys = (s.sys.lwr n a 4 word).modEngine n fun e => (e.past 3 0).give o.d (if hit then 1 else 0)
    (∃ t, exec (.redg n o) s = .next t ∧ left t (!new && inp && !m))
    ∧ (∃ t, exec (.fedg n o) s = .next t ∧ left t (!new && !inp && m))

/-- R149, R154, R159, R161, R162: the stores. -/
def Obligations.LaneStores : Prop :=
  ∀ (s : State) (n : Fin 4),
    let off := 4 * (s.sys.lane n).engine.pc
    let past := fun (cost : Nat) => s.engine n fun e => e.past cost 0
    let raised := fun (cost cls : Nat) => ({ past cost with sys := (past cost).sys.raise n cls off } : State)
    let stored := fun (cost at_ len v : Nat) => ({ s with sys := (s.sys.lwr n at_ len v).modEngine n fun e => e.past cost 0 } : State)
    (∀ o : OpM, o.formOk = true →
      let k := s.sys.opK n o
      (o.t = 3 → s.sys.canRun n (3 + o.extra) 0 →
        exec (.stv n o) s = .next (if k % 2 = 0 ∧ (k + 2) * 4 ≤ s.sys.vlen n then stored (3 + o.extra) (0x200000 + 4 * k) 8 (s.sys.w n o.d)
          else raised (3 + o.extra) 2))
      ∧ (o.t < 3 → s.sys.canRun n (2 + o.extra) 0 →
        exec (.stv n o) s = .next (if k * 4 < s.sys.vlen n then stored (2 + o.extra) (0x200000 + 4 * k) 4 (extend o.t (s.sys.w n o.d))
          else raised (2 + o.extra) 2))
      ∧ (o.t < 3 → s.sys.canRun n (3 + o.extra) 0 →
        exec (.stp n o) s = .next (if 131072 ≤ k then raised (3 + o.extra) 2
          else if s.sys.pointClass n k = 2 ∨ s.sys.pointClass n k = 3 then stored (3 + o.extra) (0x180000 + 4 * k) 4 (extend o.t (s.sys.w n o.d))
          else raised (3 + o.extra) 3)))
    ∧ (∀ o : OpK, o.reserved = false →
      (o.t = 1 → s.sys.canRun n 4 0 →
        exec (.swa n o) s = .next (if s.sys.pointClass n o.ref = 2
          then stored 4 (0x180000 + 4 * o.ref) 4 (s.sys.w n o.a % 2 ^ 16 + (if s.sys.w n o.d % 2 ^ 32 = 0 then 0 else 2 ^ 16) + 2 ^ 17)
          else raised 4 3))
      ∧ (o.t < 3 → s.sys.canRun n 5 0 →
        let seq := (s.sys.lrd n (0x180000 + 4 * o.ref) 4 / 2 ^ 28 % 16 + 1) % 16
        let word := s.sys.w n o.a % (if o.t = 1 then 2 ^ 24 else 2 ^ 16) + o.t * 2 ^ 24 + seq * 2 ^ 28
        exec (.dlq n o) s = .next (if s.sys.pointClass n o.ref = 2
          then { s with sys := (s.sys.lwr n (0x180000 + 4 * o.ref) 4 word).modEngine n fun e => (e.past 5 0).give o.d seq }
          else raised 5 3))
      ∧ (∀ f slot, o.ref = f * 8192 + slot → slot < 8192 → o.d = 0 → s.sys.canRun n 6 0 →
        let v := s.sys.w n o.a % 2 ^ 32
        let a := 0x380000 + 64 * slot
        (f = 4 → o.t = 1 →
          exec (.lpwr n o) s = .next (if s.sys.slotUsed n slot ∧ v ≤ 4 then stored 6 (a + 0x1C) 4 (s.sys.lrd n (a + 0x1C) 4 / 8 * 8 + v)
            else raised 6 2))
        ∧ (f = 0 ∨ f = 3 ∨ f = 7 ∨ f = 8 ∨ f = 9 → o.t = 2 →
          exec (.lpwr n o) s = .next (if s.sys.slotUsed n slot ∧ realFinite v = true
            then stored 6 (a + (if f ≤ 3 then 4 * f else 0x10 + 4 * (f - 7))) 4 v else raised 6 2))))

/-- R154, R160, R164. -/
def Obligations.LoopReadAndCalendar : Prop :=
  ∀ (s : State) (n : Fin 4),
    (∀ (o : OpK) (f slot : Nat), o.ref = f * 8192 + slot → slot < 8192 → o.reserved = false → o.a = 0 → s.sys.canRun n 4 0 →
      (f ≤ 10 → o.t = (if f ≤ 3 ∨ (7 ≤ f ∧ f ≤ 9) then 2 else 1) →
        let t := s.engine n fun e => (e.past 4 0).give o.d (if s.sys.slotUsed n slot then s.sys.loopField n slot f else 0)
        exec (.lprd n o) s = .next (if s.sys.slotUsed n slot then t
          else { t with sys := t.sys.raise n 2 (4 * (s.sys.lane n).engine.pc) })))
    ∧ (∀ o : OpR, o.t = 1 → o.f = 1 → o.b ≤ 9 → s.sys.canRun n 24 0 →
      let v := s.sys.w n o.a
      exec (.cal n o) s = .next (s.engine n fun e =>
        { (e.past 24 0).give o.d (if v = 0 then 2 ^ 64 - 1 else extend 1 (calField o.b v)) with u := v == 0 }))

/-- R114, R134, R139, R155: an instruction that is not executed, by the two ways, for all of them. -/
def Obligations.InstructionRefused : Prop :=
  ∀ (s : State) (n : Fin 4),
    let e := (s.sys.lane n).engine
    let room := s.sys.prog.allowance
    let refused := ({ s with sys := s.sys.raise n 4 (4 * e.pc) } : State)
    let bad := fun (cost : Nat) => ({ s with sys := (s.sys.modEngine n fun e => { e with clocks := e.clocks + cost }).raise n 5 (4 * e.pc) } : State)
    let illegal := fun (is : List Instr) => ∀ i ∈ is, ∃ cost, 1 ≤ cost ∧ cost ≤ 36 ∧ exec i s = .next (if e.clocks + cost ≤ room then bad cost else refused)
    let two := fun (o : OpR) => [Instr.add n o, .sub n o, .mul n o, .div n o, .mod n o, .min n o, .max n o, .clmp n o, .cmp n o, .mov n o, .and n o, .or n o, .xor n o,
      .shl n o, .shr n o, .sar n o, .rol n o, .btst n o, .bset n o, .bclr n o]
    let one := fun (o : OpR) => [Instr.neg n o, .abs n o, .sqrt n o, .not n o, .lnot n o]
    let integer := fun (o : OpR) => [Instr.mod n o, .and n o, .or n o, .xor n o, .not n o, .lnot n o, .shl n o, .shr n o, .sar n o, .rol n o, .btst n o, .bset n o, .bclr n o]
    let opM := fun (o : OpM) => [Instr.ldv n o, .stv n o, .ldp n o, .stp n o, .qld n o, .qok n o]
    let opK := fun (o : OpK) => [Instr.tmr n o, .tet n o, .trst n o, .ctu n o, .ctd n o, .crst n o, .cld n o, .ccv n o, .redg n o, .fedg n o, .lprd n o, .lpwr n o,
      .swa n o, .dlq n o]
    let opJ := fun (o : OpJ) => [Instr.set n o, .br n o, .brt n o, .brf n o, .call n o]
    let opZ := fun (o : OpZ) => [Instr.nop n o, .ret n o, .endTask n o]
    (e.clocks + 1 ≤ room → exec (.illegalInstruction n) s = .next (bad 1))
    ∧ (room < e.clocks + 1 →
      (∀ o, ∀ i ∈ two o ++ one o ++ [Instr.ldx n o, .cvt n o, .cal n o], exec i s = .next refused) ∧ (∀ o, ∀ i ∈ opM o, exec i s = .next refused)
      ∧ (∀ o, ∀ i ∈ opK o, exec i s = .next refused) ∧ (∀ o, ∀ i ∈ opJ o, exec i s = .next refused) ∧ (∀ o, ∀ i ∈ opZ o, exec i s = .next refused)
      ∧ exec (.illegalInstruction n) s = .next refused)
    ∧ (∀ o : OpR, (o.twoSource = false → illegal (two o)) ∧ (o.oneSource = false → illegal (one o)) ∧ (o.t = 2 → illegal (integer o)) ∧ (o.t = 3 → illegal [.abs n o])
      ∧ (o.t ≠ 2 → illegal [.sqrt n o]) ∧ (o.a ≠ 0 → illegal [.mov n o]) ∧ (o.d ≠ 0 → illegal [.cmp n o])
      ∧ (o.t ≠ 3 ∨ o.f ≠ 1 ∨ o.a ≠ 0 ∨ 6 < o.b → illegal [.ldx n o]) ∧ (o.f ≠ 1 ∨ 3 < o.b → illegal [.cvt n o]) ∧ (o.t ≠ 1 ∨ o.f ≠ 1 ∨ 9 < o.b → illegal [.cal n o])
      ∧ (o.ext ≠ 0 → s.sys.logicTop n ≤ e.pc + o.ext → illegal (two o ++ one o ++ [Instr.ldx n o, .cvt n o, .cal n o])))
    ∧ (∀ o : OpM, (o.formOk = false → illegal (opM o)) ∧ (o.t = 3 → illegal [.ldp n o, .stp n o]) ∧ (o.t ≠ 1 → illegal [.qld n o, .qok n o]))
    ∧ (∀ o : OpK, (o.reserved = true → illegal (opK o)) ∧ (o.timerRef = false → illegal [.tmr n o, .tet n o, .trst n o])
      ∧ (o.counterRef = false → illegal [.ctu n o, .ctd n o, .crst n o, .cld n o, .ccv n o]) ∧ (o.t = 3 → illegal [.tmr n o, .dlq n o]) ∧ (o.t ≠ 3 → illegal [.tet n o])
      ∧ (o.t ≠ 1 → illegal [.trst n o, .ctu n o, .ctd n o, .crst n o, .cld n o, .ccv n o, .redg n o, .fedg n o, .swa n o])
      ∧ (o.a ≠ 0 → illegal [.tet n o, .trst n o, .ccv n o, .lprd n o]) ∧ (o.d ≠ 0 → illegal [.trst n o, .lpwr n o])
      ∧ (loopFieldType (o.ref / 8192) ≠ some o.t → illegal [.lprd n o, .lpwr n o]) ∧ (loopFieldWritable (o.ref / 8192) = false → illegal [.lpwr n o]))
    ∧ (∀ o : OpJ, (o.reserved = true → illegal (opJ o)) ∧ (12 < o.cond → illegal (opJ o)) ∧ (o.cond ≠ 0 → illegal [.brt n o, .brf n o, .call n o])
      ∧ (o.target ≠ 0 → illegal [.set n o]) ∧ (o.reg ≠ 0 → illegal [.br n o, .call n o]))
    ∧ (∀ o : OpZ, o.bits ≠ 0 → illegal (opZ o))

/-- R138: the five formats, every field at every value. -/
def Obligations.OperandWordsRoundTrip : Prop :=
  ∀ opc, opc < 64 →
    (∀ o : OpR, o.ok = true → OpR.ofWord (o.toWord opc) o.long = o ∧ wordOpc (o.toWord opc) = opc ∧ o.toWord opc < 2 ^ 32)
    ∧ (∀ o : OpM, o.ok = true → OpM.ofWord (o.toWord opc) = o ∧ wordOpc (o.toWord opc) = opc ∧ o.toWord opc < 2 ^ 32)
    ∧ (∀ o : OpK, o.ok = true → OpK.ofWord (o.toWord opc) = o ∧ wordOpc (o.toWord opc) = opc ∧ o.toWord opc < 2 ^ 32)
    ∧ (∀ o : OpJ, o.ok = true → OpJ.ofWord (o.toWord opc) = o ∧ wordOpc (o.toWord opc) = opc ∧ o.toWord opc < 2 ^ 32)
    ∧ (∀ o : OpZ, o.ok = true → OpZ.ofWord (o.toWord opc) = o ∧ wordOpc (o.toWord opc) = opc ∧ o.toWord opc < 2 ^ 32)

/-- R11, R41, R49, R52, R53: the commands on the angle clock; what HOFS and REFCH do outside LOCKED is the model's reading
(notes/assumptions/119.md). -/
def Obligations.AngleClockCommands : Prop :=
  ∀ s : State,
    let y := s.sys
    let held := fun (t : State) (cause : Nat) =>
      t.sys.get ANG_STAT_STATE = angHoldover ∧ t.sys.get ANG_STAT_HCAUSE = cause ∧ t.sys.get ANG_STAT_GOODCNT = 0 ∧ t.sys.get ANG_STAT_SLEWING = 0
        ∧ t.sys.ang.time = y.ang.time ∧ t.sys.posts = y.posts ++ [⟨8, 0x0402, 0, cause⟩] ∧ Keeps [.ang, .posts] (among [ANG_CTL, ANG_STAT]) s t
    (y.on ANG_CTL_RUN = false →
      ∃ t, exec .angRunSet s = .next t ∧ t.sys.on ANG_CTL_RUN = true ∧ t.sys.get ANG_STAT_HCAUSE = 0 ∧ t.sys.get ANG_STAT_GOODCNT = 0
        ∧ t.sys.ang.time = (if y.ang.ran then y.ang.time else 0) ∧ t.sys.ang.corr = 0 ∧ Keeps [.ang] (among [ANG_CTL, ANG_STAT]) s t)
    ∧ (y.on ANG_CTL_RUN = true → exec .angRunSet s = .next s)
    ∧ (∃ t, exec .angRunClear s = .next t ∧ t.sys.on ANG_CTL_RUN = false ∧ t.sys.get ANG_STAT_STATE = angFree ∧ t.sys.ang.time = y.ang.time
        ∧ t.sys.ang.corr = 0 ∧ Keeps [.ang] (among [ANG_CTL, ANG_STAT]) s t)
    ∧ (∃ t, exec .hofsSet s = .next t ∧ t.sys.on ANG_CTL_HOFS = true ∧ t.sys.ang.time = y.ang.time ∧ Keeps [.ang, .posts] (among [ANG_CTL, ANG_STAT]) s t
        ∧ (y.on ANG_CTL_RUN = true → y.get ANG_STAT_STATE = angLocked → y.domUp 0 = true → held t 5)
        ∧ (y.get ANG_STAT_STATE ≠ angLocked → t.sys.get ANG_STAT_STATE = y.get ANG_STAT_STATE ∧ t.sys.get ANG_STAT_HCAUSE = y.get ANG_STAT_HCAUSE ∧ t.sys.posts = y.posts))
    ∧ (∀ c, y.on ANG_CTL_LOCK = false →
      (c < 6 → ∃ t, exec (.refchWrite c) s = .next t ∧ t.sys.get ANG_CTL_REFCH = c ∧ t.sys.ang.time = y.ang.time ∧ Keeps [.ang, .posts] (among [ANG_CTL, ANG_STAT]) s t
        ∧ (y.on ANG_CTL_RUN = true → y.get ANG_STAT_STATE = angLocked → y.domUp 0 = true → held t 7)
        ∧ (y.get ANG_STAT_STATE ≠ angLocked → t.sys.get ANG_STAT_STATE = y.get ANG_STAT_STATE ∧ t.sys.get ANG_STAT_HCAUSE = y.get ANG_STAT_HCAUSE ∧ t.sys.posts = y.posts))
      ∧ (c = 6 ∨ c = 7 → exec (.refchWrite c) s = .next { s with sys := y.note 0x0405 }))
    ∧ (∀ c, c < 8 → y.on ANG_CTL_LOCK = true → exec (.refchWrite c) s = .next (if c = y.get ANG_CTL_REFCH then s else { s with sys := y.note 0x0111 }))
    ∧ (∃ t, exec .hofsClear s = .next t ∧ t.sys.on ANG_CTL_HOFS = false ∧ t.sys.get ANG_STAT_STATE = y.get ANG_STAT_STATE
        ∧ (y.on ANG_CTL_HOFS = true → y.get ANG_STAT_STATE = angHoldover → t.sys.get ANG_STAT_GOODCNT = 0 ∧ t.sys.get ANG_STAT_SLEWING = 0)
        ∧ Keeps [.ang] (among [ANG_CTL, ANG_STAT]) s t)
    ∧ (y.ang.corr ≠ 0 → y.arrives ((y.ang.time / 32768 + 1) * 32768) = true →
      ∃ t, exec .correctionEnd s = .next t ∧ t.sys.ang.corr = 0 ∧ t.sys.fclk = y.fclk + y.clocksTo ((y.ang.time / 32768 + 1) * 32768)
        ∧ Keeps [.ang, .fclk, .lfxo, .rtc] (fun _ => false) s t)
    ∧ (y.ang.corr = 0 ∨ y.arrives ((y.ang.time / 32768 + 1) * 32768) = false → exec .correctionEnd s = .next s)

/-- R41, R63; R52, R53, R510; R58, R62. -/
def Obligations.AngleReadsAndEvents : Prop :=
  ∀ s : State,
    (∀ who, ∃ t, exec (.angTimelRead who) s = .next t ∧ t.sys.response.value = s.sys.ang.time % 2 ^ 32
      ∧ t.sys.word ANG_TIMEH = s.sys.ang.time / 2 ^ 32 % 2 ^ 32 ∧ Keeps [.response] (among [ANG_TIMEH]) s t)
    ∧ (∃ t, exec .angSnap s = .next t ∧ t.sys.word ANG_SNTL = t.sys.ang.time % 2 ^ 32 ∧ t.sys.word ANG_SNTH = t.sys.ang.time / 2 ^ 32 % 2 ^ 32
      ∧ t.sys.word ANG_SNRS = t.sys.rtc.sec % 2 ^ 32 ∧ t.sys.word ANG_SNRF = t.sys.rtc.sub % 2 ^ 32
      ∧ t.sys.fclk = s.sys.fclk + (390625 - s.sys.lfxo + 63) / 64
      ∧ Keeps [.ang, .fclk, .lfxo, .rtc] (among [ANG_SNTL, ANG_SNTH, ANG_SNRS, ANG_SNRF]) s t)
    ∧ (s.sys.on ANG_CTL_RUN = true → s.sys.ang.crossed = true → s.sys.arrives (s.sys.ang.expect + 40960) = true →
      ∃ t, exec .crossingMissing s = .next t ∧ t.sys.ang.expect = s.sys.ang.expect + 32768 ∧ t.sys.get ANG_STAT_GOODCNT = 0
        ∧ (s.sys.get ANG_STAT_STATE = angLocked → s.sys.domUp 0 = true →
          t.sys.get ANG_STAT_STATE = angHoldover ∧ t.sys.get ANG_STAT_HCAUSE = 2 ∧ t.sys.posts = s.sys.posts ++ [⟨8, 0x0402, 0, 2⟩])
        ∧ Keeps [.ang, .fclk, .lfxo, .rtc, .posts, .fe] (among [ANG_STAT, MET_GAPS]) s t)
    ∧ (s.sys.waitingForLock = true → s.sys.arrives s.sys.lockWait = true → s.sys.domUp 0 = true →
      ∃ t, exec .lockWaitExpired s = .next t ∧ t.sys.posts = s.sys.posts ++ [⟨8, 0x0408, 0, 0⟩] ∧ t.sys.ang.requested = true ∧ t.sys.ang.waitOver = true
        ∧ (s.sys.ang.frac < 2 ^ 32 → s.sys.ang.corr.natAbs ≤ 32768 → (if s.sys.on ANG_CTL_NOM then 7864320 else 6553600) ≤ t.sys.ang.time)
        ∧ t.sys.ang.corg % 65536 = 0 ∧ t.sys.ang.time ≤ t.sys.ang.corg ∧ t.sys.ang.corg < t.sys.ang.time + 65536
        ∧ t.sys.ang.start = t.sys.ang.corg ∧ t.sys.ang.cycle = 0 ∧ t.sys.ang.first = true
        ∧ Keeps [.ang, .fclk, .lfxo, .rtc, .posts] (fun _ => false) s t)
    ∧ (s.sys.on ANG_CTL_RUN = false ∨ s.sys.ang.crossed = false ∨ s.sys.arrives (s.sys.ang.expect + 40960) = false →
      exec .crossingMissing s = .next s)
    ∧ (s.sys.waitingForLock = false ∨ s.sys.arrives s.sys.lockWait = false → exec .lockWaitExpired s = .next s)

/-- R44 to R47, R510: what a zero crossing measures. The rounding of fm, the shift by the fractional delay and the nominal voltage before one
is configured are the model's choices (notes/assumptions/115.md, 116.md, 118.md). -/
def Obligations.ZeroCrossing : Prop :=
  (∀ (s : State) (clocks : Nat) (rising : Bool) (interval rms : Nat), s.sys.on ANG_CTL_RUN = false →
    exec (.zeroCrossing clocks rising interval rms) s = .next { s with sys := s.sys.elapse clocks })
  ∧ ∀ (s : State) (clocks : Nat) (rising : Bool) (interval rms : Nat), s.sys.on ANG_CTL_RUN = true →
    let y := s.sys.elapse clocks
    let fm := 8000 * 2 ^ 32 / interval
    let f : Int := Int.ofNat (y.get ANG_FREQ_F)
    let d : Int := (Int.ofNat fm - f) / 2 ^ y.get ANG_CTL_FK
    let lim : Int := Int.ofNat (y.get ANG_SLEW_FSLEW)
    let good := y.get ANG_VMIN_PCT * nth 0 y.fe.unom (y.get ANG_CTL_REFCH) ≤ rms * 100
      ∧ (y.ang.crossed = false ∨ (y.ang.time ≤ y.ang.expect + 40960 ∧ y.ang.expect ≤ y.ang.time + 40960))
      ∧ 45 * 65536 ≤ fm ∧ fm ≤ 65 * 65536
    let e : Int := ((if rising then 0 else 32768) - y.refShift + Int.ofNat (y.get ANG_OFS_OFS) - Int.ofNat (y.ang.time % 65536) + 32768) % 65536 - 32768
    ∃ t, exec (.zeroCrossing clocks rising interval rms) s = .next t
      ∧ t.sys.get ANG_PERR_E = unsint 16 e
      ∧ (good → t.sys.get ANG_FREQ_F = unsint 32 (f + max (-lim) (min lim d)) ∧ t.sys.get ANG_FGOOD_FGOOD = t.sys.get ANG_FREQ_F)
      ∧ (¬ good → t.sys.get ANG_FREQ_F = y.get ANG_FREQ_F ∧ t.sys.get ANG_FGOOD_FGOOD = y.get ANG_FGOOD_FGOOD)
      ∧ t.sys.ang.crossed = true ∧ (t.sys.ang.time = y.ang.time → t.sys.ang.expect = y.ang.time + 32768)
      ∧ Keeps [.ang, .fclk, .lfxo, .rtc, .fe, .posts] (among [ANG_STAT, ANG_PERR, ANG_FREQ, ANG_FGOOD, MET_GAPS]) s t

/-- R20, R21, R58, R63, R66, R67, R87, R91, R109, R110, R112, R124: the steps of a program cycle up to Compute. -/
def Obligations.CycleSteps : Prop :=
  ∀ s : State,
    let y := s.sys
    (y.mayStart = true →
      ∃ t, exec .cycleStart s = .next t ∧ t.sys.ang.begun = true
        ∧ t.sys.ang.cycle = (if y.ang.begun then y.ang.cycle + 1 else y.ang.cycle)
        ∧ t.sys.ang.start = (if y.ang.begun then y.ang.start + y.cycleLen else y.ang.start)
        ∧ t.sys.ctx.cycle = t.sys.ang.cycle ∧ t.sys.ctx.time = t.sys.ang.start ∧ t.sys.ctx.first = (!y.ang.begun && y.ang.first)
        ∧ t.sys.ctx.rtcs = t.sys.rtc.sec ∧ t.sys.ctx.rtcf = t.sys.rtc.sub ∧ t.sys.ctx.angs = y.get ANG_STAT_STATE
        ∧ t.sys.col.closed = false ∧ t.sys.col.openCycle = t.sys.ang.cycle ∧ t.sys.vot.voted = false ∧ t.sys.vot.emitted = false
        ∧ (∀ n, n ∉ y.vot.waiting → n ∉ y.vot.shelfQueue → t.sys.laneState n = if n ∈ y.vot.ready then laneVoting else y.laneState n)
        ∧ Keeps [.ang, .col, .ctx, .fclk, .lanes, .lfxo, .posts, .program, .rtc, .upd, .vot]
          (among ([VOT_STAT, UPD_ACYC, CLK_GATE] ++ allLanes.map fun n => VOT_LSTAT n.val)) s t)
    ∧ (y.cycling = true → y.ang.begun = true → y.col.closed = false → y.chg.queue.length ≤ 4096 →
      let k := if y.ctx.first then 0 else y.prog.chgmax
      let closed := if y.col.bankB then 0x20080000 else 0x20000000
      let opened := if y.col.bankB then 0x20000000 else 0x20080000
      ∃ t, exec .collectorClose s = .next t ∧ t.sys.col = { bankB := !y.col.bankB, closed := true, openCycle := y.ang.cycle + 1 }
        ∧ t.sys.chg.batch = y.chg.queue.take k ∧ t.sys.chg.batchCycle = y.ang.cycle ∧ t.sys.chg.queue = y.chg.queue.drop k
        ∧ (∀ i, i < 0x80000 → memByte t.sys.mem (opened + i) = memByte t.sys.mem (closed + i))
        ∧ (∀ n, y.receives n = true → t.sys.chg.batches[n] = t.sys.chg.batch
          ∧ ∀ i, i < 0x80000 → memByte t.sys.mem (laneBase n + 0x280000 + i) = memByte t.sys.mem (closed + i))
        ∧ Keeps [.ang, .chg, .col, .fclk, .fe, .hit, .lfxo, .memory, .posts, .rtc] (among [CYC_CHGST]) s t)
    ∧ (∀ n, y.computes n = true →
      let held := (y.reach (y.ang.start + y.ang.phg)).latchPhg.prog
      ∃ t, exec (.compute n) s = .next t ∧ (t.sys.lane n).computed = true ∧ (t.sys.lane n).rt.fact = held.fact ∧ (t.sys.lane n).rt.ctl = held.ctl
        ∧ t.sys.prog.fact = held.fact ∧ t.sys.prog.ctl = held.ctl ∧ t.sys.ang.cycle = y.ang.cycle
        ∧ ∃ j rest, (t.sys.lane n).jobs = j :: rest ∧ j.kind = 1 ∧ j.cycle = y.ang.cycle ∧ j.ran = true)
    ∧ (y.mayStart = false → exec .cycleStart s = .next s)
    ∧ (y.cycling = false ∨ y.ang.begun = false ∨ y.col.closed = true → exec .collectorClose s = .next s)
    ∧ (∀ n, y.computes n = false → exec (.compute n) s = .next s)

/-- R39, R66, R75, R82 to R90: what the lane manager does for one lane. A lane that runs is in no queue of lanes and is no donor to itself: the
premises that say so rule out states that no run reaches. What a round adds for the donor's hidden parts is open (notes/assumptions/12.md). -/
def Obligations.LaneCommands : Prop :=
  ∀ (s : State) (n : Fin 4),
    let y := s.sys
    let quiet := y.reintegrating = false ∧ y.dramUp = true ∧ y.vot.restart = false ∧ y.vot.shelfQueue = [] ∧ y.vot.waiting = [] ∧ y.rowPending n = false
    let reloads := fun (t : State) (resetting : List (Fin 4)) =>
      t.sys.laneState n = laneReload ∧ t.sys.vot = { y.vot with resetting := resetting } ∧ Keeps [.vot] (among [VOT_LSTAT n.val]) s t
    let left := y.vot.resetting.filter fun m => m != n
    (y.runs n = true → y.domUp 0 = true → (∀ r, y.vot.reint = some r → r.donor = n → r.target ≠ n) → n ∉ y.vot.shelfQueue →
      ∃ t, exec (.laneRemoveCmd n) s = .next t ∧ t.sys.laneState n = laneReset ∧ t.sys.get (VOT_LSTAT_CAUSE n.val) = 6
        ∧ (∃ more, t.sys.posts = y.posts ++ ⟨8, 0x1201, 0, n.val + 256 * 6⟩ :: more)
        ∧ t.sys.get (VOT_LREM_COUNT n.val) = Nat.min (y.get (VOT_LREM_COUNT n.val) + 1) (2 ^ (VOT_LREM_COUNT n.val).width - 1)
        ∧ t.sys.get VOT_STAT_MODE = modeOf (y.voters.filter fun m => m != n).length
        ∧ (t.sys.lane n).jobs = [] ∧ n ∈ t.sys.vot.resetting ∧ (∀ m, m ≠ n → t.sys.lane m = y.lane m)
        ∧ (y.vot.flushDue = false → t.sys.get VOT_STAT_AGREE = y.get VOT_STAT_AGREE
          ∧ Keeps [.posts, .lanes, .vot] (among ([VOT_LREM n.val, VOT_STAT, CLK_GATE] ++ allLanes.map fun m => VOT_LSTAT m.val)) s t))
    ∧ (y.runs n = false → exec (.laneRemoveCmd n) s = .next { s with sys := y.note 0x120E })
    ∧ (y.laneState n = laneReset → y.dramUp = true → y.vot.restart = false → n ∉ y.vot.shelfQueue →
      (∃ t, exec (.laneRejoinCmd n) s = .next t ∧ (t.sys.laneState n = laneReload ∨ (t.sys.laneState n = laneReset ∧ n ∈ t.sys.vot.waiting)))
      ∧ (quiet → n ∉ y.vot.resetting → ∃ t, exec (.laneRejoinCmd n) s = .next t ∧ reloads t y.vot.resetting)
      ∧ (y.reintegrating = true ∨ (n ∈ y.vot.resetting ∧ y.vot.shelfQueue = [] ∧ y.vot.waiting = []) → n ∉ y.vot.waiting →
        exec (.laneRejoinCmd n) s = .next { s with sys := { y with vot := { y.vot with waiting := y.vot.waiting ++ [n] } } }))
    ∧ (y.laneState n = laneReset → y.dramUp = false ∨ y.vot.restart = true → exec (.laneRejoinCmd n) s = .next s)
    ∧ (y.laneState n ≠ laneReset → exec (.laneRejoinCmd n) s = .next { s with sys := y.note 0x120E })
    ∧ (y.laneState n = laneReset → n ∈ y.vot.resetting → y.domUp (2 + n.val) = true →
      (∃ t, exec (.laneResetEnd n) s = .next t ∧ t.sys.vot.resetting = left)
      ∧ (quiet → y.on VOT_CTL_AUTO = true → ∃ t, exec (.laneResetEnd n) s = .next t ∧ reloads t left)
      ∧ (y.on VOT_CTL_AUTO = false → y.reintegrating = true ∨ (y.vot.shelfQueue = [] ∧ y.vot.waiting = []) →
        exec (.laneResetEnd n) s = .next { s with sys := { y with vot := { y.vot with resetting := left } } }))
    ∧ (y.laneState n = laneReload →
      (∀ d, y.dramUp = true → y.donorOf = some d → y.domUp 0 = true →
        let rt := y.sourcePart partRuntime
        let lg := y.sourcePart partLogic
        ∃ t, exec (.reloadComplete n) s = .next t ∧ t.sys.laneState n = lanePrecopy ∧ t.sys.get (VOT_LSTAT_ROUND n.val) = 1 ∧ t.sys.get (VOT_LSTAT_DONOR d.val) = 1
          ∧ t.sys.vot.reint = some ⟨n, d, 1, [], [], false, false, false⟩ ∧ t.sys.posts = y.posts ++ [⟨8, 0x1202, 0, n.val + 256 * d.val⟩]
          ∧ (∀ a, a < laneBase n ∨ laneBase n + 0x800000 ≤ a → memByte t.sys.mem a = memByte y.mem a)
          ∧ (∀ i, i < Nat.min rt.2 0x80000 → memByte t.sys.mem (laneBase n + i) = memByte y.mem (rt.1 + i))
          ∧ (∀ i, i < Nat.min lg.2 0x100000 → memByte t.sys.mem (laneBase n + 0x80000 + i) = memByte y.mem (lg.1 + i))
          ∧ (∀ off, 0x180000 ≤ off → off < 0x800000 → memByte t.sys.mem (laneBase n + off) = 0)
          ∧ Keeps [.memory, .vot, .posts] (among [VOT_LSTAT n.val, VOT_LSTAT d.val]) s t)
      ∧ (y.dramUp = true → y.donorOf = none → ∃ t, exec (.reloadComplete n) s = .next t ∧ t.sys.vot.restart = true)
      ∧ (y.dramUp = false → n ∉ y.vot.shelfQueue → ∃ t, exec (.reloadComplete n) s = .next t ∧ t.sys.laneState n = laneReset ∧ t.sys.mem = y.mem))
    ∧ (∀ r : Reintegration, y.vot.reint = some r → r.target = n →
      (y.laneState n = lanePrecopy →
        ∃ t k, exec (.copyRoundEnd n) s = .next t ∧ t.sys.get (VOT_LDIRTY_COUNT n.val) = k ∧ Nat.min r.dirty.length 174080 ≤ k ∧ k ≤ 174080
          ∧ (r.hidden = false → k = Nat.min r.dirty.length 174080)
          ∧ (k ≤ y.get VOT_RCFG_FINMAX ∨ r.round = y.get VOT_RCFG_ROUNDS → t.sys.laneState n = laneFinal
            ∧ t.sys.vot.reint = some { r with captured := r.dirty, dirty := [], mirror := true, hidden := false })
          ∧ (¬ (k ≤ y.get VOT_RCFG_FINMAX ∨ r.round = y.get VOT_RCFG_ROUNDS) → t.sys.laneState n = lanePrecopy
            ∧ t.sys.vot.reint = some { r with round := r.round + 1, captured := r.dirty, dirty := [], hidden := false })
          ∧ (r.round = 1 → ∀ off, inStateRegion off = true → memByte t.sys.mem (laneBase n + off) = memByte y.mem (laneBase r.donor + off))
          ∧ (r.round ≠ 1 → (∀ g ∈ r.captured, g < 0x40000) → ∀ g ∈ r.captured, ∀ i, i < 32 →
            memByte t.sys.mem (laneBase n + 32 * g + i) = memByte y.mem (laneBase r.donor + 32 * g + i))
          ∧ Keeps [.memory, .vot, .draws] (among [VOT_LSTAT n.val, VOT_LDIRTY n.val]) s t)
      ∧ (y.laneState n = laneFinal →
        ∃ t, exec (.finalRoundEnd n) s = .next t ∧ t.sys.vot.reint = some { r with captured := [], finalDone := true }
          ∧ ((∀ g ∈ r.captured, g < 0x40000) → ∀ g ∈ r.captured, ∀ i, i < 32 →
            memByte t.sys.mem (laneBase n + 32 * g + i) = memByte y.mem (laneBase r.donor + 32 * g + i))
          ∧ Keeps [.memory, .vot] (fun _ => false) s t))
    ∧ (∀ j rest, (y.lane n).jobs = j :: rest → y.runs n = true → j.ran = true →
      (j.kind = 1 → ∃ t, exec (.llpDone n) s = .next t
        ∧ t.sys.lane n = { y.lane n with jobs := rest, done := true, doneCycle := some j.cycle, doneAt := y.ang.time }
        ∧ t.sys.lastDigest n = y.digest n ∧ Keeps [.lanes] (among [VOT_LDIGL n.val, VOT_LDIGH n.val]) s t)
      ∧ (j.kind = 2 → (∀ r, y.vot.reint = some r → r.donor = n → r.finalDone = true → y.inSpan (y.lane n) = false) →
        exec (.llpDone n) s = .next { s with sys := y.modLane n fun l => { l with jobs := rest } })
      ∧ (∀ r c, j.kind = 2 → y.vot.reint = some r → r.donor = n → r.finalDone = true → (y.lane n).doneCycle = some c → y.inSpan (y.lane n) = true →
        ∃ t, exec (.llpDone n) s = .next t ∧ t.sys.laneState r.target = laneShadow ∧ (t.sys.lane r.target).fromCycle = c + 1 ∧ t.sys.vot.reint = none
          ∧ t.sys.get (VOT_LSTAT_DONOR n.val) = 0 ∧ Keeps [.lanes, .vot] (among [VOT_LSTAT n.val, VOT_LSTAT r.target.val]) s t)
      ∧ (j.kind ≠ 1 → j.kind ≠ 2 → y.vot.flushDue = false →
        exec (.llpDone n) s = .next { s with sys := y.modLane n fun l => { l with jobs := rest, flushed := true } }))
    ∧ (y.laneState n ≠ laneReset ∨ n ∉ y.vot.resetting ∨ y.domUp (2 + n.val) = false → exec (.laneResetEnd n) s = .next s)
    ∧ (y.laneState n ≠ laneReload → exec (.reloadComplete n) s = .next s)
    ∧ ((∀ r, y.vot.reint = some r → r.target ≠ n) ∨ y.laneState n ≠ lanePrecopy → exec (.copyRoundEnd n) s = .next s)
    ∧ ((∀ r, y.vot.reint = some r → r.target ≠ n) ∨ y.laneState n ≠ laneFinal → exec (.finalRoundEnd n) s = .next s)
    ∧ (y.runs n = false ∨ (∀ j rest, (y.lane n).jobs = j :: rest → j.ran = false) → exec (.llpDone n) s = .next s)

/-- R71, R74, R77 to R79, R85, R96 to R100, R389, R455, R456: the vote, the cuff and the restart. `v` is the part at PHC, where the exchange's
second queues have been aborted (R300). That AGREE and VOT_VCYCL stay without a lane is the model's reading (notes/assumptions/125.md). -/
def Obligations.VoteAndEmit : Prop :=
  ∀ s : State,
    let y := s.sys
    let v := (y.reach (y.ang.start + y.ang.phc)).abortHitil true
    let due := y.cycling = true ∧ y.ang.begun = true ∧ y.vot.emitted = false ∧ y.col.closed = true
    let ontime := ∀ n, v.runs n = true → v.inTime n = true
    let rs := regionsOf v.ang.cycle
    let still := v.vot.flushDue = false ∨ ∀ n, v.laneState n ≠ laneShadow
    (due → y.vot.voted = false →
      ∃ t, exec .vote s = .next t ∧ t.sys.vot.voted = true
        ∧ (∀ n, v.runs n = true → v.inTime n = false → t.sys.runs n = false)
        ∧ (ontime →
          (v.voters = [] → t.sys.vot.valid = false ∧ t.sys.get VOT_STAT_AGREE = v.get VOT_STAT_AGREE ∧ t.sys.word VOT_VCYCL = v.word VOT_VCYCL)
          ∧ (v.voters ≠ [] → t.sys.vot.lastCycle = v.ang.cycle ∧ t.sys.word VOT_VCYCL = v.ang.cycle % 2 ^ 32)
          ∧ (∀ n, v.voters = [n] →
            t.sys.vot.valid = v.on VOT_PERMIT_SOLO ∧ t.sys.vot.refused = (!v.on VOT_PERMIT_SOLO) ∧ t.sys.on VOT_STAT_SOLOUSE = v.on VOT_PERMIT_SOLO
              ∧ (v.on VOT_PERMIT_SOLO = true → t.sys.vot.image = (v.publishedPoints n).zip (v.regionWords n 0))
              ∧ (still → t.sys.get VOT_STAT_AGREE = 2 ^ n.val))
          ∧ (∀ a b, v.voters = [a, b] → (∀ k ∈ rs, (v.regionWords a k).length = (v.regionWords b k).length) →
            ((∀ k ∈ rs, v.regionWords a k = v.regionWords b k) →
              t.sys.vot.valid = true ∧ t.sys.vot.image = (v.publishedPoints a).zip (v.regionWords a 0)
                ∧ (still → t.sys.get VOT_STAT_AGREE = 2 ^ a.val + 2 ^ b.val)
                ∧ ((∀ n, v.laneState n ≠ laneShadow) → t.sys.laneState a = laneVoting ∧ t.sys.laneState b = laneVoting))
            ∧ (∀ k, rs.find? (fun k => v.regionWords a k != v.regionWords b k) = some k → v.domUp 0 = true →
              t.sys.vot.valid = false ∧ t.sys.vot.dupRun = v.vot.dupRun + 1 ∧ (∃ p ∈ t.sys.posts, p.code = 0x120A ∧ p.data = k)))
          ∧ (∀ a b c, v.voters.Perm [a, b, c] →
            (∀ k ∈ rs, (v.regionWords a k).length = (v.regionWords b k).length ∧ (v.regionWords a k).length = (v.regionWords c k).length) →
            (∀ k ∈ rs, v.regionWords a k = v.regionWords b k) →
              t.sys.vot.valid = true ∧ t.sys.vot.image = (v.publishedPoints (v.voters.headD 0)).zip (v.regionWords a 0)
              ∧ (∀ k, rs.find? (fun k => v.regionWords c k != v.regionWords a k) = some k → v.domUp 0 = true →
                t.sys.runs c = false ∧ ∃ p ∈ t.sys.posts, p.code = 0x1201 ∧ p.data = c.val + 256 * (k + 1)))))
    ∧ (due → y.pwr.standby ≠ 1 →
      ∃ t, exec .emitStart s = .next t ∧ t.sys.vot.emitted = true
        ∧ (y.vot.voted = true → y.vot.valid = true → t.sys.get VOT_STAT_HOLDCNT = 0
          ∧ t.sys.get VOT_STAT_CUFF =
            (if y.get VOT_STAT_CUFF = cuffReleased ∧ y.vot.validRun + 1 < y.get VOT_CUFF_REARMN then cuffReleased else cuffLive))
        ∧ (y.vot.voted = true → y.vot.valid = false → t.sys.get VOT_STAT_HOLDCNT = Nat.min (y.get VOT_STAT_HOLDCNT + 1) 255
          ∧ (y.vot.refused = true → t.sys.get VOT_STAT_CUFF = cuffReleased)
          ∧ (y.vot.refused = false → y.get VOT_STAT_CUFF = cuffLive ∨ y.get VOT_STAT_CUFF = cuffHolding →
            t.sys.get VOT_STAT_CUFF = (if y.get VOT_CUFF_HOLD ≤ y.get VOT_STAT_HOLDCNT then cuffReleased else cuffHolding))
          ∧ (y.get VOT_STAT_CUFF = cuffReleased → t.sys.get VOT_STAT_CUFF = cuffReleased))
        ∧ (y.vot.voted = false → t.sys.vot.valid = false ∧ t.sys.get VOT_STAT_HOLDCNT = Nat.min (y.get VOT_STAT_HOLDCNT + 1) 255
          ∧ (2 ≤ y.atPhc.voters.length → y.domUp 0 = true → ∃ p ∈ t.sys.posts, p.code = 0x120F)))
    ∧ (due → y.pwr.standby = 1 → ∃ t, exec .emitStart s = .next t ∧ t.sys.vot.emitted = true ∧ t.sys.get VOT_STAT_CUFF = cuffReleased ∧ t.sys.pwr.standby = 3)
    ∧ (¬ due → exec .emitStart s = .next s)
    ∧ (¬ due ∨ y.vot.voted = true → exec .vote s = .next s)
    ∧ (∀ temp, y.pwr.inReset = false → y.clk.planesHeld = false → y.pwr.standby ≠ 3 →
      (y.get MEM_STAT_DRAM ≠ dramFailed →
        ∃ t, exec (.controlPlaneRestart temp) s = .next t ∧ t.sys.vot.restart = false ∧ t.sys.vot.ready = y.liveLanes.take 3 ∧ t.sys.chg.queue = []
          ∧ t.sys.prog.active = true ∧ (∀ n ∈ y.liveLanes.take 3, t.sys.laneState n = laneReset) ∧ (∀ n ∈ y.liveLanes.drop 3, t.sys.laneState n = laneShelved))
      ∧ (y.get MEM_STAT_DRAM = dramFailed → y.pwr.stopped = false → y.domUp 0 = true →
        ∃ t, exec (.controlPlaneRestart temp) s = .next t ∧ t.sys.pwr.stopped = true ∧ t.sys.domUp 1 = false ∧ (∀ n ∈ y.liveLanes, t.sys.domUp (2 + n.val) = false)
          ∧ ∃ p ∈ t.sys.posts, p.code = 0x1215))
    ∧ (∀ temp, y.pwr.inReset = true ∨ y.clk.planesHeld = true ∨ y.pwr.standby = 3 → exec (.controlPlaneRestart temp) s = .next s)

/-- R77, R78: the vote of three lanes over a region. -/
def Obligations.MajorityOfWords : Prop :=
  ∀ (a b c : Fin 4) (xs ys zs : List Nat), a ≠ b → a ≠ c → b ≠ c → xs.length = ys.length → xs.length = zs.length →
    (xs = ys → zs ≠ xs →
      let r := compareRows [(a, xs), (b, ys), (c, zs)]
      let r' := compareRows [(a, xs), (c, zs), (b, ys)]
      let r'' := compareRows [(c, zs), (a, xs), (b, ys)]
      (r.words = xs ∧ r.losers = [c] ∧ r.bad = false) ∧ (r'.words = xs ∧ r'.losers = [c] ∧ r'.bad = false)
        ∧ (r''.words = xs ∧ r''.losers = [c] ∧ r''.bad = false))
    ∧ (xs = ys → ys = zs → (compareRows [(a, xs), (b, ys), (c, zs)]).words = xs ∧ (compareRows [(a, xs), (b, ys), (c, zs)]).losers = [])
    ∧ ((∃ i, ∃ h : i < xs.length, ∃ h' : i < ys.length, ∃ h'' : i < zs.length, xs[i] ≠ ys[i] ∧ xs[i] ≠ zs[i] ∧ ys[i] ≠ zs[i]) →
      (compareRows [(a, xs), (b, ys), (c, zs)]).bad = true)

/-- R74, R118, R122, R123, R129, R193, R194, R226. -/
def Obligations.ChangesAndReports : Prop :=
  ∀ s : State,
    let y := s.sys
    let go := fun (who : Agent) (index kind origin value code seq : Nat) =>
      (¬ (kind = 3 ∧ index ≠ 1 ∧ index ≠ 2) → y.chg.queue.length < 4096 →
        ∃ t, exec (.changeSubmit who) s = .next t ∧ t.sys.chg.queue = y.chg.queue ++ [⟨index, kind, origin, 0, false, y.chg.nextSeq, value⟩]
          ∧ t.sys.chg.nextSeq = y.chg.nextSeq % 0xFFFFFFFF + 1 ∧ t.sys.word code = 0 ∧ t.sys.word seq = y.chg.nextSeq % 2 ^ 32
          ∧ Keeps [.chg] (among [code, seq, CYC_CHGST]) s t)
      ∧ (∀ refusal, (refusal = 0x1308 ∧ kind = 3 ∧ index ≠ 1 ∧ index ≠ 2) ∨ (refusal = 0x1307 ∧ ¬ (kind = 3 ∧ index ≠ 1 ∧ index ≠ 2) ∧ 4096 ≤ y.chg.queue.length) →
        ∃ t, exec (.changeSubmit who) s = .next t ∧ t.sys.word code = refusal ∧ Keeps [.posts] (among [code]) s t)
    go .host (y.get CYC_HSUBT_INDEX) (y.get CYC_HSUBT_KIND) 1 (y.word CYC_HSUBL + 2 ^ 32 * y.word CYC_HSUBH) CYC_HSUBR CYC_HSUBS
    ∧ go .mgmt (y.get CYC_MSUBT_INDEX) (y.get CYC_MSUBT_KIND) 2 (y.word CYC_MSUBL + 2 ^ 32 * y.word CYC_MSUBH) CYC_MSUBR CYC_MSUBS
    ∧ (∀ n, y.agreeLane = some n → y.domUp 0 = true →
      (y.vot.refusedDue = true →
        exec .refusedEntryReport s = .next { s with sys := { y with
          posts := y.posts ++ ((y.chg.batches[n]).filter fun c => c.refused).map fun c => ⟨8, 0x1306, c.locker, pack [(c.index, 4), (c.kind, 1), (c.locker, 2)]⟩
          vot := { y.vot with refusedDue := false } } })
      ∧ (y.vot.metersDue = true →
        let lost := (y.lane n).dp.snapLost
        exec .meterEventReport s = .next { s with sys := { y with
          posts := y.posts ++ ((y.lane n).dp.snapEvents.map fun e => ⟨8, e.code, 0, e.data⟩) ++ (if lost = 0 then [] else [⟨8, 0x1114, 0, pack [count32 lost]⟩])
          vot := { y.vot with metersDue := false } } })
      ∧ (y.vot.loopsDue = true →
        let lost := (y.lane n).loopLost
        let wanted := (y.lane n).loopEvents.filter fun e => (e.code != 0x1406 || y.on LOOP_CTL_EVMODE) && (e.code != 0x1407 || y.on LOOP_CTL_EVREG)
        ∃ t, exec .loopEventReport s = .next t ∧ t.sys.vot = { y.vot with loopsDue := false }
          ∧ t.sys.posts = y.posts ++ (wanted.map fun e => ⟨8, e.code, y.pointLocker (y.loopPar n e.slot).outPoint, e.data⟩)
            ++ (if lost = 0 then [] else [⟨8, 0x1409, 0, pack [count32 lost]⟩])
          ∧ (lost ≠ 0 → t.sys.get LOOP_EVLOST_COUNT = Nat.min (y.get LOOP_EVLOST_COUNT + lost) (2 ^ LOOP_EVLOST_COUNT.width - 1))
          ∧ Keeps [.posts, .vot] (among [LOOP_EVLOST]) s t))
    ∧ (y.agreeLane = none → exec .refusedEntryReport s = .next s ∧ exec .meterEventReport s = .next s ∧ exec .loopEventReport s = .next s)
    ∧ (y.vot.refusedDue = false → exec .refusedEntryReport s = .next s)
    ∧ (y.vot.metersDue = false → exec .meterEventReport s = .next s)
    ∧ (y.vot.loopsDue = false → exec .loopEventReport s = .next s)
    ∧ (∀ n, y.prog.snapCycle = none → ∀ complete, exec (.retentiveSave n complete) s = .next s)
    ∧ (∀ n, y.votes n = false → exec (.retentiveSave n true) s = .next s)
    ∧ (∀ n c, y.prog.snapCycle = some c →
      (y.domUp 0 = true → ∃ t, exec (.retentiveSave n false) s = .next t ∧ t.sys.posts = y.posts ++ [⟨8, 0x1309, 0, 0⟩] ∧ t.sys.prog.snapCycle = none ∧ t.sys.get CYC_RSTAT_SKIPS = Nat.min (y.get CYC_RSTAT_SKIPS + 1) (2 ^ CYC_RSTAT_SKIPS.width - 1)
        ∧ Keeps [.posts, .program] (among [CYC_RSTAT]) s t)
      ∧ (y.votes n = true → retBytes (y.retRanges n) ≤ 0x40000 → y.logic n 0x34 ≤ 256 → ∃ t, exec (.retentiveSave n true) s = .next t ∧ t.sys.prog.snapCycle = none
        ∧ (∀ a, a < 0x30050000 ∨ 0x300D2000 ≤ a → memByte t.sys.mem a = memByte y.mem a)
        ∧ t.sys.rd (loftBase + retSlot (t.sys.get CYC_RSTAT_SLOT) + 0x1C) 4 = 1 ∧ t.sys.rd (loftBase + retSlot (t.sys.get CYC_RSTAT_SLOT) + 8) 8 = c % 2 ^ 64
        ∧ Keeps [.memory, .mi, .posts, .program] (among [CYC_RSTAT]) s t))
    ∧ (∀ who, (∃ t, exec (.cycFltRead who) s = .next t ∧ t.sys.response.value = y.word CYC_FLT ∧ t.sys.word CYC_FLT = 0 ∧ t.sys.word CYC_FLTCY = 0
        ∧ (∀ n, (t.sys.lane n).rt.fltValid = false) ∧ Keeps [.lanes, .response] (among [CYC_FLT, CYC_FLTCY]) s t)
      ∧ (∃ t, exec (.votVcyclRead who) s = .next t ∧ t.sys.response.value = y.word VOT_VCYCL ∧ t.sys.word VOT_VCYCH = y.vot.lastCycle / 2 ^ 32 % 2 ^ 32
        ∧ Keeps [.response] (among [VOT_VCYCH]) s t)
      ∧ (∀ n, y.agreeLane = some n →
        let at_ := fun (i : Nat) => y.lrd n (0x500000 + 8192 * y.get LOOP_TRRD_CH + 2 * (i % 4096)) 2
        ∃ t, exec (.loopTrdatRead who) s = .next t ∧ t.sys.response.value = at_ (y.get LOOP_TRRD_IDX) + 65536 * at_ (y.get LOOP_TRRD_IDX + 1)
          ∧ t.sys.word LOOP_TRDAT = t.sys.response.value
          ∧ t.sys.get LOOP_TRRD_IDX = (y.get LOOP_TRRD_IDX + 2) % 4096 ∧ Keeps [.response] (among [LOOP_TRDAT, LOOP_TRRD]) s t)
      ∧ (y.agreeLane = none → ∃ t, exec (.loopTrdatRead who) s = .next t ∧ t.sys.response.value = 0
          ∧ t.sys.get LOOP_TRRD_IDX = (y.get LOOP_TRRD_IDX + 2) % 4096 ∧ Keeps [.response] (among [LOOP_TRDAT, LOOP_TRRD]) s t))

/-- R23, R66, R68, R196, R197, R200, R222, R229, R233: blocks and the jobs of one lane on them. -/
def Obligations.MeteringBlocks : Prop :=
  ∀ s : State,
    let y := s.sys
    (∀ codes, let z := y.elapse 12500
      let ix := y.fe.bseq % 16
      let a := 0x20180000 + 4096 * ix
      let da := (y.get ANG_FREQ_F * 4096 + 500) / 1000
      let cycle := y.blockCycle (z.ang.time + 15 * da / 2 ^ 16)
      (y.get MET_STAT_FE = feRun → y.on MET_CTL_RUN = true →
        ∃ t, exec (.sampleBlock codes) s = .next t ∧ t.sys.fclk = y.fclk + 200000 ∧ t.sys.word MET_BSEQ = y.fe.bseq % 2 ^ 32
          ∧ t.sys.fe.bseq = (y.fe.bseq + 1) % 2 ^ 32 ∧ t.sys.fe.gap = false ∧ t.sys.fe.trimChg = false ∧ t.sys.fe.lastDA = da
          ∧ t.sys.fe.lastSample = z.ang.time + 15 * da / 2 ^ 16
          ∧ t.sys.rd a 4 = y.fe.bseq % 2 ^ 32 ∧ t.sys.rd (a + 8) 8 = z.ang.time ∧ t.sys.rd (a + 16) 4 = da % 2 ^ 32
          ∧ (∀ n, y.receives n = true → ∀ i, i < 4096 → memByte t.sys.mem (laneBase n + 0x540000 + 4096 * ix + i) = memByte t.sys.mem (a + i))
          ∧ (∀ n, t.sys.lane n = if y.runs n then { y.lane n with jobs := (y.lane n).jobs ++ [⟨2, (y.lane n).jobSeq, cycle, ix, false⟩], jobSeq := ((y.lane n).jobSeq + 1) % 65536 } else y.lane n)
          ∧ Keeps [.ang, .fclk, .lfxo, .rtc, .fe, .memory, .lanes, .posts] (among (MET_BSEQ :: (List.range 24).map MET_IRNG)) s t)
      ∧ (y.get MET_STAT_FE ≠ feRun ∨ y.on MET_CTL_RUN = false → exec (.sampleBlock codes) s = .next { s with sys := z.elapse 187500 }))
    ∧ (∀ n, y.runs n = true →
      let block := fun (j : Job) => laneBase n + 0x540000 + 4096 * j.block
      (∀ j, (y.lane n).jobs.find? (fun j => j.kind == 2 && !j.ran) = some j →
        (y.blockWaits n j = false →
          ∃ t, exec (.blockJob n) s = .next t ∧ (t.sys.lane n).jobs = markRan 2 (y.lane n).jobs ∧ (∀ m, m ≠ n → t.sys.lane m = y.lane m)
            ∧ Keeps [.memory, .lanes, .vot] (fun _ => false) s t
            ∧ ((y.lane n).meterArmed = false → t.sys.mem = y.mem
              ∧ t.sys.lane n = { y.lane n with dp := (y.lane n).dp.block (y.laneMeter n) y.mem (block j), jobs := markRan 2 (y.lane n).jobs }))
        ∧ (y.blockWaits n j = true → exec (.blockJob n) s = .next s))
      ∧ ((∃ j ∈ (y.lane n).jobs, j.kind = 3 ∧ j.ran = false) →
        let c := y.laneMeter n
        ∃ t, exec (.flushJob n) s = .next t ∧ (t.sys.lane n).jobs = markRan 3 ((y.lane n).jobs.filter fun j => j.kind != 2) ∧ (∀ m, m ≠ n → t.sys.lane m = y.lane m)
          ∧ (y.vot.reint = none → (y.lane n).meterArmed = false →
            ∀ a, a < laneBase n + 0x470000 ∨ laneBase n + 0x470000 + max c.demandAt (max c.shareAt c.energyEnd) ≤ a → memByte t.sys.mem a = memByte y.mem a)
          ∧ Keeps [.memory, .lanes, .vot] (fun _ => false) s t))
    ∧ (∀ n, ((y.lane n).meterPending = true →
        ((y.lane n).dp.atBoundary = true →
          ∃ t, exec (.meteringImageSwitch n) s = .next t ∧ (t.sys.lane n).meterPending = false ∧ (t.sys.lane n).jobs = (y.lane n).jobs
            ∧ (∀ m, m ≠ n → t.sys.lane m = y.lane m) ∧ Keeps [.memory, .lanes, .vot] (fun _ => false) s t)
        ∧ ((y.lane n).dp.atBoundary = false →
          exec (.meteringImageSwitch n) s = .next { s with sys := y.modLane n fun l => { l with meterArmed := true } }))
      ∧ ((y.lane n).meterPending = false → exec (.meteringImageSwitch n) s = .next s)
      ∧ (y.runs n = false ∨ (∀ j ∈ (y.lane n).jobs, j.kind = 2 → j.ran = true) → exec (.blockJob n) s = .next s)
      ∧ (y.runs n = false ∨ (∀ j ∈ (y.lane n).jobs, j.kind = 3 → j.ran = true) → exec (.flushJob n) s = .next s))

/-- R52, R55, R79, R203 to R205, R228, R230, R231, R234. Which lane of AGREE serves a save when none of them votes is the model's reading
(notes/assumptions/125.md). -/
def Obligations.MeteringCommands : Prop :=
  ∀ s : State,
    let y := s.sys
    let seq := if y.fe.trimChg then y.get MET_STAT_TRIMSEQ else (y.get MET_STAT_TRIMSEQ + 1) % 256
    let trims := (List.range 78).map MET_TRIM
    let applied := fun (t : State) (cause : Nat) (temp : Int) =>
      (∀ k, k < 78 → t.sys.get (MET_TRIM_T k) = unsint 17 (y.tableTrim k temp)) ∧ t.sys.get MET_STAT_TRIMSEQ = seq ∧ t.sys.get MET_TAPP_CAUSE = cause
        ∧ t.sys.get MET_TAPP_TEMP = unsint 16 temp ∧ t.sys.fe.trimChg = true ∧ t.sys.fe.bandOut = false
        ∧ (y.domUp 0 = true → t.sys.posts = y.posts ++ [⟨8, 0x110A, 0, cause + 256 * unsint 16 temp + 16777216 * seq⟩])
    (∀ k trim, k < 78 → ∃ t, exec (.metTrimWrite k trim) s = .next t ∧ t.sys.get (MET_TRIM_T k) = trim % 2 ^ 17 ∧ t.sys.get MET_STAT_TRIMSEQ = seq
        ∧ t.sys.fe = { y.fe with trimChg := true } ∧ Keeps [.fe] (among [MET_TRIM k, MET_STAT]) s t)
    ∧ (∀ temp, ∃ t, exec (.applyCommand temp) s = .next t ∧ applied t 2 temp ∧ Keeps [.fe, .posts] (among ([MET_STAT, MET_TAPP] ++ trims)) s t)
    ∧ (∀ temp, y.get MET_TAPP_CAUSE ≠ 0 →
      let out := decide (y.get MET_TCFG_DT * 10 < (temp - sint 16 (y.get MET_TAPP_TEMP)).natAbs)
      ∃ t, exec (.temperatureBandCheck temp) s = .next t ∧ t.sys.fe = { y.fe with bandOut := out }
        ∧ (y.domUp 0 = true → t.sys.posts = if out && !y.fe.bandOut then y.posts ++ [⟨8, 0x1109, 0, 0⟩] else y.posts)
        ∧ Keeps [.fe, .posts] (fun _ => false) s t)
    ∧ (∀ temp, y.get MET_TAPP_CAUSE = 0 → exec (.temperatureBandCheck temp) s = .next s)
    ∧ (y.get MET_STAT_FE = feFailed → exec .frontEndFailed s = .next s)
    ∧ (y.get MET_STAT_FE ≠ feFailed → y.domUp 0 = true →
      ∃ t, exec .frontEndFailed s = .next t ∧ t.sys.get MET_STAT_FE = feFailed ∧ t.sys.fe.gap = true
        ∧ t.sys.get MET_GAPS_COUNT = (if y.get MET_STAT_FE = feRun then Nat.min (y.get MET_GAPS_COUNT + 1) 65535 else y.get MET_GAPS_COUNT)
        ∧ (y.get ANG_STAT_STATE = angLocked → t.sys.get ANG_STAT_STATE = angHoldover ∧ t.sys.get ANG_STAT_HCAUSE = 6
          ∧ t.sys.posts = y.posts ++ [⟨8, 0x1101, 0, 0⟩, ⟨8, 0x0407, 0, 0⟩])
        ∧ (y.get ANG_STAT_STATE ≠ angLocked → t.sys.posts = y.posts ++ [⟨8, 0x1101, 0, 0⟩] ∧ t.sys.ang = y.ang ∧ t.sys.reg ANG_STAT = y.reg ANG_STAT)
        ∧ Keeps [.ang, .fe, .posts] (among [ANG_STAT, MET_GAPS, MET_STAT]) s t)
    ∧ (∀ temp, y.get MET_STAT_FE = feFailed →
      (∃ t, exec (.frontEndReset true temp) s = .next t ∧ t.sys.get MET_STAT_FE = feRun ∧ t.sys.on MET_CTL_RUN = true ∧ applied t 3 temp
        ∧ t.sys.fe.gap = true ∧ t.sys.fe.gapCode = 0x1102 ∧ Keeps [.fe, .posts] (among ([MET_CTL, MET_STAT, MET_TAPP] ++ trims)) s t)
      ∧ exec (.frontEndReset false temp) s = .next s)
    ∧ (∀ ok temp, y.get MET_STAT_FE ≠ feFailed → exec (.frontEndReset ok temp) s = .next s)
    ∧ (y.fe.flushing = false →
      (∀ n, y.energyLane = some n → (y.laneMeter n).energyEnd ≤ 0xD000 →
        let slot := if y.energyNewest = some 0 then 1 else 0
        let o := loftBase + energySlot slot
        ∃ t, exec (.energySave true) s = .next t ∧ t.sys.get MET_SSTAT_KIND = 1 ∧ t.sys.get MET_SSTAT_SLOT = slot
          ∧ t.sys.rd (o + 0x2C) 4 = 1 ∧ t.sys.rd (o + 0x18) 4 = 1 ∧ t.sys.rd (o + 4) 4 = (y.laneMeter n).energyEnd ∧ t.sys.rd (o + 8) 8 = (y.lane n).dp.snapCycle % 2 ^ 64
          ∧ t.sys.rd (o + 0x20) 8 = y.fe.lastSample % 2 ^ 64
          ∧ (∀ a, a < o ∨ o + 0x10000 ≤ a → memByte t.sys.mem a = memByte y.mem a)
          ∧ Keeps [.memory, .loft, .mi, .posts] (among [MET_SSTAT, MET_SSEQ]) s t)
      ∧ (∀ complete, complete = false ∨ y.energyLane = none → y.domUp 0 = true →
        ∃ t, exec (.energySave complete) s = .next t ∧ t.sys.get MET_SSTAT_SKIPS = Nat.min (y.get MET_SSTAT_SKIPS + 1) 65535
          ∧ t.sys.posts = y.posts ++ [⟨8, 0x110D, 0, 0⟩] ∧ Keeps [.posts] (among [MET_SSTAT]) s t))
    ∧ (∀ complete, y.fe.flushing = true → exec (.energySave complete) s = .next s)

/-- R246 to R251: the local channels. -/
def Obligations.FabricChannels : Prop :=
  ∀ s : State,
    let y := s.sys
    let clock := [Part.ang, Part.fclk, Part.lfxo, Part.rtc]
    (∀ k level clocks, k < 192 → (y.chan k).level ≠ level →
      ∃ t, exec (.pinEdge k level clocks) s = .next t ∧ (t.sys.chan k).level = level ∧ (t.sys.chan k).since = (y.fclk + clocks + 199) / 200 * 200
        ∧ (t.sys.chan k).stamp = ((y.elapse clocks).elapse ((y.fclk + clocks + 199) / 200 * 200 - (y.fclk + clocks))).ang.time ∧ (∀ j, j ≠ k → t.sys.chan j = y.chan j) ∧ t.sys.fclk = y.fclk + clocks
        ∧ Keeps (clock ++ [.fab, .posts]) (fun _ => false) s t)
    ∧ (∀ k, (y.chan k).level ≠ (y.chan k).accepted → (y.chanRec k).digital = true → y.chanFails k = false →
      ∃ t, exec (.levelAccepted k) s = .next t ∧ (t.sys.chan k).accepted = (y.chan k).level ∧ (t.sys.chan k).lastEdge = (y.chan k).stamp % 2 ^ 32
        ∧ (t.sys.chan k).stuck = false ∧ t.sys.fclk = max y.fclk ((y.chan k).since + 200 * (y.chanRec k).deb) ∧ (∀ j, j ≠ k → t.sys.chan j = y.chan j)
        ∧ Keeps (clock ++ [.fab, .posts]) (fun _ => false) s t)
    ∧ (∀ k, (y.chanRec k).func = 1 ∨ (y.chanRec k).func = 3 → (y.chanRec k).tout ≠ 0 → (y.chanRec k).tout ≤ (y.chan k).quiet → (y.chan k).stuck = false → y.domUp 0 = true →
      ∃ t, exec (.stuckTimeout k) s = .next t ∧ t.sys.chan k = { y.chan k with stuck := true } ∧ (∀ j, j ≠ k → t.sys.chan j = y.chan j)
        ∧ t.sys.posts = y.posts ++ [⟨8, 0x1007, y.pointLocker (y.chanRec k).point, k % 256⟩] ∧ Keeps [.fab, .posts] (fun _ => false) s t)
    ∧ (∀ k d, (y.chan k).pwmNext = some d →
      exec (.pwmPeriodBoundary k) s = .next { s with sys := y.setChan k { y.chan k with value := d, pwmNext := none } })
    ∧ (∀ k w, (y.chan k).pending = some w → w.angle ≤ (y.reach w.angle).ang.time →
      let c := { y.chan k with pending := none, state := w.dest, driven := true, switchTime := w.angle % 2 ^ 32 }
      exec (.timedSwitch k) s = .next { s with sys := (y.reach w.angle).setChan k c })
    ∧ (∀ convs, y.angleComes (structSample y.image) = true → let z := y.reachAngle (structSample y.image)
      ∃ t, exec (.channelSample convs) s = .next t
        ∧ (∀ k, k < 192 → y.chanFails k = false → y.get FAB_STAT_STATE = fabRun ∨ y.get FAB_STAT_STATE = fabReload →
          ((y.chanRec k).func = 1 → (y.chan k).due (y.chanRec k) z.fclk = false →
            let v := if (y.chan k).chatter then (y.chan k).held else if (y.chanRec k).high (y.chan k).accepted then 1 else 0
            (t.sys.chan k).value = v ∧ (t.sys.chan k).init = false
              ∧ (t.sys.chan k).qual = (if (y.chan k).stuck then qStuck else 0) + (if (y.chan k).chatter then qChatter else 0)
              ∧ ((∀ j, j < 192 → j ≠ k → (y.chanRec j).point ≠ (y.chanRec k).point) → (∀ j, j < 192 → (y.chanRec j).auxpt ≠ (y.chanRec k).point) →
                (∀ r ∈ lineRecs y.image, r.rsppt ≠ (y.chanRec k).point) → t.sys.rd (y.openBank + 4 * (y.chanRec k).point) 4 = v % 2 ^ 32))
          ∧ ((y.chanRec k).func = 3 → (∀ x ∈ convs, x.1 ≠ k) →
            let n := 2 ^ bits (y.chanRec k).p2 16 3
            n ≤ (y.chan k).conversions.length → (t.sys.chan k).value = ((y.chan k).conversions.take n).foldl (· + ·) 0 / n ∧ (t.sys.chan k).init = false))
        ∧ (∀ k, k < 192 → (y.chanRec k).func ≠ 0 → y.chanFails k = true →
          (t.sys.chan k).value = (y.chan k).value ∧ (t.sys.chan k).qual = qBad + qFailed + (if (y.chan k).init then qInit else 0))
        ∧ Keeps (clock ++ [.fab, .posts, .memory, .draws]) (among ((List.range 16).map FAB_DLSTAT)) s t)
    ∧ (y.angleComes (structSample y.image) = false → ∀ convs, exec (.channelSample convs) s = .next s)
    ∧ (∀ angle, y.angleComes angle = false → exec (.outputApply angle) s = .next s)
    ∧ (∀ angle, y.angleComes angle = true → let z := y.reachAngle angle
      ∃ t, exec (.outputApply angle) s = .next t
      ∧ (∀ k, k < 192 → y.applyAngle (y.chanRec k) = angle → y.mayDrive k = true → y.wordLost (y.chanRec k).point = false →
        let w := y.stageWord (y.chanRec k).point
        let c := y.chan k
        ((y.chanRec k).func = 2 → t.sys.chan k = { c with driven := true, value := w })
        ∧ ((y.chanRec k).func = 4 → t.sys.chan k = { c with driven := true, value := dacCode w, dac := dacCode w / 16 })
        ∧ ((y.chanRec k).func = 6 → t.sys.chan k = if c.driven then { c with pwmNext := some (pwmDuty w) } else { c with driven := true, value := pwmDuty w })
        ∧ ((y.chanRec k).func = 9 → t.sys.chan k = Channel.takeSwitch (bits (y.chanRec k).p1 0 16) z.ang.time w c))
      ∧ (∀ k, y.applyAngle (y.chanRec k) ≠ angle → t.sys.chan k = y.chan k)
      ∧ (angle ≠ structApply y.image → Keeps (clock ++ [.fab, .posts]) (among ((List.range 16).map FAB_DLSTAT)) s t))
    ∧ (∀ k level clocks, 192 ≤ k ∨ (y.chan k).level = level →
      ∃ t, exec (.pinEdge k level clocks) s = .next t ∧ (t.sys.chan k).level = (y.chan k).level ∧ (∀ j, j ≠ k → t.sys.chan j = y.chan j)
        ∧ t.sys.fclk = y.fclk + clocks ∧ Keeps (clock ++ [.fab, .posts]) (fun _ => false) s t)
    ∧ (∀ k, (y.chan k).level = (y.chan k).accepted ∨ (y.chanRec k).digital = false ∨ y.chanFails k = true →
      ∃ t, exec (.levelAccepted k) s = .next t ∧ (t.sys.chan k).accepted = (y.chan k).accepted ∧ (∀ j, j ≠ k → t.sys.chan j = y.chan j)
        ∧ Keeps (clock ++ [.fab, .posts]) (fun _ => false) s t)
    ∧ (∀ k, ¬ ((y.chanRec k).func = 1 ∨ (y.chanRec k).func = 3) ∨ (y.chanRec k).tout = 0 ∨ (y.chan k).quiet < (y.chanRec k).tout ∨ (y.chan k).stuck = true →
      exec (.stuckTimeout k) s = .next s)
    ∧ (∀ k, (y.chan k).pwmNext = none → ∃ t, exec (.pwmPeriodBoundary k) s = .next t ∧ (∀ j, t.sys.chan j = y.chan j) ∧ Keeps [.fab] (fun _ => false) s t)
    ∧ (∀ k, (y.chan k).pending = none → exec (.timedSwitch k) s = .next s)
    ∧ (∀ k w, (y.chan k).pending = some w → (y.reach w.angle).ang.time < w.angle →
      ∃ t, exec (.timedSwitch k) s = .next t ∧ (∀ j, t.sys.chan j = y.chan j) ∧ Keeps (clock ++ [.fab]) (fun _ => false) s t)

/-- R254 to R256: the commands of one DALI line. -/
def Obligations.DaliFrames : Prop :=
  ∀ (s : State) (l : Fin 16),
    let y := s.sys
    let d := y.dali l.val
    let locker := match lineRec y.image l.val with
      | some r => y.pointLocker r.cmdpt
      | none => 0
    let gives := fun (c : Instr) (d' : DaliLine) => ∃ t, exec c s = .next t ∧ t.sys.dali l.val = d' ∧ (∀ m, m ≠ l.val → t.sys.dali m = y.dali m)
      ∧ t.sys.fab.channels = y.fab.channels ∧ t.sys.get (FAB_DLSTAT_QFILL l.val) = d'.queue.length % 16
      ∧ ((lineRec y.image l.val).isSome = true → t.sys.get (FAB_DLSTAT_STATE l.val) = if d'.failed then 3 else if d'.sending.isSome then 2 else 1)
      ∧ Keeps [.fab] (among [FAB_DLSTAT l.val]) s t
    let stays := fun (c : Instr) => ∃ t, exec c s = .next t ∧ (∀ m, t.sys.dali m = y.dali m) ∧ t.sys.fab.channels = y.fab.channels
      ∧ Keeps [.fab] (among [FAB_DLSTAT l.val]) s t
    let ended := fun (seq v : Nat) =>
      { d with completed := (d.completed + 1) % 65536, response := v + seq * 2 ^ 12 + (d.completed + 1) % 65536 * 2 ^ 16,
               sending := none, onBus := false, attempts := 0, copy := 0, answering := false, retrying := false }
    (∀ r f rest, lineRec y.image l.val = some r → y.mayDrive r.tx = true → d.failed = false → d.sending = none → d.queue = f :: rest →
      gives (.daliFrameSend l) { d with queue := rest, sending := some f, onBus := true, attempts := 0, copy := 1 })
    ∧ (∀ r f, lineRec y.image l.val = some r → y.mayDrive r.tx = true → d.failed = false → d.sending = some f → d.copy = 2 → d.onBus = false →
      d.retrying = false → gives (.daliFrameSend l) { d with onBus := true })
    ∧ (∀ f, d.sending = some f → d.onBus = true →
      (f.form ≤ 1 → gives (.daliForwardFrameEnd l) { d with onBus := false, answering := true })
      ∧ (f.form = 2 → d.copy = 1 → gives (.daliForwardFrameEnd l) { d with onBus := false, copy := 2 })
      ∧ (2 < f.form ∨ (f.form = 2 ∧ d.copy ≠ 1) → gives (.daliForwardFrameEnd l) (ended f.seq 0))
      ∧ (d.attempts < 2 → gives (.daliCollision l) { d with onBus := false, attempts := d.attempts + 1, retrying := true })
      ∧ (2 ≤ d.attempts → y.domUp 0 = true → ∃ t, exec (.daliCollision l) s = .next t ∧ t.sys.dali l.val = ended f.seq daliFail
        ∧ t.sys.get (FAB_DLSTAT_FAILS l.val) = Nat.min (y.get (FAB_DLSTAT_FAILS l.val) + 1) 255
        ∧ t.sys.posts = y.posts ++ [⟨8, 0x1011, locker, l.val + 256 * (f.seq % 256)⟩] ∧ (∀ m, m ≠ l.val → t.sys.dali m = y.dali m)
        ∧ Keeps [.fab, .posts] (among [FAB_DLSTAT l.val]) s t))
    ∧ (d.retrying = true → gives (.daliRetry l) { d with retrying := false, onBus := true })
    ∧ (∀ f, d.sending = some f → d.answering = true →
      gives (.daliAnswerWindowClose l) (ended f.seq daliNoAns)
      ∧ ∀ data, gives (.daliBackwardFrame l data true) (ended f.seq daliErr) ∧ gives (.daliBackwardFrame l data false) (ended f.seq (data % 256 + daliAns)))
    ∧ (y.domUp 0 = true →
      ∀ r, lineRec y.image l.val = some r →
      let since := (y.chan r.rx).since
      let clock := [Part.ang, Part.fclk, Part.lfxo, Part.rtc]
      (d.failed = false → y.busHigh r = false →
        ∃ t, exec (.daliLineFailed l) s = .next t ∧ (t.sys.dali l.val).failed = true ∧ (t.sys.dali l.val).queue = [] ∧ (t.sys.dali l.val).sending = none
          ∧ t.sys.get (FAB_DLSTAT_STATE l.val) = 3 ∧ t.sys.posts = y.posts ++ [⟨8, 0x100E, locker, l.val⟩] ∧ t.sys.fclk = max y.fclk (since + 100000000)
          ∧ (∀ m, m ≠ l.val → t.sys.dali m = y.dali m) ∧ Keeps (clock ++ [.fab, .posts]) (among [FAB_DLSTAT l.val]) s t)
      ∧ (d.failed = true → y.busHigh r = true →
        ∃ t, exec (.daliLineRestored l) s = .next t ∧ t.sys.dali l.val = { d with failed := false } ∧ t.sys.posts = y.posts ++ [⟨8, 0x100F, locker, l.val⟩]
          ∧ t.sys.fclk = max y.fclk (since + 20000000)
          ∧ (∀ m, m ≠ l.val → t.sys.dali m = y.dali m) ∧ Keeps (clock ++ [.fab, .posts]) (among [FAB_DLSTAT l.val]) s t)
      ∧ (d.failed = true ∨ y.busHigh r = true → exec (.daliLineFailed l) s = .next s)
      ∧ (d.failed = false ∨ y.busHigh r = false → exec (.daliLineRestored l) s = .next s))
    ∧ (lineRec y.image l.val = none → exec (.daliFrameSend l) s = .next s ∧ exec (.daliLineFailed l) s = .next s ∧ exec (.daliLineRestored l) s = .next s)
    ∧ (d.failed = true ∨ (d.sending = none ∧ d.queue = []) ∨ (d.sending.isSome = true ∧ ¬ (d.copy = 2 ∧ d.onBus = false ∧ d.retrying = false))
        ∨ (∀ r, lineRec y.image l.val = some r → y.mayDrive r.tx = false) → stays (.daliFrameSend l))
    ∧ (d.sending = none ∨ d.onBus = false → stays (.daliForwardFrameEnd l) ∧ exec (.daliCollision l) s = .next s)
    ∧ (d.retrying = false → stays (.daliRetry l))
    ∧ (d.sending = none ∨ d.answering = false → stays (.daliAnswerWindowClose l) ∧ ∀ data bad, stays (.daliBackwardFrame l data bad))

/-- R259 to R263. -/
def Obligations.FabricFailures : Prop :=
  ∀ s : State,
    let y := s.sys
    let lines := (List.range 16).map FAB_DLSTAT
    (∀ corrected,
      (∃ t, exec (.fabricScrubWord corrected false) s = .next t ∧ t.sys.fab = { y.fab with scrubAt := if y.fab.scrubAt = 16383 then 0 else y.fab.scrubAt + 1 }
        ∧ t.sys.get FAB_SCRUB_PASSES = (if y.fab.scrubAt = 16383 then (y.get FAB_SCRUB_PASSES + 1) % 65536 else y.get FAB_SCRUB_PASSES)
        ∧ t.sys.get FAB_SCRUB_CORR = (if corrected then Nat.min (y.get FAB_SCRUB_CORR + 1) 65535 else y.get FAB_SCRUB_CORR)
        ∧ Keeps [.fab] (among [FAB_SCRUB]) s t)
      ∧ (let r := Config.freeValue y.draws % 201
        ∃ t, exec (.fabricScrubWord corrected true) s = .next t ∧ t.sys.draws = y.draws + 1
          ∧ (∀ k, r = k + 1 → k < 192 → (t.sys.chan k).cellFailed = true)
          ∧ (r = 0 → y.get FAB_STAT_STATE ≠ fabOff → t.sys.get FAB_STAT_STATE = fabFailed ∨ t.sys.get FAB_STAT_STATE = fabReload)
          ∧ Keeps [.draws, .fab, .loft, .posts] (among ([FAB_SCRUB, FAB_STAT] ++ (List.range 4).map FAB_SPMAP ++ lines)) s t))
    ∧ (∀ k cause, k < 192 → (y.chan k).cellFailed = false → y.domUp 0 = true →
      ∃ t, exec (.cellFailed k cause) s = .next t ∧ t.sys.chan k = { (y.chan k).release with cellFailed := true } ∧ (∀ j, j ≠ k → t.sys.chan j = y.chan j)
        ∧ k ∈ t.sys.loft.failedCells
        ∧ (let p : Post := ⟨8, 0x1004, y.pointLocker (y.chanRec k).point, k + 256 * (cause % 256)⟩
          (y.freeSpare = none → t.sys.posts = y.posts ++ [p, ⟨8, 0x1006, y.pointLocker (y.chanRec k).point, k⟩])
          ∧ (y.freeSpare ≠ none → t.sys.posts = y.posts ++ [p] ∧ k ∈ t.sys.fab.wait))
        ∧ Keeps [.fab, .loft, .posts] (among lines) s t)
    ∧ (∀ j k cause, j < 8 → y.spareUsed j = true → y.spareUc j = k → k ≠ 0xFF →
      ∃ t, exec (.cellFailed (192 + j) cause) s = .next t ∧ t.sys.spareUc j = 0xFF ∧ t.sys.spareUsed j = true ∧ (t.sys.chan k).spare = none ∧ (t.sys.chan k).driven = false
        ∧ 192 + j ∈ t.sys.loft.failedCells ∧ Keeps [.fab, .loft, .posts] (among ([FAB_STAT] ++ (List.range 4).map FAB_SPMAP ++ lines)) s t)
    ∧ (∀ j cause, j < 8 → y.spareUsed j = false →
      ∃ t, exec (.cellFailed (192 + j) cause) s = .next t ∧ t.sys.spareUc j = 0xFF ∧ t.sys.spareUsed j = true ∧ 192 + j ∈ t.sys.loft.failedCells
        ∧ t.sys.fab.channels = y.fab.channels ∧ Keeps [.fab, .loft, .posts] (among ([FAB_STAT] ++ (List.range 4).map FAB_SPMAP)) s t)
    ∧ (∀ j k, y.freeSpare = some j → k ∈ y.fab.wait → k < 256 → y.on FAB_CTL_SPAREN = true → y.dramUp = true → y.domUp 0 = true →
      ∃ t, exec (.spareCellIn k) s = .next t ∧ t.sys.spareUsed j = true ∧ t.sys.spareUc j = k ∧ (t.sys.chan k).spare = some j ∧ (t.sys.chan k).init = true
        ∧ (∀ i, i ≠ k → t.sys.chan i = y.chan i)
        ∧ (let rest := y.fab.wait.filter fun m => m != k
          let more : Bool := (List.range 8).any fun i => i != j && !y.spareUsed i
          t.sys.fab.wait = (if more then rest else [])
            ∧ t.sys.posts = y.posts ++ ⟨8, 0x1005, y.pointLocker (y.chanRec k).point, k + 256 * j⟩ ::
              (if more then [] else rest.map fun m => ⟨8, 0x1006, y.pointLocker (y.chanRec m).point, m % 256⟩))
        ∧ Keeps [.fab, .loft, .posts] (among ([FAB_STAT] ++ (List.range 4).map FAB_SPMAP)) s t)
    ∧ (y.get FAB_STAT_STATE ≠ fabFailed → y.domUp 0 = true →
      ∃ t, exec .fabricFailed s = .next t ∧ t.sys.get FAB_STAT_STATE = fabFailed ∧ (∀ k, k < 192 → t.sys.chan k = (y.chan k).release)
        ∧ t.sys.posts = y.posts ++ [⟨8, 0x1001, 0, 0⟩] ∧ Keeps [.fab, .posts] (among (FAB_STAT :: lines)) s t)
    ∧ (y.get FAB_STAT_STATE = fabFailed → exec .fabricFailed s = .next s)
    ∧ (∀ ok, y.get FAB_STAT_STATE ≠ fabReload → exec (.globalReloadDone ok) s = .next s)
    ∧ (y.get FAB_STAT_STATE = fabReload →
      (y.dramUp = true → ∃ t, exec (.globalReloadDone true) s = .next t ∧ t.sys.get FAB_STAT_STATE = fabRun ∧ Keeps [] (among [FAB_STAT]) s t)
      ∧ (∀ ok, ok = false ∨ y.dramUp = false → ∃ t, exec (.globalReloadDone ok) s = .next t ∧ t.sys.get FAB_STAT_STATE = fabFailed ∧ Keeps [.fab, .posts] (among (FAB_STAT :: lines)) s t))
    ∧ (∀ (b : Fin 6) mv, bankVio y.image b.val ≠ 0 → y.domUp 0 = true →
      (bankClass mv ≠ bankVio y.image b.val → y.bit FAB_BANK_BFAIL b.val = false →
        ∃ t, exec (.bankSupplyLost b mv) s = .next t ∧ t.sys.bit FAB_BANK_BFAIL b.val = true ∧ t.sys.get (bankField b.val) = bankClass mv
          ∧ (∀ k, k / 32 = b.val → t.sys.chan k = (y.chan k).release) ∧ (∀ k, k / 32 ≠ b.val → t.sys.chan k = y.chan k)
          ∧ t.sys.posts = y.posts ++ [⟨8, 0x100C, 0, b.val⟩] ∧ Keeps [.fab, .posts] (among (FAB_BANK :: lines)) s t)
      ∧ (bankClass mv = bankVio y.image b.val → y.bit FAB_BANK_BFAIL b.val = true →
        ∃ t, exec (.bankSupplyRestored b mv) s = .next t ∧ t.sys.bit FAB_BANK_BFAIL b.val = false ∧ t.sys.get (bankField b.val) = bankClass mv
          ∧ (∀ k, k / 32 = b.val → t.sys.chan k = { y.chan k with init := true, qual := qInit }) ∧ (∀ k, k / 32 ≠ b.val → t.sys.chan k = y.chan k)
          ∧ t.sys.posts = y.posts ++ [⟨8, 0x100D, 0, b.val⟩] ∧ Keeps [.fab, .posts] (among [FAB_BANK]) s t))
    ∧ (∀ (b : Fin 6) mv,
      let shows := fun (c : Instr) => ∃ t, exec c s = .next t ∧ t.sys.get (bankField b.val) = bankClass mv ∧ t.sys.get FAB_BANK_BFAIL = y.get FAB_BANK_BFAIL
        ∧ Keeps [] (among [FAB_BANK]) s t
      (bankVio y.image b.val = 0 ∨ bankClass mv = bankVio y.image b.val ∨ y.bit FAB_BANK_BFAIL b.val = true → shows (.bankSupplyLost b mv))
      ∧ (bankClass mv ≠ bankVio y.image b.val ∨ y.bit FAB_BANK_BFAIL b.val = false → shows (.bankSupplyRestored b mv)))
    ∧ (∀ k cause, (k < 192 ∧ (y.chan k).cellFailed = true) ∨ 200 ≤ k → exec (.cellFailed k cause) s = .next s)
    ∧ (∀ j cause, j < 8 → y.spareUsed j = true → y.spareUc j = 0xFF → exec (.cellFailed (192 + j) cause) s = .next s)
    ∧ (∀ k, y.freeSpare = none ∨ k ∉ y.fab.wait ∨ y.on FAB_CTL_SPAREN = false ∨ y.dramUp = false → exec (.spareCellIn k) s = .next s)

/-- R22, R278, R281, R284, R287 to R289: the commands of the station exchange. The fragments that a station holds carry different indexes, each
at most the words of a fragment: the premises on them rule out states that no run reaches. -/
def Obligations.StationExchange : Prop :=
  ∀ s : State,
    let y := s.sys
    let counts := fun (t : State) (a : Nat) => t.sys.word a = (y.word a + 1) % 2 ^ 32
    (y.on HIT_CTL_RUN = false →
      ∃ t, exec .hitRunSet s = .next t ∧ t.sys.on HIT_CTL_RUN = true ∧ t.sys.hit.epoch = Config.random y.draws % 2 ^ 64 ∧ t.sys.draws = y.draws + 1
        ∧ (∀ i, (t.sys.station i).state = stWaiting) ∧ Keeps [.draws, .hit, .posts] (among [HIT_CTL]) s t)
    ∧ (y.on HIT_CTL_RUN = true → exec .hitRunSet s = .next s)
    ∧ (y.exchanging = false → (∀ f, exec (.hitilInputFrame f) s = .next s) ∧ ∀ f, exec (.joinRequest f) s = .next s)
    ∧ (y.exchanging = true → ∀ f : HitilInput,
      let st := y.station f.station
      let cycle := if f.bus = 8 then f.cycle else y.fullCycle f.cycle
      (stationRec y.image f.station = none ∨ busOf f.station ≠ f.bus ∨ st.state = stWaiting ∨ st.address ≠ some f.source →
        ∃ t, exec (.hitilInputFrame f) s = .next t ∧ counts t HIT_UNKN ∧ Keeps [] (among [HIT_UNKN]) s t)
      ∧ (∀ r, stationRec y.image f.station = some r → busOf f.station = f.bus → st.state ≠ stWaiting → st.address = some f.source →
        (y.tagOk f.bus f.station 3 cycle f.fragment (inputAad f) f.tag = false →
          ∃ t, exec (.hitilInputFrame f) s = .next t ∧ counts t HIT_TAGERR ∧ Keeps [.posts, .limits] (among [HIT_TAGERR]) s t)
        ∧ (y.tagOk f.bus f.station 3 cycle f.fragment (inputAad f) f.tag = true →
          (cycle < y.col.openCycle →
            ∃ t, exec (.hitilInputFrame f) s = .next t ∧ counts t HIT_LATE ∧ t.sys.hit.stations = y.hit.stations ∧ Keeps [.hit, .posts] (among [HIT_LATE]) s t)
          ∧ (y.col.openCycle < cycle ∨ (cycle = y.col.openCycle
              ∧ (y.stationDue r cycle = false ∨ f.ver ≠ 1 ∨ f.len ≠ 4 * f.words.length ∨ y.wordsRight r f = false)) →
            ∃ t, exec (.hitilInputFrame f) s = .next t ∧ counts t HIT_FMTERR ∧ Keeps [] (among [HIT_FMTERR]) s t)
          ∧ (cycle = y.col.openCycle → y.stationDue r cycle = true → f.ver = 1 → f.len = 4 * f.words.length → y.wordsRight r f = true →
            let frags := putKey st.fragments f.fragment (f.flags, f.words)
            let need := if f.bus = 8 then 1 else y.fragCount r.incnt
            let ok := frags.all fun x => x.2.1.testBit 0
            ∃ t, exec (.hitilInputFrame f) s = .next t ∧ (t.sys.station f.station).fragments = frags
              ∧ (frags.length = need → (t.sys.station f.station).setDone = true ∧ (t.sys.station f.station).setOk = ok)
              ∧ (frags.length = need → ok = true → frags.Pairwise (fun a b => a.1 ≠ b.1) → frags.length = 1 ∨ (∀ x ∈ frags, x.2.2.length ≤ y.fragWords) →
                ∀ x ∈ frags, ∀ i (h : i < x.2.2.length), t.sys.rd (y.openBank + 4 * (r.infirst + y.fragWords * x.1 + i)) 4 = x.2.2[i] % 2 ^ 32)
              ∧ (frags.length ≠ need ∨ ok = false → t.sys.mem = y.mem)
              ∧ (∀ i, i ≠ f.station → t.sys.station i = y.station i) ∧ Keeps [.hit, .memory] (fun _ => false) s t))))
    ∧ (y.exchanging = true → ∀ f : JoinInput,
      (f.ver = 1 → f.len = 16 → f.payload.length = 16 →
        (y.joinReason f = 0 →
          ∃ t, exec (.joinRequest f) s = .next t ∧ (t.sys.station f.station).address = some f.source ∧ (t.sys.station f.station).admitAt = some (y.ang.cycle + 1)
            ∧ (t.sys.station f.station).state = (if (y.station f.station).state = stWaiting then stWaiting else stJoining)
            ∧ (∀ i, i ≠ f.station → t.sys.station i = y.station i) ∧ Keeps [.hit] (fun _ => false) s t)
        ∧ (y.joinReason f ≠ 0 →
          let a := if y.joinReason f = 1 ∨ y.joinReason f = 7 then HIT_UNKN else if y.joinReason f = 5 then HIT_TAGERR else HIT_FMTERR
          ∃ t, exec (.joinRequest f) s = .next t ∧ counts t a ∧ Keeps [.posts, .limits] (among [a]) s t))
      ∧ (f.ver ≠ 1 ∨ f.len ≠ 16 ∨ f.payload.length ≠ 16 →
        ∃ t, exec (.joinRequest f) s = .next t ∧ counts t HIT_FMTERR ∧ Keeps [] (among [HIT_FMTERR]) s t))
    ∧ (∀ i,
      let asked := (stationRec y.image i).isSome = true ∧ (y.station i).admitAt = some y.ang.cycle ∧ y.ang.time < y.ang.start + y.ang.phc
        ∧ y.arrives (y.ang.start + y.ang.phg) = true ∧ y.busOpen (busOf i) = true
      (asked → y.domUp 0 = true →
        ∃ t, exec (.admitStation i) s = .next t ∧ (t.sys.station i).state = stJoining ∧ (t.sys.station i).admitAt = none ∧ (t.sys.station i).miss = 0
          ∧ (t.sys.station i).joins = Nat.min ((y.station i).joins + 1) 255
          ∧ (∃ f, t.sys.hit.sent = y.hit.sent ++ [f] ∧ f.bus = busOf i ∧ f.kind = 5 ∧ f.station = i ∧ f.cycle = y.ang.cycle)
          ∧ t.sys.posts = y.posts ++ [⟨8, 0x0F03, 0, i % 65536⟩] ∧ (∀ j, j ≠ i → t.sys.station j = y.station j)
          ∧ Keeps [.ang, .fclk, .lfxo, .rtc, .hit, .can, .posts] (among ((List.range 9).map CAN_STAT ++ (List.range 9).map CAN_TXQ)) s t)
      ∧ (¬ asked → exec (.admitStation i) s = .next s))

/-- R288, R297 to R299, R311: frames of a controller that serves segment 0 to 7, its entries of rings 0 to 2, as in every state that runs reach. -/
def Obligations.CanFrames : Prop :=
  ∀ (s : State) (k : Fin 9),
    let y := s.sys
    let c := y.canAt k
    let seg := y.segOf k
    let own := [CAN_STAT k.val, CAN_TXQ k.val]
    let heads := ((List.range 3).map fun r => DMA_CRHEAD seg r) ++ [DMA_CANINT, PCI_PBA 0]
    let others := fun (t : State) => ∀ j, j ≠ k → t.sys.canAt j = y.canAt j
    let active := y.on (CAN_TXQ_ACTIVE k.val)
    let actq := y.on (CAN_TXQ_ACTQ k.val)
    seg < 8 → (∀ r ∈ c.q0 ++ c.q1 ++ c.aborted, r.source ≤ 2) →
    (∀ q1 r rest, q1 = !c.q1.isEmpty → c.queue q1 = r :: rest → y.maySend k = true →
      (r.source = 0 ∨ r.refused (y.get (CAN_RATE_DRATE k.val)) = false →
        ∃ t, exec (.canTransmitAttempt k) s = .next t ∧ t.sys.on (CAN_TXQ_ACTIVE k.val) = true ∧ t.sys.on (CAN_TXQ_ACTQ k.val) = q1
          ∧ t.sys.canAt k = c.withQueue q1 ({ r with att := Nat.min (r.att + 1) 65535, time := y.ang.time } :: rest) ∧ others t
          ∧ Keeps [.can] (among own) s t)
      ∧ (r.source ≠ 0 → r.refused (y.get (CAN_RATE_DRATE k.val)) = true → rest = [] → c.queue (!q1) = [] →
        ∃ t, exec (.canTransmitAttempt k) s = .next t ∧ t.sys.on (CAN_TXQ_ACTIVE k.val) = false ∧ (t.sys.canAt k).q0 = [] ∧ (t.sys.canAt k).q1 = []
          ∧ t.sys.get (DMA_CRHEAD_HEAD seg r.source) = (r.slot + 1) % y.ringSize seg r.source % 4096 ∧ others t
          ∧ Keeps [.can, .memory, .mi, .posts, .signals, .limits] (among (own ++ heads)) s t))
    ∧ (y.maySend k = false ∨ (c.q0 = [] ∧ c.q1 = []) → exec (.canTransmitAttempt k) s = .next s)
    ∧ (active = false → ∀ sent, exec (.canTxComplete k sent) s = .next s)
    ∧ (∀ r rest, active = true → c.queue actq = r :: rest →
      (c.abortActive = false → exec (.canTxComplete k false) s = .next { s with sys := y.putB (CAN_TXQ_ACTIVE k.val) false })
      ∧ (c.abortActive = true →
        ∃ t, exec (.canTxComplete k false) s = .next t ∧ t.sys.on (CAN_TXQ_ACTIVE k.val) = false ∧ (t.sys.canAt k).abortActive = false
          ∧ (t.sys.canAt k).aborted = [] ∧ ((∀ x ∈ rest, x.status ≠ 4) → (t.sys.canAt k).queue actq = rest) ∧ others t
          ∧ Keeps [.can, .hit, .memory, .mi, .posts, .signals] (among (own ++ heads)) s t)
      ∧ (∃ t, exec (.canTxComplete k true) s = .next t ∧ t.sys.on (CAN_TXQ_ACTIVE k.val) = false
        ∧ t.sys.word (CAN_TXCNT k.val) = (y.word (CAN_TXCNT k.val) + 1) % 2 ^ 32 ∧ t.sys.get (CAN_ERR_TEC k.val) = y.get (CAN_ERR_TEC k.val) - 1
        ∧ (c.aborted = [] → (∀ x ∈ rest, x.status ≠ 4) → r.source ≠ 0 →
          t.sys.get (DMA_CRHEAD_HEAD seg r.source) = (r.slot + 1) % y.ringSize seg r.source % 4096
          ∧ t.sys.on ⟨DMA_CANINT, 8 * r.source + seg, 1⟩ = true
          ∧ (y.dramUp = true → memBytes t.sys.mem (y.ringAddr seg r.source r.slot) (r.toBytes 0).length = r.toBytes 0))
        ∧ ((∀ x ∈ rest, x.status ≠ 4) → (∀ e ∈ y.hit.backlog, e.1 ≠ seg) → (t.sys.canAt k).queue actq = rest ∧ (t.sys.canAt k).queue (!actq) = c.queue (!actq))
        ∧ ((∀ e ∈ y.hit.backlog, e.1 ≠ seg) → others t)
        ∧ Keeps [.can, .hit, .memory, .mi, .posts, .signals]
          (among (own ++ heads ++ [CAN_TXCNT k.val, CAN_ERR k.val, CAN_STAT (y.canOf seg).val, CAN_TXQ (y.canOf seg).val])) s t))
    ∧ (∀ who q0 q1, (y.hitilOnly k = true → exec (.canAbort who k q0 q1) s = .next { s with sys := y.canPost k 0x0E0C [] })
      ∧ (y.hitilOnly k = false →
        let left := fun (asked q : Bool) => if asked then (if active && actq == q then (c.queue q).take 1 else []) else c.queue q
        ∃ t, exec (.canAbort who k q0 q1) s = .next t ∧ (t.sys.canAt k).q0 = left q0 false ∧ (t.sys.canAt k).q1 = left q1 true
          ∧ t.sys.on (CAN_TXQ_ACTIVE k.val) = active ∧ others t ∧ Keeps [.can, .memory, .mi, .posts, .signals] (among (own ++ heads)) s t))
    ∧ (∀ f, c.failed = true ∨ c.mode = modeOff ∨ (c.mode ≠ modeDetect ∧ c.busOff ≠ 0) → exec (.canFrameReceived k f) s = .next { s with sys := y.elapse f.clocks })
    ∧ (∀ f, c.failed = false → c.mode = modeNormal ∨ c.mode = modeListen → c.busOff = 0 → y.searching k = false ∨ f.fdf = false ∨ f.brs = false →
      let passed := [Part.ang, .fclk, .lfxo, .rtc]
      let took := fun (t : State) => t.sys.word (CAN_RXCNT k.val) = (y.word (CAN_RXCNT k.val) + 1) % 2 ^ 32
        ∧ (y.get (CAN_ERR_REC k.val) ≤ 127 → t.sys.get (CAN_ERR_REC k.val) = y.get (CAN_ERR_REC k.val) - 1)
        ∧ (127 < y.get (CAN_ERR_REC k.val) → 119 ≤ t.sys.get (CAN_ERR_REC k.val) ∧ t.sys.get (CAN_ERR_REC k.val) ≤ 127) ∧ others t
      let moved := own ++ [CAN_RXCNT k.val, CAN_ERR k.val]
      (f.arbOk = false ∨ f.dataOk = false → exec (.canFrameReceived k f) s = .next { s with sys := y.elapse f.clocks })
      ∧ (f.arbOk = true → f.dataOk = true →
        (y.canRole k ≠ roleHitil → y.fifoFull k = false →
          ∃ t, exec (.canFrameReceived k f) s = .next t ∧ took t ∧ (t.sys.canAt k).fifo = c.fifo ++ [frameRecord f y.ang.time]
            ∧ Keeps (passed ++ [.can, .draws, .posts]) (among moved) s t)
        ∧ (y.canRole k ≠ roleHitil → y.fifoFull k = true →
          ∃ t, exec (.canFrameReceived k f) s = .next t ∧ took t ∧ (t.sys.canAt k).fifo = c.fifo
            ∧ t.sys.word (CAN_RXDROP k.val) = Nat.min (y.word (CAN_RXDROP k.val) + 1) (2 ^ 32 - 1)
            ∧ Keeps (passed ++ [.can, .draws, .posts, .limits]) (among (moved ++ [CAN_RXDROP k.val])) s t)
        ∧ (y.canRole k = roleHitil → f.ide = true ∨ bits f.id 8 3 = 0 ∨ 5 < bits f.id 8 3 →
          ∃ t, exec (.canFrameReceived k f) s = .next t ∧ took t ∧ t.sys.word (CAN_FOREIGN k.val) = (y.word (CAN_FOREIGN k.val) + 1) % 2 ^ 32
            ∧ Keeps (passed ++ [.can, .draws, .posts]) (among (moved ++ [CAN_FOREIGN k.val])) s t)
        ∧ (y.canRole k = roleHitil → f.ide = false → bits f.id 8 3 = 3 → y.exchanging = true → stationRec y.image (1024 + 32 * seg + bits f.id 3 5) = none →
          ∃ t, exec (.canFrameReceived k f) s = .next t ∧ took t ∧ t.sys.word HIT_UNKN = (y.word HIT_UNKN + 1) % 2 ^ 32
            ∧ Keeps (passed ++ [.can, .draws, .posts]) (among (moved ++ [HIT_UNKN])) s t)))

/-- R301 to R310: what the errors, modes and failures of a controller do. The steps of the counters are presumed (notes/assumptions/31.md). The
premises on segments and rings hold in every state that runs reach. -/
def Obligations.CanErrorsAndModes : Prop :=
  ∀ (s : State) (k : Fin 9),
    let y := s.sys
    let c := y.canAt k
    let tec := y.get (CAN_ERR_TEC k.val)
    let rec_ := y.get (CAN_ERR_REC k.val)
    let own := [CAN_STAT k.val, CAN_TXQ k.val]
    let heads := ((List.range 8).map fun g => (List.range 3).map fun r => DMA_CRHEAD g r).flatten ++ [DMA_CANINT, PCI_PBA 0]
    let post := fun (code : Nat) => ({ s with sys := y.canPost k code [] } : State)
    let quiet := c.failed = true ∨ c.mode = modeOff
    (∀ kind dph tx rule,
      (quiet ∨ (c.mode = modeDetect ∧ c.nextMode ≠ none) ∨ (c.mode ≠ modeDetect ∧ c.busOff ≠ 0) → exec (.canBusError k ⟨kind, rule⟩ dph tx) s = .next s)
      ∧ (c.failed = false → c.mode = modeDetect → c.nextMode = none →
        ∃ t, exec (.canBusError k ⟨kind, rule⟩ dph tx) s = .next t
          ∧ (dph = false → t.sys.get (CAN_ADSTAT_ACAND k.val) = (y.get (CAN_ADSTAT_ACAND k.val) + 1) % 4 ∧ t.sys.get (CAN_ADSTAT_DCAND k.val) = 0
            ∧ (t.sys.canAt k).good = 0)
          ∧ (dph = true → t.sys.get (CAN_ADSTAT_ACAND k.val) = y.get (CAN_ADSTAT_ACAND k.val)
            ∧ t.sys.get (CAN_ADSTAT_DCAND k.val) = if y.on (CAN_ADSTAT_DLOCK k.val) then y.get (CAN_ADSTAT_DCAND k.val) else (y.get (CAN_ADSTAT_DCAND k.val) + 1) % 4)
          ∧ Keeps [.can] (among (CAN_ADSTAT k.val :: own)) s t)
      ∧ (c.failed = false → c.mode = modeNormal ∨ c.mode = modeListen → c.busOff = 0 → y.domUp 0 = true → y.searching k = false ∨ dph = false →
        (tx = false ∨ c.mode = modeListen →
          let e := rec_ + if rule = .flag then 8 else 1
          ∃ t, exec (.canBusError k ⟨kind, rule⟩ dph tx) s = .next t ∧ t.sys.get (CAN_ERR_LEC k.val) = kind % 8 ∧ t.sys.on (CAN_ERR_DPH k.val) = dph
            ∧ t.sys.get (CAN_ERR_REC k.val) = Nat.min e 255 ∧ t.sys.get (CAN_ERR_TEC k.val) = tec
            ∧ t.sys.get (CAN_STAT_STATE k.val) = (if 128 ≤ tec ∨ 128 ≤ e then canPassive else canActive)
            ∧ t.sys.posts = y.posts ++ (if tec < 128 ∧ rec_ < 128 ∧ 128 ≤ e then [⟨8, 0x0E02, 0, k.val⟩] else [])
            ∧ Keeps [.can, .posts] (among (CAN_ERR k.val :: own)) s t)
        ∧ (tx = true → c.mode = modeNormal → c.abortActive = false →
          let e := tec + if rule = .exempt ∨ (rule = .frame ∧ kind = 3 ∧ y.canState k = canPassive) then 0 else 8
          ∃ t, exec (.canBusError k ⟨kind, rule⟩ dph tx) s = .next t ∧ t.sys.get (CAN_ERR_LEC k.val) = kind % 8 ∧ t.sys.on (CAN_ERR_DPH k.val) = dph
            ∧ t.sys.get (CAN_ERR_TEC k.val) = Nat.min e 255 ∧ t.sys.get (CAN_ERR_REC k.val) = rec_
            ∧ t.sys.on (CAN_TXQ_ACTIVE k.val) = false ∧ (t.sys.canAt k).q0 = c.q0 ∧ (t.sys.canAt k).q1 = c.q1
            ∧ (255 < e → t.sys.get (CAN_STAT_STATE k.val) = canBusOff ∧ t.sys.get (CAN_BOFF_COUNT k.val) = Nat.min (y.get (CAN_BOFF_COUNT k.val) + 1) 65535
              ∧ t.sys.posts = y.posts ++ [⟨8, 0x0E04, 0, k.val⟩])
            ∧ (e ≤ 255 → t.sys.get (CAN_STAT_STATE k.val) = if 128 ≤ e ∨ 128 ≤ rec_ then canPassive else canActive)
            ∧ Keeps [.can, .posts] (among ([CAN_ERR k.val, CAN_BOFF k.val] ++ own)) s t)))
    ∧ (∀ f, c.failed = false → c.mode = modeDetect → c.nextMode = none →
      let passed := [Part.ang, .fclk, .lfxo, .rtc]
      (f.arbOk = false →
        ∃ t, exec (.canFrameReceived k f) s = .next t ∧ t.sys.get (CAN_ADSTAT_ACAND k.val) = (y.get (CAN_ADSTAT_ACAND k.val) + 1) % 4
          ∧ (t.sys.canAt k).good = 0 ∧ Keeps (passed ++ [.can]) (among (CAN_ADSTAT k.val :: own)) s t)
      ∧ (f.arbOk = true → y.domUp 0 = true →
        ∃ t, exec (.canFrameReceived k f) s = .next t ∧ (t.sys.canAt k).good = c.good + 1
          ∧ (f.fdf = true → f.brs = true → f.dataOk = true → t.sys.on (CAN_ADSTAT_DLOCK k.val) = true)
          ∧ (c.good + 1 < y.get (CAN_ADCTL_LOCKN k.val) → (t.sys.canAt k).mode = modeDetect ∧ t.sys.posts = y.posts)
          ∧ (y.get (CAN_ADCTL_LOCKN k.val) ≤ c.good + 1 →
            (t.sys.canAt k).mode = (if y.on (CAN_ADCTL_GOACT k.val) then modeNormal else modeListen) ∧ t.sys.get (CAN_ADSTAT_STATE k.val) = 2
            ∧ t.sys.get (CAN_RATE_ARATE k.val) = arbRate (y.get (CAN_ADSTAT_ACAND k.val))
            ∧ ∃ d, t.sys.posts = y.posts ++ [⟨8, 0x0E0B, 0, k.val + 256 * arbRate (y.get (CAN_ADSTAT_ACAND k.val)) + 16777216 * d⟩] ∧ d = t.sys.get (CAN_RATE_DRATE k.val))
          ∧ Keeps (passed ++ [.can, .posts]) (among ([CAN_ADSTAT k.val, CAN_RATE k.val, CAN_CTL k.val] ++ own)) s t))
    ∧ (let on_ := fun (t : State) => t.sys.get (CAN_STAT_STATE k.val) = canRecovering ∧ t.sys.canAt k = { c with busOff := 2 } ∧ Keeps [.can] (among own) s t
      let may := y.on (CAN_CTL_AUTOREC k.val) = true ∨ y.hitilOnly k = true
      (y.canState k = canBusOff → (∀ who, y.hitilOnly k = false → ∃ t, exec (.recover who k) s = .next t ∧ on_ t)
        ∧ (may → ∃ t, exec (.busOffHoldExpired k) s = .next t ∧ on_ t))
      ∧ (y.canState k ≠ canBusOff → ∀ who, y.hitilOnly k = false → exec (.recover who k) s = .next s)
      ∧ (y.canState k ≠ canBusOff ∨ ¬ may → exec (.busOffHoldExpired k) s = .next s))
    ∧ (y.canState k = canRecovering → y.domUp 0 = true →
      ∃ t, exec (.busOffRecovered k) s = .next t ∧ t.sys.get (CAN_ERR_TEC k.val) = 0 ∧ t.sys.get (CAN_ERR_REC k.val) = 0
        ∧ t.sys.get (CAN_STAT_STATE k.val) = canActive ∧ t.sys.posts = y.posts ++ [⟨8, 0x0E05, 0, k.val⟩]
        ∧ Keeps [.can, .posts] (among (CAN_ERR k.val :: own)) s t)
    ∧ (y.canState k ≠ canRecovering → exec (.busOffRecovered k) s = .next s)
    ∧ (∀ who mode, (y.hitilOnly k = true → exec (.canModeWrite who k mode) s = .next (post 0x0E0C) ∧ exec (.recover who k) s = .next (post 0x0E0C))
      ∧ (y.hitilOnly k = false → y.modeRefused k (mode % 4) = true → exec (.canModeWrite who k mode) s = .next (post 0x0E0E))
      ∧ (y.hitilOnly k = false → y.modeRefused k (mode % 4) = false →
        ∃ t, exec (.canModeWrite who k mode) s = .next t ∧ t.sys.get (CAN_CTL_MODE k.val) = mode % 4 ∧ t.sys.canAt k = { c with nextMode := some (mode % 4) }
          ∧ Keeps [.can] (among (CAN_CTL k.val :: own)) s t))
    ∧ (c.nextMode = none ∨ c.failed = true → exec (.canModeApply k) s = .next s)
    ∧ (∀ m, c.nextMode = some m → c.failed = false →
      ∃ t, exec (.canModeApply k) s = .next t ∧ (t.sys.canAt k).mode = m ∧ (t.sys.canAt k).nextMode = none
        ∧ (m = modeDetect → t.sys.word (CAN_ADSTAT k.val) = 1 ∧ t.sys.word (CAN_RATE k.val) = 0 ∧ (t.sys.canAt k).good = 0)
        ∧ (m ≠ modeDetect → m ≠ modeOff → y.get (CAN_ADSTAT_STATE k.val) ≠ 2 →
          t.sys.get (CAN_RATE_ARATE k.val) = c.arate % 65536 ∧ t.sys.get (CAN_RATE_DRATE k.val) = c.drate % 65536)
        ∧ (m ≠ modeDetect → m = modeOff ∨ y.get (CAN_ADSTAT_STATE k.val) = 2 → t.sys.word (CAN_RATE k.val) = y.word (CAN_RATE k.val))
        ∧ Keeps [.can] (among ([CAN_ADSTAT k.val, CAN_RATE k.val] ++ own)) s t)
    ∧ (let late := c.mode = modeDetect ∧ c.nextMode = none ∧ y.get (CAN_ADSTAT_STATE k.val) = 1
      (late → exec (.detectTimeout k) s = .next (post 0x0E0A)) ∧ (¬ late → exec (.detectTimeout k) s = .next s))
    ∧ (c.failed = true → (∀ cause, exec (.canControllerFailed k cause) s = .next s)
      ∧ ∀ seg : Fin 8, k.val = seg.val → exec (.forcedSubstitution seg) s = .next s)
    ∧ (c.failed = false → y.segOf k < 8 → (∀ r ∈ c.q0 ++ c.q1 ++ c.aborted, r.source ≤ 2) → y.domUp 0 = true →
      let lost := Nat.min (c.q0.length + c.q1.length + c.aborted.length) 0xFFFFFFFF
      let bare := if k = 8 then (if y.on CAN_SPMAP_USED then [8] else (List.range 8).filter y.unserved)
        else if y.canRole k ≠ 0 ∧ y.spareFree = false then [k.val] else []
      let gone := fun (t : State) (cause : Nat) => (t.sys.canAt k).failed = true ∧ (t.sys.canAt k).q0 = [] ∧ (t.sys.canAt k).q1 = []
        ∧ t.sys.on (CAN_TXQ_ACTIVE k.val) = false ∧ t.sys.get (CAN_STAT_STATE k.val) = canFailedState
        ∧ t.sys.posts = y.posts ++ (if cause = 1 then [⟨8, 0x0E01, 0, k.val⟩] else [])
          ++ [⟨8, 0x0E06, 0, k.val + 256 * (cause % 256) + 65536 * lost⟩] ++ bare.map (fun g => (⟨8, 0x0E08, 0, g⟩ : Post))
        ∧ Keeps [.can, .loft, .memory, .mi, .posts, .signals] (among (own ++ heads ++ [CAN_SPMAP])) s t
      (∀ cause, ∃ t, exec (.canControllerFailed k cause) s = .next t ∧ gone t cause ∧ (cause ≠ 4 → k.val ∈ t.sys.loft.failedCan))
      ∧ (∀ seg : Fin 8, k.val = seg.val → ∃ t, exec (.forcedSubstitution seg) s = .next t ∧ gone t 4 ∧ t.sys.loft = y.loft))
    ∧ (∀ seg, (List.range 8).find? y.unserved = some seg → y.spareFree = true → y.domUp 0 = true →
      let f := y.canAt (Fin.ofNat 9 seg)
      ∃ t, exec .canSpareIn s = .next t ∧ t.sys.on CAN_SPMAP_USED = true ∧ t.sys.get CAN_SPMAP_SEG = seg ∧ t.sys.on (CAN_STAT_SPARED seg) = true
        ∧ t.sys.canRole 8 = y.get (CAN_STAT_ROLE seg) ∧ (t.sys.canAt 8).mode = f.nextMode.getD f.mode ∧ t.sys.get (CAN_CTL_MODE 8) = y.get (CAN_CTL_MODE seg)
        ∧ (f.nextMode = none → f.mode ≠ modeDetect → t.sys.word (CAN_RATE 8) = y.word (CAN_RATE seg))
        ∧ t.sys.posts = y.posts ++ [⟨8, 0x0E07, 0, 8 + 256 * seg⟩] ++ ((List.range 8).filter fun g => g != seg && y.unserved g).map (fun g => (⟨8, 0x0E08, 0, g⟩ : Post))
        ∧ Keeps [.can, .loft, .posts] (among [CAN_SPMAP, CAN_STAT seg, CAN_STAT 8, CAN_CTL 8, CAN_ERR 8, CAN_ADSTAT 8, CAN_RATE 8, CAN_TXQ 8]) s t)
    ∧ ((List.range 8).find? y.unserved = none ∨ y.spareFree = false → exec .canSpareIn s = .next s)

/-- R313, R315 to R317, R322, R325, R326: the link and the commands of a port. -/
def Obligations.EthernetLinks : Prop :=
  ∀ (s : State) (p : Fin 3),
    let y := s.sys
    let link := [NET_LINK p.val, NET_INT p.val, PCI_PBA 0]
    let host := fun (who : Agent) => who = .host ∧ p = 2
    let refused := ({ s with sys := y.netPost p 0x0D07 [] } : State)
    let negotiates := fun (t : State) => t.sys.linkState p = linkNegotiating ∧ (t.sys.port p).adv = y.word (NET_ADV p.val)
    let down := fun (t : State) => Keeps [.memory, .ports, .posts, .signals] (among (NET_TXHEAD p.val :: link)) s t ∧ ∀ q, q ≠ p → t.sys.port q = y.port q
    (y.linkState p ≠ linkDown → exec (.linkPartnerDetected p) s = .next s)
    ∧ (y.linkState p ≠ linkNegotiating → (∀ ability, exec (.linkUp p ability) s = .next s) ∧ exec (.nomatch p) s = .next s)
    ∧ (y.linkState p ≠ linkNomatch → exec (.autonegRestart p) s = .next s)
    ∧ (y.linkState p = linkDown → ∀ who, ¬ host who → exec (.reneg who p) s = .next s)
    ∧ (y.on (NET_MDIO_BUSY p.val) = false → ∀ value, exec (.mdioReadDone p value) s = .next s)
    ∧ (y.linkState p = linkDown → ∃ t, exec (.linkPartnerDetected p) s = .next t ∧ negotiates t ∧ t.sys.on (NET_INT_LINK p.val) = true
      ∧ Keeps [.ports, .signals] (among link) s t)
    ∧ (y.linkState p = linkNegotiating → y.domUp 0 = true →
      (∀ ability, let speed := commonSpeed (y.port p).adv ability
        let r := pauseResolved (y.port p).adv ability
        (speed ≠ 0 → ∃ t, exec (.linkUp p ability) s = .next t ∧ t.sys.linkState p = linkUp ∧ t.sys.get (NET_LINK_SPEED p.val) = speed
          ∧ t.sys.on (NET_LINK_PTX p.val) = r.1 ∧ t.sys.on (NET_LINK_PRX p.val) = r.2 ∧ (t.sys.port p).partner = ability
          ∧ t.sys.posts = y.posts ++ ⟨8, 0x0D01, 0, p.val + 256 * speed⟩ :: (if p = 2 ∧ speed ≠ 3 then [⟨8, 0x0F0B, 0, 0⟩] else [])
          ∧ Keeps [.ports, .posts, .signals] (among link) s t)
        ∧ (speed = 0 → ∃ t, exec (.linkUp p ability) s = .next t ∧ t.sys.linkState p = linkNomatch ∧ t.sys.posts = y.posts ++ [⟨8, 0x0D03, 0, p.val⟩]
          ∧ Keeps [.posts, .signals] (among link) s t))
      ∧ (∃ t, exec (.nomatch p) s = .next t ∧ t.sys.linkState p = linkNomatch ∧ t.sys.posts = y.posts ++ [⟨8, 0x0D03, 0, p.val⟩]
        ∧ Keeps [.posts, .signals] (among link) s t))
    ∧ (y.domUp 0 = true → ∃ t, exec (.linkDown p) s = .next t ∧ t.sys.linkState p = linkDown
      ∧ (y.linkState p = linkUp → (t.sys.port p).sending = none ∧ (t.sys.port p).paused = false ∧ t.sys.posts = y.posts ++ [⟨8, 0x0D02, 0, p.val⟩])
      ∧ (y.linkState p ≠ linkUp → t.sys.posts = y.posts ∧ t.sys.port p = y.port p) ∧ down t)
    ∧ (y.linkState p = linkNomatch → ∃ t, exec (.autonegRestart p) s = .next t ∧ negotiates t ∧ Keeps [.ports, .signals] (among link) s t)
    ∧ (∀ who, ¬ host who → y.linkState p ≠ linkDown → ∃ t, exec (.reneg who p) s = .next t ∧ negotiates t ∧ down t)
    ∧ (∀ who, host who → exec (.reneg who p) s = .next refused ∧ exec (.txrst who p) s = .next refused ∧ exec (.rxrst who p) s = .next refused
      ∧ (∀ data, exec (.netRingEnable who p data) s = .next refused) ∧ ∀ r, exec (.mdioRead who p r) s = .next refused)
    ∧ (∀ who, ¬ host who → p = 2 → exec (.txrst who p) s = .next s ∧ exec (.rxrst who p) s = .next s
      ∧ ∀ data, ∃ t, exec (.netRingEnable who p data) s = .next t
        ∧ t.sys.word (NET_CTL 2) = y.word (NET_CTL 2) ||| (if data.testBit 31 then 2 ^ 31 else 0) ∧ Keeps [.posts] (among [NET_CTL 2]) s t)
    ∧ (∀ who, p ≠ 2 →
      (y.on (NET_CTL_TXEN p.val) = false → ∃ t, exec (.txrst who p) s = .next t ∧ t.sys.get (NET_TXHEAD_IDX p.val) = 0 ∧ t.sys.get (NET_TXTAIL_IDX p.val) = 0
        ∧ Keeps [] (among [NET_TXHEAD p.val, NET_TXTAIL p.val]) s t)
      ∧ (y.on (NET_CTL_TXEN p.val) = true → exec (.txrst who p) s = .next refused)
      ∧ (y.on (NET_CTL_RXEN p.val) = false → ∃ t, exec (.rxrst who p) s = .next t ∧ t.sys.get (NET_RXHEAD_IDX p.val) = 0 ∧ t.sys.get (NET_RXTAIL_IDX p.val) = 0
        ∧ Keeps [] (among [NET_RXHEAD p.val, NET_RXTAIL p.val]) s t)
      ∧ (y.on (NET_CTL_RXEN p.val) = true → exec (.rxrst who p) s = .next refused)
      ∧ ∀ data, data < 2 ^ 32 →
        let badTx := data.testBit 0 && !y.on (NET_CTL_TXEN p.val) && !ringFits (y.txDesc p 0) (y.txSize p)
        let badRx := data.testBit 1 && !y.on (NET_CTL_RXEN p.val) && !ringFits (y.rxDesc p 0) (y.rxSize p)
        ∃ t, exec (.netRingEnable who p data) s = .next t ∧ t.sys.on (NET_CTL_TXEN p.val) = (data.testBit 0 && !badTx)
          ∧ t.sys.on (NET_CTL_RXEN p.val) = (data.testBit 1 && !badRx) ∧ t.sys.on (NET_CTL_PROMISC p.val) = data.testBit 8
          ∧ (badTx || badRx = true → y.domUp 0 = true → ⟨8, 0x0D08, 0, p.val⟩ ∈ t.sys.posts)
          ∧ Keeps [.posts] (among [NET_CTL p.val]) s t)
    ∧ (∀ who r, ¬ host who → ∃ t, exec (.mdioRead who p r) s = .next t ∧ t.sys.on (NET_MDIO_BUSY p.val) = true ∧ t.sys.get (NET_MDIO_REG p.val) = r % 32
      ∧ Keeps [] (among [NET_MDIO p.val]) s t)
    ∧ (y.on (NET_MDIO_BUSY p.val) = true → ∀ value, ∃ t, exec (.mdioReadDone p value) s = .next t ∧ t.sys.on (NET_MDIO_BUSY p.val) = false
      ∧ t.sys.get (NET_MDIO_DATA p.val) = value % 65536 ∧ Keeps [] (among [NET_MDIO p.val]) s t)
    ∧ (exec (.pauseExpired p) s = .next { s with sys := y.modPort p fun q => { q with paused := false } })

/-- R317 to R321, R324 to R327: the frames of a port. A frame on the wire has at least one descriptor in every state that runs reach. -/
def Obligations.EthernetFrames : Prop :=
  ∀ (s : State) (p : Fin 3),
    let y := s.sys
    let others := fun (t : State) => ∀ q, q ≠ p → t.sys.port q = y.port q
    let irq := [NET_INT p.val, PCI_PBA 0]
    let sat := fun (t : State) (c : Fld) => t.sys.get c = Nat.min (y.get c + 1) (2 ^ 32 - 1)
    let mayTransmit := p ≠ 2 ∧ y.on (NET_CTL_TXEN p.val) = true ∧ y.linkState p = linkUp ∧ (y.port p).paused = false ∧ (y.port p).sending = none ∧ y.dramGap = none
    let waiting := y.frameDescs p (y.txSize p) (y.get (NET_TXHEAD_IDX p.val))
    let pauseFrame := fun (quanta : Nat) => wireFrame (pauseAddress ++ y.macBytes p ++ [0x88, 0x08, 0x00, 0x01] ++ bytesBE 2 quanta)
    (¬ mayTransmit ∨ waiting = none → exec (.netTransmit p) s = .next s)
    ∧ (∀ ds, mayTransmit → waiting = some ds →
      (y.txRefused p ds = false → ∃ t, exec (.netTransmit p) s = .next t
        ∧ t.sys.port p = { y.port p with sending := some (wireFrame (y.frameBytes p ds)), sendCount := ds.length, sendTime := y.ang.time } ∧ others t
        ∧ Keeps [.ports] (fun _ => false) s t)
      ∧ (y.txRefused p ds = true → y.domUp 0 = true → ∃ t, exec (.netTransmit p) s = .next t ∧ t.sys.ports = y.ports ∧ sat t (NET_TXDERR_COUNT p.val)
        ∧ t.sys.posts = y.posts ++ [⟨8, 0x0D04, 0, p.val + 65536 * y.get (NET_TXHEAD_IDX p.val)⟩]
        ∧ Keeps [.memory, .posts, .signals] (among ([NET_TXHEAD p.val, NET_TXDERR p.val] ++ irq)) s t))
    ∧ ((y.port p).sending = none → exec (.netTxComplete p) s = .next s)
    ∧ (∀ f, (y.port p).sending = some f → p ≠ 2 → 0 < (y.port p).sendCount →
      ∃ t, exec (.netTxComplete p) s = .next t ∧ t.sys.port p = { y.port p with sending := none, sendCount := 0, wire := f } ∧ others t
        ∧ sat t (NET_TXOK_COUNT p.val) ∧ t.sys.get (NET_TXHEAD_IDX p.val) = (y.get (NET_TXHEAD_IDX p.val) + (y.port p).sendCount) % y.txSize p % 4096
        ∧ Keeps [.memory, .ports, .signals] (among ([NET_TXHEAD p.val, NET_TXOK p.val] ++ irq)) s t)
    ∧ (y.sendsPause p = true → (y.port p).xoff = true →
      ∃ t, exec (.pauseRepeat p) s = .next t ∧ sat t (NET_PAUSETX_COUNT p.val)
        ∧ t.sys.port p = { y.port p with wire := pauseFrame (y.get (NET_PAUSE_QUANTA p.val)) } ∧ others t ∧ Keeps [.ports] (among [NET_PAUSETX p.val]) s t)
    ∧ (y.sendsPause p = false ∨ (y.port p).xoff = false → exec (.pauseRepeat p) s = .next s)
    ∧ (∀ fill,
      let ends := (y.port p).xoff = true ∧ fill < 1024 * y.get (NET_PAUSE_XON p.val)
      (ends → y.sendsPause p = true → ∃ t, exec (.pauseXon p fill) s = .next t ∧ sat t (NET_PAUSETX_COUNT p.val)
        ∧ t.sys.port p = { y.port p with wire := pauseFrame 0, xoff := false } ∧ others t ∧ Keeps [.ports] (among [NET_PAUSETX p.val]) s t)
      ∧ (ends → y.sendsPause p = false → ∃ t, exec (.pauseXon p fill) s = .next t ∧ t.sys.port p = { y.port p with xoff := false } ∧ others t
        ∧ Keeps [.ports] (fun _ => false) s t)
      ∧ (¬ ends → exec (.pauseXon p fill) s = .next s))
    ∧ (∀ f error overflow fill clocks,
      let moved := [Part.ang, .fclk, .lfxo, .rtc] ++ if y.sendsPause p then [Part.ports] else []
      let regs := if y.sendsPause p then [NET_PAUSETX p.val] else []
      let body := f.take (f.length - 4)
      let counts := fun (c : Fld) (ps : List Part) (l : List Nat) => ∃ t, exec (.netFrameReceived p ⟨f, clocks⟩ error overflow fill) s = .next t
        ∧ sat t c ∧ others t ∧ t.sys.mem = y.mem ∧ Keeps (moved ++ [.posts, .limits] ++ ps) (among (regs ++ [c.addr] ++ l)) s t
      (y.linkState p ≠ linkUp → (y.port p).cut = false → exec (.netFrameReceived p ⟨f, clocks⟩ error overflow fill) s = .next s)
      ∧ (y.linkState p = linkUp ∨ (y.port p).cut = true →
        (overflow = true → counts (NET_RXOVF_COUNT p.val) [.ports] [])
        ∧ (overflow = false → ∀ c, lengthDrop p f = some c → counts c [.ports] [])
        ∧ (overflow = false → lengthDrop p f = none → error = true ∨ y.linkState p ≠ linkUp → counts (NET_RXERR_COUNT p.val) [.ports] []))
      ∧ (y.linkState p = linkUp → overflow = false → lengthDrop p f = none → error = false →
        (etherType f = 0x8808 → p = 2 → counts (NET_CTLDROP_COUNT p.val) [] [])
        ∧ (etherType f = 0x8808 → p ≠ 2 → f.take 6 = pauseAddress → nth 0 f 14 = 0 → nth 0 f 15 = 1 → y.on (NET_LINK_PRX p.val) = true →
          y.on (NET_CTL_RXPEN p.val) = true → ∃ t, exec (.netFrameReceived p ⟨f, clocks⟩ error overflow fill) s = .next t ∧ sat t (NET_PAUSERX_COUNT p.val)
          ∧ (t.sys.port p).paused = (numBE ((f.drop 16).take 2) != 0) ∧ others t
          ∧ Keeps (moved ++ [.ports]) (among (regs ++ [NET_PAUSERX p.val])) s t)
        ∧ (etherType f ≠ 0x8808 → y.filterPasses p f = false → counts (NET_FILT_COUNT p.val) [] [])
        ∧ (etherType f ≠ 0x8808 → y.filterPasses p f = true → p = 2 → isTagged f = true ∨ etherType f ≠ y.get HIT_ETYPE_ETYPE →
          counts (NET_FOREIGN_COUNT 2) [] [])
        ∧ (etherType f ≠ 0x8808 → y.filterPasses p f = true → p ≠ 2 →
          let size := y.rxSize p
          let head := y.get (NET_RXHEAD_IDX p.val)
          let n := Nat.max 1 ((body.length + y.rxBuffer p - 1) / Nat.max 1 (y.rxBuffer p))
          let free := (y.get (NET_RXTAIL_IDX p.val) + 2 * size - head) % size
          let takes := y.on (NET_CTL_RXEN p.val) = true ∧ y.dramGap = none ∧ n ≤ free
          let invalid := (List.range n).find? fun k => !y.rxValid p ((head + k) % size)
          (¬ takes → counts (NET_RXNOBUF_COUNT p.val) [.signals] irq)
          ∧ (∀ k, takes → invalid = some k → y.domUp 0 = true →
            ∃ t, exec (.netFrameReceived p ⟨f, clocks⟩ error overflow fill) s = .next t
            ∧ sat t (NET_RXNOBUF_COUNT p.val) ∧ t.sys.get (NET_RXHEAD_IDX p.val) = (head + k + 1) % size % 4096
            ∧ (∀ j, j ≤ k → t.sys.rd (y.rxDesc p ((head + j) % size) + 4) 4 = 2 ^ 24)
            ∧ t.sys.posts = y.posts ++ [⟨8, 0x0D04, 0, p.val + 256 + 65536 * ((head + k) % size)⟩] ∧ others t
            ∧ Keeps (moved ++ [.memory, .posts]) (among (regs ++ [NET_RXHEAD p.val, NET_RXNOBUF p.val])) s t)
          ∧ (takes → invalid = none → ∃ t, exec (.netFrameReceived p ⟨f, clocks⟩ error overflow fill) s = .next t
            ∧ sat t (NET_RXOK_COUNT p.val) ∧ t.sys.on (NET_INT_RXDONE p.val) = true ∧ t.sys.get (NET_RXHEAD_IDX p.val) = (head + n) % size % 4096
            ∧ (t.sys.port p).rxSeq = ((y.port p).rxSeq + 1) % 2 ^ 32 ∧ others t
            ∧ (body.length ≤ y.rxBuffer p → ringFits (y.rxDesc p 0) size = true →
              let a := y.rxDesc p (head % size)
              let buf := y.rd a 4
              (∀ i (h : i < body.length), (memByte t.sys.mem (buf + i)).toNat = body[i] % 256)
              ∧ bits (t.sys.rd (a + 4) 4) 0 11 = body.length % 2048 ∧ t.sys.rd (a + 8) 8 = y.ang.time % 2 ^ 64 ∧ t.sys.rd (a + 16) 4 = body.length % 2 ^ 32
              ∧ t.sys.rd (a + 20) 4 = ((y.port p).rxSeq + 1) % 2 ^ 32
              ∧ (∀ b, (b < a + 4 ∨ a + 24 ≤ b) → (b < buf ∨ buf + body.length ≤ b) → memByte t.sys.mem b = memByte y.mem b))
            ∧ Keeps (moved ++ [.memory, .mi, .ports, .signals]) (among (regs ++ [NET_RXHEAD p.val, NET_RXOK p.val] ++ irq)) s t))))

/-- R329 to R337: the commands of a channel. After which burst an abort or a lost completion comes is open: some number of bursts. The premises on
the descriptor of a channel hold in every state that runs reach: it was fetched, so it is well formed and lies in a descriptor area. -/
def Obligations.DmaChannels : Prop :=
  ∀ (s : State) (c : Fin 16),
    let y := s.sys
    let a := 32 * y.get (DMA_CHDESC_ADDR c.val)
    let locker := y.chLocker c
    let own := [DMA_CHSTAT c.val, DMA_CHRES c.val, DMA_CHCUR c.val, DMA_CHBYT c.val]
    let irq := [DMA_INT, PCI_PBA 0]
    let failed := fun (t : State) (status code : Nat) => t.sys.chState c = chError ∧ t.sys.get (DMA_CHSTAT_STATUS c.val) = status
      ∧ (t.sys.dma[c]).desc = none ∧ t.sys.bit DMA_INT_CH c.val = true
      ∧ (y.domUp 0 = true → ∃ more, t.sys.posts = y.posts ++ more ++ [⟨8, code, locker, c.val⟩])
    let others := fun (t : State) => ∀ k, k ≠ c → t.sys.dma[k] = y.dma[k]
    let sound := fun (x n : Nat) => ∀ g ∈ y.mi.poison, g + 32 ≤ x ∨ x + n ≤ g
    let takes := fun (z : Sys) (x : Nat) => z.rangeAbsent false x = false ∧ x ∉ z.mi.poison ∧ (descriptorAt z.mem x).malformed = false
      ∧ z.outOfClass c (descriptorAt z.mem x) = false ∧ z.outOfLocker c (descriptorAt z.mem x) = false ∧ z.descAbsent (descriptorAt z.mem x) = false
    (chMissing c = true → (∀ who, ¬ (who = .host ∧ 10 ≤ c.val) → exec (.dmaGo who c) s = .next s ∧ exec (.dmaAbort who c) s = .next s)
      ∧ ∀ data, exec (.dmaChlkWrite c data) s = .next s)
    ∧ (∀ who, who = .host → 10 ≤ c.val → exec (.dmaGo who c) s = .next { s with sys := y.note 0x0112 } ∧ exec (.dmaAbort who c) s = .next { s with sys := y.note 0x0112 })
    ∧ (chMissing c = false → ∀ who, ¬ (who = .host ∧ 10 ≤ c.val) →
      (y.chState c = chRun ∨ descArea c a = false ∨ y.on (DMA_CHLK_VOID c.val) = true → exec (.dmaGo who c) s = .next { s with sys := y.chPost c 0x0B07 })
      ∧ (y.chState c ≠ chRun → descArea c a = true → y.on (DMA_CHLK_VOID c.val) = false →
        let d := descriptorAt y.mem a
        let ends := fun (status code resid : Nat) => ∃ t, exec (.dmaGo who c) s = .next t ∧ failed t status code ∧ t.sys.get (DMA_CHRES_RESID c.val) = resid ∧ others t
          ∧ Keeps [.dma, .memory, .mi, .posts, .signals, .pwr, .limits] (among (own ++ irq)) s t
        (takes y a → ∃ t, exec (.dmaGo who c) s = .next t ∧ t.sys.chState c = chRun ∧ t.sys.word (DMA_CHCUR c.val) = a ∧ (t.sys.dma[c]).desc = some d ∧ others t
          ∧ Keeps [.dma] (among [DMA_CHSTAT c.val, DMA_CHCUR c.val]) s t)
        ∧ (y.rangeAbsent false a = true → ends 7 0x0B06 0)
        ∧ (y.rangeAbsent false a = false → a ∉ y.mi.poison →
          (d.malformed = true → ends 1 0x0B01 d.len)
          ∧ (d.malformed = false → y.outOfClass c d = true → ends 2 0x0B02 d.len)
          ∧ (d.malformed = false → y.outOfClass c d = false → y.outOfLocker c d = true → ends 3 0x0B03 d.len)
          ∧ (d.malformed = false → y.outOfClass c d = false → y.outOfLocker c d = false → y.descAbsent d = true → ends 7 0x0B06 d.len)))
      ∧ (y.chState c ≠ chRun → exec (.dmaAbort who c) s = .next s))
    ∧ ((y.dma[c]).desc = none → exec (.dmaDescriptorDone c) s = .next s ∧ exec (.dmaCompletionTimeout c) s = .next s)
    ∧ (∀ d, (y.dma[c]).desc = some d → d.len < 2 ^ 24 → d.malformed = false → descArea c d.at_ = true →
      let clean := (d.ssp = 1 ∨ sound d.src d.len) ∧ (d.dsp = 1 ∨ sound d.dst d.len)
      let back := sound (d.at_ + 28) 4 ∧ (d.at_ < 0x80000000 ∨ y.dramGap = none)
      let changed := [Part.dma, .memory, .hostMemory, .mi, .posts, .signals]
      (y.descAbsent d = false → y.outOfClass c d = false → y.outOfLocker c d = false → clean →
        let moved := fun (t : State) => t.sys.get (DMA_CHSTAT_STATUS c.val) = 0 ∧ t.sys.get (DMA_CHRES_RESID c.val) = 0
          ∧ t.sys.word (DMA_CHBYT c.val) = (y.word (DMA_CHBYT c.val) + d.len) % 2 ^ 32 ∧ (d.irq = true → t.sys.bit DMA_INT_CH c.val = true) ∧ others t
        (d.last = true → ∃ t, exec (.dmaDescriptorDone c) s = .next t ∧ moved t ∧ t.sys.chState c = chIdle ∧ (t.sys.dma[c]).desc = none
          ∧ (back → d.ssp = 1 ∨ d.dsp = 1 ∨ d.src + d.len ≤ d.dst ∨ d.dst + d.len ≤ d.src →
            d.ssp = 1 ∨ d.src + d.len ≤ 0x30F00000 ∨ 0x31000000 ≤ d.src →
            let bs := swapBytes d.swap (if d.ssp = 1 then memBytes y.hostMem d.src d.len else y.mirrorFiltered c d.src (memBytes y.mem d.src d.len))
            (d.dsp = 1 → t.sys.hostMem = memPutBytes y.hostMem d.dst bs ∧ t.sys.mem = memPutBytes y.mem (d.at_ + 28) (bytesLE 4 0))
            ∧ (d.dsp ≠ 1 → 0x80400000 ≤ d.dst ∨ d.dst + d.len ≤ 0x30000000 → t.sys.hostMem = y.hostMem
              ∧ t.sys.mem = memPutBytes (memPutBytes y.mem d.dst bs) (d.at_ + 28) (bytesLE 4 0) ∧ t.sys.posts = y.posts))
          ∧ (back → Keeps changed (among (own ++ irq)) s t))
        ∧ (d.last = false → descArea c (d.next / 32 * 32) = false → ∃ t, exec (.dmaDescriptorDone c) s = .next t ∧ failed t 0 0x0B07 ∧ others t)
        ∧ (d.last = false → descArea c (d.next / 32 * 32) = true → ∃ t, exec (.dmaDescriptorDone c) s = .next t ∧ others t
          ∧ t.sys.word (DMA_CHCUR c.val) = d.next / 32 * 32 % 2 ^ 32
          ∧ (takes t.sys (d.next / 32 * 32) → moved t ∧ t.sys.chState c = chRun ∧ (t.sys.dma[c]).desc = some (descriptorAt t.sys.mem (d.next / 32 * 32)))))
      ∧ (y.descAbsent d = true → clean →
        ∃ t k, exec (.dmaDescriptorDone c) s = .next t ∧ failed t 7 0x0B06 ∧ t.sys.get (DMA_CHRES_RESID c.val) = d.len - d.moved k ∧ others t)
      ∧ (∀ who, chMissing c = false → ¬ (who = .host ∧ 10 ≤ c.val) → y.chState c = chRun → y.descAbsent d = false → clean → y.domUp 0 = true →
        let stopped := fun (t : State) => ∃ k, k ≤ d.bursts.length ∧ t.sys.chState c = chStopped ∧ t.sys.get (DMA_CHRES_RESID c.val) = d.len - d.moved k
          ∧ t.sys.get (DMA_CHSTAT_STATUS c.val) = (if d.moved k = d.len then 0 else 4) ∧ (t.sys.dma[c]).desc = none ∧ t.sys.draws = y.draws + 1
          ∧ (∃ more, t.sys.posts = y.posts ++ more ++ [⟨8, 0x0B08, locker, c.val⟩]) ∧ others t
          ∧ (back → Keeps (.draws :: changed) (among (DMA_CHLK c.val :: own ++ irq)) s t)
        (∃ t, exec (.dmaAbort who c) s = .next t ∧ stopped t ∧ t.sys.word (DMA_CHLK c.val) = y.word (DMA_CHLK c.val))
        ∧ (∃ t, exec (.bindingVoid c) s = .next t ∧ stopped t ∧ t.sys.on (DMA_CHLK_VOID c.val) = true
          ∧ t.sys.get (DMA_CHLK_LOCKER c.val) = y.get (DMA_CHLK_LOCKER c.val) ∧ t.sys.on (DMA_CHLK_LKEN c.val) = y.on (DMA_CHLK_LKEN c.val)))
      ∧ (d.ssp ≠ 1 → d.dsp ≠ 1 → exec (.dmaCompletionTimeout c) s = .next s)
      ∧ (d.ssp = 1 ∨ d.dsp = 1 → clean → ∃ t k, exec (.dmaCompletionTimeout c) s = .next t ∧ failed t 5 0x0B04
        ∧ t.sys.get (DMA_CHRES_RESID c.val) = d.len - d.moved k ∧ others t ∧ (back → Keeps (.draws :: changed) (among (own ++ irq)) s t)))
    ∧ (y.chState c ≠ chRun →
      (∃ t, exec (.bindingVoid c) s = .next t ∧ t.sys.on (DMA_CHLK_VOID c.val) = true ∧ t.sys.get (DMA_CHLK_LOCKER c.val) = y.get (DMA_CHLK_LOCKER c.val)
        ∧ t.sys.on (DMA_CHLK_LKEN c.val) = y.on (DMA_CHLK_LKEN c.val) ∧ Keeps [] (among [DMA_CHLK c.val]) s t)
      ∧ (∀ data, chMissing c = false → data < 2 ^ 32 → data.testBit 17 = false →
        ∃ t, exec (.dmaChlkWrite c data) s = .next t ∧ t.sys.get (DMA_CHLK_LOCKER c.val) = data % 1024 ∧ t.sys.on (DMA_CHLK_LKEN c.val) = data.testBit 16
          ∧ t.sys.on (DMA_CHLK_VOID c.val) = false ∧ Keeps [] (among [DMA_CHLK c.val]) s t))
    ∧ (∀ data, chMissing c = false → y.chState c = chRun →
      let changes := bits data 0 10 ≠ y.get (DMA_CHLK_LOCKER c.val) ∨ data.testBit 16 ≠ y.on (DMA_CHLK_LKEN c.val)
      (changes ∨ (data.testBit 17 = false ∧ y.on (DMA_CHLK_VOID c.val) = true) → exec (.dmaChlkWrite c data) s = .next { s with sys := y.chPost c 0x0B07 })
      ∧ (¬ changes → data.testBit 17 = true → exec (.dmaChlkWrite c data) s = exec (.bindingVoid c) s)
      ∧ (¬ changes → data.testBit 17 = false → y.on (DMA_CHLK_VOID c.val) = false → exec (.dmaChlkWrite c data) s = .next s))

/-- R338, R339: the rings of a segment. -/
def Obligations.CanRings : Prop :=
  ∀ (s : State) (seg : Fin 8),
    let y := s.sys
    let k := y.canOf seg.val
    let c := y.canAt k
    let own := [CAN_STAT k.val, CAN_TXQ k.val]
    (∀ who (r : Fin 3) data, data < 2 ^ 32 →
      let f := seg.val
      let stored := fun (t : State) (en : Bool) => t.sys.get (DMA_CRCFG_LOG2 f r.val) = bits data 0 4 ∧ t.sys.get (DMA_CRCFG_LOW f r.val) = bits data 8 5
        ∧ t.sys.get (DMA_CRCFG_HIGH f r.val) = bits data 16 6 ∧ t.sys.on (DMA_CRCFG_EN f r.val) = en
      let bad := ({ s with sys := y.post 0x0B09 0 [(f, 1), (r.val, 1)] } : State)
      (y.on (DMA_CRCFG_EN f r.val) = false →
        (ringCfgOk r.val data = false → exec (.canRingEnable who seg r data) s = .next bad)
        ∧ (ringCfgOk r.val data = true → data.testBit 31 = true → y.ringMayRun f r.val (bits data 0 4) = false → y.domUp 0 = true →
          ∃ t, exec (.canRingEnable who seg r data) s = .next t ∧ stored t false ∧ t.sys.posts = y.posts ++ [⟨8, 0x0B0A, 0, f + 256 * r.val⟩]
            ∧ Keeps [.posts] (among [DMA_CRCFG f r.val]) s t)
        ∧ (ringCfgOk r.val data = true → data.testBit 31 = false ∨ y.ringMayRun f r.val (bits data 0 4) = true →
          ∃ t, exec (.canRingEnable who seg r data) s = .next t ∧ stored t (data.testBit 31) ∧ Keeps [] (among [DMA_CRCFG f r.val]) s t))
      ∧ (y.on (DMA_CRCFG_EN f r.val) = true →
        let same := bits data 0 4 = y.get (DMA_CRCFG_LOG2 f r.val) ∧ bits data 8 5 = y.get (DMA_CRCFG_LOW f r.val) ∧ bits data 16 6 = y.get (DMA_CRCFG_HIGH f r.val)
        (same → data.testBit 31 = false → ∃ t, exec (.canRingEnable who seg r data) s = .next t ∧ stored t false ∧ Keeps [] (among [DMA_CRCFG f r.val]) s t)
        ∧ (¬ same ∨ data.testBit 31 = true → exec (.canRingEnable who seg r data) s = .next bad)))
    ∧ (∀ r rest, c.fifo = r :: rest → y.get (DMA_CRCFG_LOW seg.val 0) < c.fifo.length →
      c.draining = true ∨ y.get (DMA_CRCFG_HIGH seg.val 0) ≤ c.fifo.length → y.on (DMA_CRCFG_EN seg.val 0) = true → y.dramGap = none →
      let head := y.get (DMA_CRHEAD_HEAD seg.val 0)
      let size := y.ringSize seg.val 0
      head ≠ y.get (DMA_CRTAIL_TAIL seg.val 0) % size →
      ∃ t, exec (.canRingDrain seg) s = .next t ∧ (t.sys.canAt k).fifo = rest ∧ (t.sys.canAt k).rxSeq = (c.rxSeq + 1) % 2 ^ 32
        ∧ t.sys.mem = memPutBytes y.mem (y.ringAddr seg.val 0 head) ({ r with tag := (c.rxSeq + 1) % 2 ^ 32 }.toBytes 0)
        ∧ t.sys.get (DMA_CRHEAD_HEAD seg.val 0) = (head + 1) % size % 4096 ∧ t.sys.on ⟨DMA_CANINT, seg.val, 1⟩ = true
        ∧ t.sys.word (DMA_CHBYT 8) = (y.word (DMA_CHBYT 8) + 96) % 2 ^ 32
        ∧ Keeps [.can, .memory, .mi, .signals] (among (own ++ [DMA_CRHEAD seg.val 0, DMA_CHBYT 8, DMA_CANINT, PCI_PBA 0])) s t)
    ∧ (c.fifo.length ≤ y.get (DMA_CRCFG_LOW seg.val 0) ∨ y.on (DMA_CRCFG_EN seg.val 0) = false ∨ y.dramGap ≠ none
        ∨ y.get (DMA_CRHEAD_HEAD seg.val 0) = y.get (DMA_CRTAIL_TAIL seg.val 0) % y.ringSize seg.val 0 →
      ∃ t, exec (.canRingDrain seg) s = .next t ∧ t.sys.canAt k = { c with draining := (t.sys.canAt k).draining } ∧ Keeps [.can] (among own) s t)
    ∧ (∀ ring : Fin 2, let r := ring.val + 1
      let q1 := r == 2
      let queue := c.queue q1
      let fetch := y.get (DMA_CRHEAD_FETCH seg.val r)
      let size := y.ringSize seg.val r
      let x := canRecordAt y.mem (y.ringAddr seg.val r fetch) r fetch
      let may := r ∉ c.pausing ∧ y.on (DMA_CRCFG_EN seg.val r) = true ∧ y.canRole k = roleHost ∧ y.dramGap = none ∧ c.failed = false
        ∧ queue.length < y.get (DMA_CRCFG_HIGH seg.val r) ∧ fetch ≠ y.get (DMA_CRTAIL_TAIL seg.val r) % size
      (may → x.refused (y.get (CAN_RATE_DRATE k.val)) = false → (∀ e ∈ queue, e.status ≠ 4) →
        ∃ t, exec (.canRingFeed seg ring) s = .next t ∧ (t.sys.canAt k).queue q1 = queue ++ [x] ∧ (t.sys.canAt k).queue (!q1) = c.queue (!q1)
          ∧ t.sys.get (DMA_CRHEAD_FETCH seg.val r) = (fetch + 1) % size % 4096 ∧ t.sys.word (DMA_CHBYT 9) = (y.word (DMA_CHBYT 9) + 96) % 2 ^ 32
          ∧ Keeps [.can] (among (own ++ [DMA_CRHEAD seg.val r, DMA_CHBYT 9])) s t)
      ∧ (may → x.refused (y.get (CAN_RATE_DRATE k.val)) = true → queue = [] →
        ∃ t, exec (.canRingFeed seg ring) s = .next t ∧ (t.sys.canAt k).queue q1 = [] ∧ (t.sys.canAt k).queue (!q1) = c.queue (!q1)
          ∧ t.sys.get (DMA_CRHEAD_FETCH seg.val r) = (fetch + 1) % size % 4096 ∧ t.sys.get (DMA_CRHEAD_HEAD seg.val r) = (fetch + 1) % size % 4096
          ∧ memBytes t.sys.mem (y.ringAddr seg.val r fetch) (x.toBytes 4).length = x.toBytes 4
          ∧ Keeps [.can, .memory, .mi, .posts, .limits, .signals] (among (own ++ [DMA_CRHEAD seg.val r, DMA_CHBYT 9, DMA_CANINT, PCI_PBA 0])) s t)
      ∧ (y.on (DMA_CRCFG_EN seg.val r) = false ∨ y.canRole k ≠ roleHost ∨ y.dramGap ≠ none ∨ c.failed = true
          ∨ y.get (DMA_CRCFG_HIGH seg.val r) ≤ queue.length ∨ fetch = y.get (DMA_CRTAIL_TAIL seg.val r) % size →
        ∃ t, exec (.canRingFeed seg ring) s = .next t ∧ t.sys.canAt k = { c with pausing := (t.sys.canAt k).pausing } ∧ Keeps [.can] (among own) s t))

/-- R342 to R344: a phase, an overdue request and a change of class. -/
def Obligations.Arbitration : Prop :=
  ∀ s : State,
    let y := s.sys
    let passed := [Part.ang, .fclk, .lfxo, .rtc, .arb]
    (∀ asking, let z := y.toPhase asking
      (∀ a ∈ asking, a < 32 → (y.requester a).stamp = none → (y.requester a).reset = false → (y.requester a).fault = false → (z.requester a).stamp = some y.fclk)
      ∧ ∃ t, exec (.arbitration asking) s = .next t
        ∧ (∀ r, z.winner = some r → t.sys.arb.grant = some r ∧ (t.sys.requester r).stamp = none ∧ (∀ b, b ≠ r → t.sys.requester b = z.requester b)
          ∧ t.sys.get (ARB_RSTAT_MAXWAIT r) = max (y.get (ARB_RSTAT_MAXWAIT r)) (min (z.requester r).wait 65535)
          ∧ z.competes r = true
          ∧ ∀ b, b < 32 → b ≠ r → z.competes b = true → ((b < r → (z.requester b).before (z.requester r) = false) ∧ (r < b → (z.requester r).before (z.requester b) = true)))
        ∧ ((∀ r, r < 32 → z.competes r = false) → t.sys.arb.grant = none)
        ∧ ((∃ r, r < 32 ∧ z.competes r = true) → t.sys.arb.grant ≠ none)
        ∧ t.sys.arb.semaphores = y.arb.semaphores
        ∧ Keeps passed (among ((List.range 32).map ARB_RSTAT)) s t)
    ∧ (∀ r : Fin 32,
      let waits := (y.requester r.val).stamp.isSome = true ∧ (y.requester r.val).waitMax ≠ 0 ∧ y.bit ARB_MASK_MASK r.val = false
      (waits → ∃ t, exec (.requestOverdue r) s = .next t ∧ (t.sys.requester r.val).overdue = true
        ∧ (t.sys.requester r.val).waitMax ≤ (t.sys.requester r.val).wait ∧ (t.sys.requester r.val).stamp = (y.requester r.val).stamp
        ∧ Keeps passed (fun _ => false) s t)
      ∧ (¬ waits → exec (.requestOverdue r) s = .next { s with sys := y.countWaits }))
    ∧ (∀ (r : Fin 32) data, data < 2 ^ 32 →
      (y.on ARB_CTL_LOCK = false →
        ∃ t, exec (.arbRcfgWrite r data) s = .next t ∧ t.sys.get (ARB_RCFG_CLASS r.val) = data % 4 ∧ t.sys.get (ARB_RCFG_WAITMAX r.val) = data / 65536
          ∧ (t.sys.requester r.val).stamp = (y.requester r.val).stamp ∧ (t.sys.requester r.val).wait = (y.countWaits.requester r.val).wait
          ∧ ((y.requester r.val).stamp.isSome = true → (t.sys.requester r.val).cls = data % 4 ∧ (t.sys.requester r.val).waitMax = data / 65536)
          ∧ ((y.requester r.val).stamp.isSome = false → (t.sys.requester r.val).cls = (y.requester r.val).cls)
          ∧ Keeps [.arb] (among [ARB_RCFG r.val]) s t)
      ∧ (y.on ARB_CTL_LOCK = true → ∃ t, exec (.arbRcfgWrite r data) s = .next t ∧ t.sys.word (ARB_RCFG r.val) = y.word (ARB_RCFG r.val)
        ∧ Keeps [.arb, .posts] (fun _ => false) s t))

/-- R347, with the acquiring reads of R346 and the mark of R348. -/
def Obligations.Semaphores : Prop :=
  ∀ (s : State) (who : Agent) (k : Fin 64),
    let y := s.sys
    let x := y.semaphore k.val
    let shows := fun (t : State) (x' : Semaphore) => t.sys.semaphore k.val = x' ∧ t.sys.bit (ARB_SEMH_BITS (k.val / 32)) (k.val % 32) = x'.owner.isSome
      ∧ t.sys.bit (ARB_SEMO_BITS (k.val / 32)) (k.val % 32) = x'.orphan ∧ (∀ j, j ≠ k.val → t.sys.semaphore j = y.semaphore j)
      ∧ Keeps [.arb, .response] (among [ARB_SEMH (k.val / 32), ARB_SEMO (k.val / 32)]) s t
    (x.owner = some (agentId who) →
      (∃ t, exec (.rel who k) s = .next t ∧ shows t { owner := none, orphan := false } ∧ t.sys.response = y.response)
      ∧ (∃ t, exec (.clrorph who k) s = .next t ∧ shows t { x with orphan := false } ∧ t.sys.response = y.response))
    ∧ (x.owner ≠ some (agentId who) →
      exec (.rel who k) s = .next { s with sys := y.post 0x0A02 0 [(k.val, 1)] } ∧ exec (.clrorph who k) s = .next { s with sys := y.post 0x0A02 0 [(k.val, 1)] })
    ∧ (x.owner = none → ∃ t, exec (.semaphoreAcquire who k) s = .next t ∧ shows t { x with owner := some (agentId who) }
      ∧ t.sys.response.value = 2 ^ 31 + (if x.orphan then 2 ^ 30 else 0) + 2 ^ 24 + agentId who * 2 ^ 16)
    ∧ (∀ o, x.owner = some o → o < 32 → ∃ t, exec (.semaphoreAcquire who k) s = .next t ∧ t.sys.arb = y.arb
      ∧ t.sys.response.value = (if o = agentId who then 2 ^ 31 else 0) + (if x.orphan then 2 ^ 30 else 0) + 2 ^ 24 + o * 2 ^ 16
      ∧ Keeps [.response] (fun _ => false) s t)
    ∧ (∀ i, i < 2 → y.peerUp (regDomain (ARB_SEMH i)) = true →
      (∃ t, exec (.rcRegisterRead .mgmt (ARB_SEMH i) 4) s = .next t ∧ t.sys.response.value = y.word (ARB_SEMH i) ∧ Keeps [.response] (fun _ => false) s t)
      ∧ (∃ t, exec (.rcRegisterRead .mgmt (ARB_SEMO i) 4) s = .next t ∧ t.sys.response.value = y.word (ARB_SEMO i) ∧ Keeps [.response] (fun _ => false) s t))

/-- R352, R357 to R369: scrubbing, the replacement of pages, rows and sectors, and the repair record. A lane that runs is in no queue of lanes and
is no donor to itself: the premises that say so rule out states that no run reaches. -/
def Obligations.MemoryIntegrity : Prop :=
  ∀ s : State,
    let y := s.sys
    (∀ mem addr bad,
      let o := addr / 32 * 32
      let a := memoryBase mem + o
      let p := faultBytes bad
      let scr := if o = lastScrubbed mem then [MEM_SCRUB] else []
      let shown := fun (t : State) => t.sys.word MEM_UEA = a % 2 ^ 32 ∧ t.sys.get MEM_UEI_MEM = mem ∧ t.sys.get MEM_UEI_REQ = 15 ∧ t.sys.on MEM_UEI_VALID = true
      (y.scrubs mem = false ∨ lastScrubbed mem < o → exec (.scrubWord mem addr bad) s = .next s)
      ∧ (y.scrubs mem = true → (∀ i, i < 36 → nth 0 bad i % 256 = 0) → (mem = memDram → a ∉ y.mi.poison) →
        (o < lastScrubbed mem → exec (.scrubWord mem addr bad) s = .next s)
        ∧ (o = lastScrubbed mem → ∃ t, exec (.scrubWord mem addr bad) s = .next t ∧ lookupD 0 t.sys.mi.passes mem = lookupD 0 y.mi.passes mem + 1
          ∧ t.sys.get MEM_SCRUB_PASSES = (if mem = memDram then (y.get MEM_SCRUB_PASSES + 1) % 65536 else y.get MEM_SCRUB_PASSES)
          ∧ Keeps [.mi] (among [MEM_SCRUB]) s t))
      ∧ (∀ es, y.scrubs mem = true → o ≤ lastScrubbed mem → rsDecode (y.modeC2 mem) p = .corrected es → (mem = memDram → a ∉ y.mi.poison) →
        let cnt := if mem = memDram then MEM_DCE_COUNT else if mem ≤ 4 then MEM_LCE_COUNT (mem - 1) else if mem = memCtl then MEM_CSCE_COUNT else MEM_LFCE_COUNT
        ∃ t, exec (.scrubWord mem addr bad) s = .next t ∧ t.sys.get cnt = Nat.min (y.get cnt + 1) (2 ^ 32 - 1)
          ∧ (∀ i, i < 32 → memByte t.sys.mem (a + i) = memByte y.mem (a + i) ^^^ (residue p es).getD i 0)
          ∧ (∀ b, b < a ∨ a + 32 ≤ b → memByte t.sys.mem b = memByte y.mem b)
          ∧ (mem = memCtl → y.domUp 0 = true → t.sys.posts = if (y.scrubRun memCtl a).1 = 2 then y.posts ++ [⟨8, 0x0C0A, 0, 0⟩] else y.posts)
          ∧ Keeps [.memory, .mi, .posts] (among (scr ++ if mem = memDram then [MEM_DCE, MEM_STAT] else [cnt.addr])) s t)
      ∧ (y.scrubs mem = true → o ≤ lastScrubbed mem → rsDecode (y.modeC2 mem) p = .uncorrectable →
        (mem = memDram → y.mi.poison.length < 64 → y.domUp 0 = true →
          ∃ t, exec (.scrubWord mem addr bad) s = .next t ∧ t.sys.get MEM_DUE_COUNT = Nat.min (y.get MEM_DUE_COUNT + 1) (2 ^ 32 - 1) ∧ shown t ∧ a ∈ t.sys.mi.poison
            ∧ (∃ more, t.sys.posts = y.posts ++ ⟨8, 0x0C02, 0, a + 15 * 2 ^ 32⟩ :: more)
            ∧ (15 ≤ (y.mi.ueTimes.filter fun x => y.fclk < x + clocksPerSecond).length → t.sys.get MEM_STAT_DRAM = dramFailed)
            ∧ (∀ b, b < a ∨ a + 32 ≤ b → memByte t.sys.mem b = memByte y.mem b)
            ∧ Keeps [.memory, .mi, .posts] (among (scr ++ [MEM_DUE, MEM_UEA, MEM_UEI, MEM_STAT])) s t)
        ∧ (mem = memCtl → ctlRegion o ≤ 1 → y.domUp 0 = true →
          ∃ t, exec (.scrubWord mem addr bad) s = .next t ∧ t.sys.get MEM_CSUE_COUNT = Nat.min (y.get MEM_CSUE_COUNT + 1) (2 ^ 32 - 1) ∧ shown t
            ∧ t.sys.posts = y.posts ++ [⟨8, 0x0C09, 0, ctlRegion o + 256 * o⟩]
            ∧ (∀ b, memByte t.sys.mem b = if a ≤ b ∧ b < a + 32 then 0 else memByte y.mem b)
            ∧ Keeps [.memory, .mi, .posts] (among (scr ++ [MEM_CSUE, MEM_UEA, MEM_UEI])) s t)
        ∧ (∀ n : Fin 4, mem = n.val + 1 → y.runs n = true → y.domUp 0 = true → (∀ r, y.vot.reint = some r → r.donor = n → r.target ≠ n) →
          n ∉ y.vot.shelfQueue → n ∉ y.vot.waiting →
          ∃ t, exec (.scrubWord mem addr bad) s = .next t ∧ t.sys.get MEM_LUE_COUNT = Nat.min (y.get MEM_LUE_COUNT + 1) (2 ^ 32 - 1) ∧ shown t
            ∧ t.sys.runs n = false ∧ t.sys.get (VOT_LSTAT_CAUSE n.val) = 5
            ∧ (∃ more, t.sys.posts = y.posts ++ ⟨8, 0x0C06, 0, n.val + 256 * (o / 1024)⟩ :: ⟨8, 0x1201, 0, n.val + 256 * 5⟩ :: more))))
    ∧ (let k := match y.repairNewest with
        | some n => 1 - n
        | none => 0
      let o := loftBase + repairCopy k
      let fits := y.mi.pages.length < 4096 ∧ (∀ e ∈ y.mi.rows, e.1 < 32768 ∧ e.2 < 64) ∧ (∀ r ∈ y.mi.rowCopies, r.spare < 64) ∧ (∀ e ∈ y.mi.wear ++ y.mi.writes, e.1 < 4096)
      let recorded := fun (t : State) => t.sys.repairOk k = true ∧ (fits → ∀ a, a < o ∨ o + 0x10000 ≤ a → memByte t.sys.mem a = memByte y.mem a)
      (∀ page bad, y.dramUp = false ∨ (y.mi.pageCopies.find? fun r => r.target == page) = none → exec (.pageRetired page bad) s = .next s)
      ∧ (∀ page bad r, y.dramUp = true → (y.mi.pageCopies.find? fun r => r.target == page) = some r → page < 258048 → y.mi.poison.length + bad.length ≤ 64 →
        let base := if page < 229376 then 0x80000000 + 4096 * page else 0x80000000 + 32768 * (page - 229376)
        ∃ t, exec (.pageRetired page bad) s = .next t ∧ recorded t ∧ lookupD 0 t.sys.mi.pages page = r.spare
          ∧ t.sys.mi.pageCopies = y.mi.pageCopies.filter (fun x => x.target != page) ∧ (∀ w ∈ bad, base + 32 * w ∈ t.sys.mi.poison)
          ∧ t.sys.get MEM_SPARE_DPFREE = (4096 - y.mi.pagesUsed.length) % 8192
          ∧ (y.domUp 0 = true → ⟨8, 0x0C01, 0, page + 2 ^ 32 * (r.spare % 65536)⟩ ∈ t.sys.posts)
          ∧ Keeps [.memory, .mi, .posts] (among [MEM_SPARE]) s t)
      ∧ (∀ (n : Fin 4) row bad, (y.mi.rowCopies.find? fun r => r.target == 8192 * n.val + row) = none → exec (.rowRepairDone n row bad) s = .next s)
      ∧ (∀ (n : Fin 4) row r, (y.mi.rowCopies.find? fun r => r.target == 8192 * n.val + row) = some r → row < 8192 →
        ∃ t, exec (.rowRepairDone n row false) s = .next t ∧ recorded t ∧ lookupD 0 t.sys.mi.rows (8192 * n.val + row) = r.spare
          ∧ t.sys.mi.rowCopies = y.mi.rowCopies.filter (fun x => x.target != 8192 * n.val + row)
          ∧ t.sys.get (rowFree n.val) = (64 - (y.mi.rowsUsed.filter fun k => k / 64 == n.val).length) % 128
          ∧ (y.domUp 0 = true → ⟨8, 0x0C07, 0, n.val + 256 * row + 2 ^ 24 * (r.spare % 256)⟩ ∈ t.sys.posts)
          ∧ (y.laneState n ≠ laneReset → Keeps [.memory, .mi, .posts] (among [MEM_LROW]) s t))
      ∧ (∀ (n : Fin 4) row r, (y.mi.rowCopies.find? fun r => r.target == 8192 * n.val + row) = some r →
        ∃ t, exec (.rowRepairDone n row true) s = .next t ∧ lookupD 0 t.sys.mi.rows (8192 * n.val + row) = r.spare)
      ∧ (∃ t, exec .wearCountSave s = .next t ∧ recorded t ∧ ((y.mi.writes.map Prod.fst).Nodup → ∀ p, lookupD 0 t.sys.mi.wear p = y.sectorWear p)
        ∧ Keeps [.memory, .mi, .posts] (fun _ => false) s t))
    ∧ (∀ sector bad, (y.mi.sectorCopies.find? fun r => r.target == sector) = none → exec (.sectorReplaced sector bad) s = .next s)
    ∧ (∀ sector bad r, (y.mi.sectorCopies.find? fun r => r.target == sector) = some r → sector < 3840 →
      ∃ t, exec (.sectorReplaced sector bad) s = .next t ∧ lookupD 0 t.sys.mi.sectors sector = 3840 + r.spare
        ∧ t.sys.get MEM_SPARE_LSFREE = (256 - y.mi.sectorsUsed.length) % 512
        ∧ (y.domUp 0 = true → ⟨8, 0x0C0B, 0, sector + 65536 * ((3840 + r.spare) % 65536)⟩ ∈ t.sys.posts ∧ (r.wear = true → ⟨8, 0x0C0E, 0, 0⟩ ∈ t.sys.posts))
        ∧ (∀ a, memByte t.sys.mem a = if ∃ w ∈ bad, loftBase + 4096 * sector + 32 * w ≤ a ∧ a < loftBase + 4096 * sector + 32 * w + 32 then 0 else memByte y.mem a)
        ∧ Keeps [.memory, .mi, .posts] (among [MEM_SPARE]) s t)
    ∧ (∀ data, let ix := bits data 0 18
      let n := Fin.ofNat 4 (bits data 28 2)
      let x := y.mi
      (bits data 30 2 = 1 → ix < 258048 → (∀ r ∈ x.pageCopies, r.target ≠ ix) →
        (∀ k, freeOf 4096 x.pagesUsed = some k →
          exec (.forcedRepair data) s = .next { s with sys := { y with mi := { x with pageCopies := x.pageCopies ++ [⟨ix, k, 0, false⟩], pagesUsed := k :: x.pagesUsed } } })
        ∧ (freeOf 4096 x.pagesUsed = none → vitalPage ix = false → exec (.forcedRepair data) s = .next { s with sys := y.note 0x0C03 })
        ∧ (freeOf 4096 x.pagesUsed = none → vitalPage ix = true → ∃ t, exec (.forcedRepair data) s = .next t ∧ t.sys.get MEM_STAT_DRAM = dramFailed
          ∧ Keeps [.posts] (among [MEM_STAT]) s t))
      ∧ (∀ q, bits data 30 2 = 1 → 258048 ≤ ix → y.servedPage (ix - 258048) = some q → (∀ r ∈ x.pageCopies, r.target ≠ q) → ∀ k, freeOf 4096 x.pagesUsed = some k →
        exec (.forcedRepair data) s = .next { s with sys := { y with mi := { x with pageCopies := x.pageCopies ++ [⟨q, k, 0, false⟩], pagesUsed := k :: x.pagesUsed } } })
      ∧ ((bits data 30 2 = 1 ∧ ix < 258048 ∧ ∃ r ∈ x.pageCopies, r.target = ix) ∨ (bits data 30 2 = 2 ∧ ix < 8192 ∧ ∃ r ∈ x.rowCopies, r.target = 8192 * n.val + ix)
          ∨ (bits data 30 2 = 3 ∧ ix < 3840 ∧ ∃ r ∈ x.sectorCopies, r.target = ix) ∨ bits data 30 2 = 0 → exec (.forcedRepair data) s = .next s)
      ∧ (bits data 30 2 = 2 → ix < 8192 → (∀ r ∈ x.rowCopies, r.target ≠ 8192 * n.val + ix) →
        (∀ k, ((List.range 64).find? fun k => !x.rowsUsed.contains (64 * n.val + k)) = some k →
          exec (.forcedRepair data) s = .next { s with sys := { y with mi := { x with
            rowCopies := x.rowCopies ++ [⟨8192 * n.val + ix, k, n.val, false⟩], rowsUsed := (64 * n.val + k) :: x.rowsUsed } } })
        ∧ ((∀ k, k < 64 → 64 * n.val + k ∈ x.rowsUsed) → exec (.forcedRepair data) s = .next { s with sys := y.post 0x0C08 0 [(n.val, 1)] }))
      ∧ (bits data 30 2 = 3 → ix < 3840 → (∀ r ∈ x.sectorCopies, r.target ≠ ix) →
        (∀ k, freeOf 256 x.sectorsUsed = some k →
          exec (.forcedRepair data) s = .next { s with sys := { y with mi := { x with sectorCopies := x.sectorCopies ++ [⟨ix, k, 0, false⟩], sectorsUsed := k :: x.sectorsUsed } } })
        ∧ (freeOf 256 x.sectorsUsed = none → exec (.forcedRepair data) s = .next { s with sys := y.note 0x0C0D }))
      ∧ ((bits data 30 2 = 1 ∧ 258048 ≤ ix ∧ y.servedPage (ix - 258048) = none) ∨ (bits data 30 2 = 2 ∧ 8192 ≤ ix) ∨ (bits data 30 2 = 3 ∧ 3840 ≤ ix) → exec (.forcedRepair data) s = .next { s with sys := y.note 0x0C11 }))

/-- R375 to R382: the clock controller and the operating points. -/
def Obligations.ClockCommands : Prop :=
  ∀ s : State,
    let y := s.sys
    (∀ sel gate, (y.on CLK_FMCTL_BUSY = true → exec (.freqMeterGo sel gate) s = .next s)
      ∧ (y.on CLK_FMCTL_BUSY = false → gate % 65536 = 0 → exec (.freqMeterGo sel gate) s = .next { s with sys := y.note 0x0207 })
      ∧ (y.on CLK_FMCTL_BUSY = false → gate % 65536 ≠ 0 → ∃ t, exec (.freqMeterGo sel gate) s = .next t ∧ t.sys.on CLK_FMCTL_BUSY = true
        ∧ t.sys.get CLK_FMCTL_SEL = sel % 8 ∧ t.sys.get CLK_FMCTL_GATE = gate % 65536 ∧ Keeps [] (among [CLK_FMCTL]) s t))
    ∧ (y.on CLK_FMCTL_BUSY = false → ∀ count, exec (.freqMeasurementDone count) s = .next s)
    ∧ (∀ count, y.on CLK_FMCTL_BUSY = true → ∃ t, exec (.freqMeasurementDone count) s = .next t ∧ t.sys.on CLK_FMCTL_BUSY = false
      ∧ t.sys.word CLK_FMRES = (if y.lfxoAbsent then 0 else count % 2 ^ 32) ∧ Keeps [] (among [CLK_FMCTL, CLK_FMRES]) s t)
    ∧ (∀ data, (orphanGate data (y.get CLK_GATE_LANE) = true ∨ y.cutsMux data = true → exec (.clkGateWrite data) s = .next { s with sys := y.note 0x0203 })
      ∧ (orphanGate data (y.get CLK_GATE_LANE) = false → y.cutsMux data = false → data < 2 ^ 32 →
        ∃ t, exec (.clkGateWrite data) s = .next t ∧ t.sys.get CLK_GATE_LANE = y.get CLK_GATE_LANE
          ∧ (∀ f ∈ [CLK_GATE_PLLEN, CLK_GATE_MET, CLK_GATE_PHY, CLK_GATE_DRAM, CLK_GATE_CAN, CLK_GATE_DATA, CLK_GATE_CTL, CLK_GATE_FAB], t.sys.get f = bits data f.lo f.width)
          ∧ t.sys.get CLK_STAT_LOCKED = y.get CLK_STAT_LOCKED &&& bits data 16 5 ∧ Keeps [.clk] (among [CLK_GATE, CLK_STAT]) s t))
    ∧ (∀ data, let l := y.get CLK_STAT_LOCKED
      let bad := ((data.testBit 0 || data.testBit 1) && !l.testBit 0) || (data.testBit 2 && !l.testBit 1)
      (bad = true → exec (.muxSwitchRequest data) s = .next { s with sys := y.note 0x0207 })
      ∧ (bad = false → data < 2 ^ 32 → ∃ t, exec (.muxSwitchRequest data) s = .next t ∧ t.sys.word CLK_CTL % 8 = data % 8
        ∧ t.sys.on CLK_CTL_LOCK = (y.on CLK_CTL_LOCK || data.testBit 31) ∧ t.sys.get CLK_STAT_SWPEND = (data % 8) ^^^ y.get CLK_STAT_SEL
        ∧ (t.sys.get CLK_STAT_SWPEND = 0 → t.sys.on CLK_MONST_WDARM = false ∧ t.sys.clk.watchdogAt = none)
        ∧ Keeps [.clk] (among [CLK_CTL, CLK_STAT, CLK_MONST]) s t))
    ∧ (∀ m : Fin 3, let dest := (y.word CLK_CTL).testBit m.val
      (y.bit CLK_STAT_SWPEND m.val = false → exec (.muxSwitchComplete m) s = .next s)
      ∧ (y.bit CLK_STAT_SWPEND m.val = true → ∃ t, exec (.muxSwitchComplete m) s = .next t ∧ t.sys.bit CLK_STAT_SEL m.val = dest
        ∧ t.sys.get CLK_STAT_SWPEND = (t.sys.word CLK_CTL % 8) ^^^ t.sys.get CLK_STAT_SEL
        ∧ (m = 0 → Keeps [.clk, .posts] (among [CLK_STAT, CLK_MONST]) s t)
        ∧ (m ≠ 0 → dest = false → t.sys.clk.planesHeld = true ∧ ∀ d ∈ planeDomains, t.sys.domUp d = false)
        ∧ (m ≠ 0 → dest = true → 0 ∉ y.clk.missing → t.sys.bit CLK_STAT_SEL 1 = true → t.sys.bit CLK_STAT_SEL 2 = true → t.sys.clk.planesHeld = false)
        ∧ PlanesOnly s t))
    ∧ (∀ k : Fin 7, (k.val ∈ y.clk.missing ∨ y.pwr.inReset = true ∨ (y.pwr.standby = 3 ∧ k ≠ 6) → exec (.clockMissing k) s = .next s)
      ∧ (k.val ∉ y.clk.missing → y.pwr.inReset = false → y.pwr.standby ≠ 3 ∨ k = 6 → y.domUp 0 = true →
        let arbs := [ARB_SEMH 0, ARB_SEMH 1, ARB_SEMO 0, ARB_SEMO 1]
        let fell := fun (t : State) (mask : Nat) => t.sys.word CLK_CTL = y.word CLK_CTL &&& (0xFFFFFFFF ^^^ mask)
          ∧ (t.sys.get CLK_STAT_SWPEND ≠ 0 → t.sys.on CLK_MONST_WDARM = true ∧ t.sys.clk.watchdogAt = some (y.clk.watchdogAt.getD y.ticksNow) ∧ t.sys.clk.fellBack = true)
        ∃ t, exec (.clockMissing k) s = .next t ∧ k.val ∈ t.sys.clk.missing ∧ t.sys.bit CLK_MONST_MISS k.val = true
          ∧ (∃ more, t.sys.posts = y.posts ++ ⟨8, 0x0201, 0, k.val⟩ :: more)
          ∧ (1 ≤ k.val → k.val ≤ 5 → t.sys.bit CLK_STAT_LOCKED (k.val - 1) = false)
          ∧ (k.val ≤ 2 → t.sys.get VOT_STAT_CUFF = cuffReleased ∧ t.sys.hit.stopped = true)
          ∧ (k = 0 → t.sys.get CLK_STAT_LOCKED = 0 ∧ t.sys.clk.planesHeld = true ∧ ∀ d ∈ planeDomains, t.sys.domUp d = false)
          ∧ (k = 1 → fell t 3) ∧ (k = 2 → fell t 4)
          ∧ (k = 3 → t.sys.get MEM_STAT_DRAM = dramFailed ∧ Keeps [.clk, .posts] (among [CLK_STAT, CLK_MONST, MEM_STAT]) s t)
          ∧ (k = 4 → ∀ p, t.sys.linkState p = linkDown)
          ∧ (k = 5 → t.sys.get MET_STAT_FE = feFailed ∧ Keeps [.clk, .posts, .fe, .ang] (among [CLK_STAT, CLK_MONST, MET_STAT, MET_GAPS, ANG_STAT]) s t)
          ∧ (k = 6 → t.sys.pwr.linkUp = false ∧ Keeps [.clk, .posts, .arb, .pwr] (fun a => inBlock 0x17 a || among (CLK_MONST :: arbs) a) s t)
          ∧ PlanesOnly s t))
    ∧ (y.clk.watchdogAt = none → exec .clockWatchdogExpired s = .next s)
    ∧ (y.clk.watchdogAt ≠ none → ∃ t, exec .clockWatchdogExpired s = .next t ∧ ModuleReset s t 4 false
      ∧ t.sys.pwr.postAtStart = y.pwr.postAtStart ++ [(0x0208, 0)])
    ∧ (∀ passes, (0 ∉ y.clk.missing ∨ y.clk.crystalDead = true → exec (.xtalRecheck passes) s = .next s)
      ∧ (0 ∈ y.clk.missing → y.clk.crystalDead = false → ∃ t, exec (.xtalRecheck passes) s = .next t ∧ t.sys.on CLK_STAT_XTALOK = passes
        ∧ (passes = false → Keeps [] (among [CLK_STAT]) s t)
        ∧ (passes = true → 0 ∉ t.sys.clk.missing ∧ t.sys.get CLK_STAT_LOCKED = y.get CLK_GATE_PLLEN
          ∧ (y.bit CLK_STAT_SEL 1 = true → y.bit CLK_STAT_SEL 2 = true → t.sys.clk.planesHeld = false)) ∧ PlanesOnly s t))
    ∧ (∀ p : Fin 5, let locked := fun (t : State) => t.sys.bit CLK_STAT_LOCKED p.val = true ∧ p.val + 1 ∉ t.sys.clk.missing ∧ p.val ∉ t.sys.clk.badPlls ∧ PlanesOnly s t
      (p = 3 → 4 ∈ y.clk.missing → ∃ t, exec (.pllRetry true) s = .next t ∧ locked t)
      ∧ (4 ∉ y.clk.missing → ∀ locks, exec (.pllRetry locks) s = .next s) ∧ exec (.pllRetry false) s = .next s
      ∧ (∀ locks, y.bit CLK_GATE_PLLEN p.val = false ∨ y.bit CLK_STAT_LOCKED p.val = true → exec (.pllLock p locks) s = .next s)
      ∧ (y.bit CLK_GATE_PLLEN p.val = true → y.bit CLK_STAT_LOCKED p.val = false → y.domUp 0 = true →
        (∃ t, exec (.pllLock p true) s = .next t ∧ locked t)
        ∧ (∃ t, exec (.pllLock p false) s = .next t ∧ t.sys.clk.badPlls = p.val :: y.clk.badPlls ∧ (∃ more, t.sys.posts = y.posts ++ ⟨8, 0x0206, 0, p.val⟩ :: more)
          ∧ (p.val ∉ y.clk.badPlls → Keeps [.clk, .posts] (fun _ => false) s t)
          ∧ (p.val ∈ y.clk.badPlls → ∀ d ∈ pllDomains p.val, t.sys.domUp d = false) ∧ PlanesOnly s t)))
    ∧ (∀ op : Fin 4, let old := y.get PWR_OP_CUR
      let started := fun (t : State) => t.sys.on PWR_OP_BUSY = true ∧ t.sys.get PWR_OP_CUR = min old op.val ∧ t.sys.pwr = { y.pwr with opPending := none, opRunning := some (old, op.val) }
      let fits := y.prog.active = true → budgetFits y.prog.budget op.val y.ang.phg y.ang.phc = true
      (y.on PWR_OP_BUSY = true ∨ y.pwr.standby ≠ 0 → exec (.opRequest op) s = .next { s with sys := y.note 0x0305 })
      ∧ (y.on PWR_OP_BUSY = false → y.pwr.standby = 0 → ¬ fits → exec (.opRequest op) s = .next { s with sys := y.note 0x1211 })
      ∧ (y.on PWR_OP_BUSY = false → y.pwr.standby = 0 → fits → ∃ t, exec (.opRequest op) s = .next t ∧ t.sys.get PWR_OP_REQ = op.val
        ∧ (y.cycling = true → t.sys.pwr = { y.pwr with opPending := some (op.val, y.ang.time) } ∧ t.sys.get PWR_OP_CUR = old ∧ t.sys.on PWR_OP_BUSY = false)
        ∧ (y.cycling = false → started t) ∧ Keeps [.pwr] (among [PWR_OP]) s t)
      ∧ (∀ at_, y.pwr.opPending = some (op.val, at_) → ∃ t, exec .opChange s = .next t ∧ started t ∧ t.sys.ang = (y.reach (y.phcAfter at_)).ang
        ∧ Keeps [.ang, .fclk, .lfxo, .rtc, .pwr] (among [PWR_OP]) s t)
      ∧ (∀ was, y.pwr.opRunning = some (was, op.val) → y.domUp 0 = true → ∃ t, exec .opChangeDone s = .next t ∧ t.sys.on PWR_OP_BUSY = false
        ∧ t.sys.get PWR_OP_CUR = op.val ∧ t.sys.pwr = { y.pwr with opRunning := none } ∧ t.sys.posts = y.posts ++ [⟨8, 0x0304, 0, was % 256 + 256 * op.val⟩]
        ∧ Keeps [.posts, .pwr] (among [PWR_OP]) s t))
    ∧ (y.pwr.opPending = none → exec .opChange s = .next s) ∧ (y.pwr.opRunning = none → exec .opChangeDone s = .next s)

/-- R233, R235, R383 to R386, R395, R427, R492, R498. Where no lane runs when a flush is due, its vote follows at once (R80, R234); that case is left to the flush itself. -/
def Obligations.SuppliesAndResets : Prop :=
  ∀ s : State,
    let y := s.sys
    let arbs := [ARB_SEMH 0, ARB_SEMH 1, ARB_SEMO 0, ARB_SEMO 1]
    (y.pwr.inReset = true → y.pwr.heldByRail = false → ∃ t, exec .powerOnRelease s = .next t
        ∧ t.sys.pwr = { y.pwr with inReset := false, pfwLow := false, cause := if y.pwr.cause = 2 then 2 else 1 } ∧ t.sys.on PWR_VMON_PFW = false
        ∧ t.sys.get CLK_STAT_OSCDLY = y.strap.oscdly % 4 ∧ Keeps [.pwr] (among [PWR_VMON, CLK_STAT, ANG_CTL, ANG_FREQ, ANG_FGOOD]) s t)
    ∧ (y.pwr.inReset = false ∨ y.pwr.heldByRail = true → exec .powerOnRelease s = .next s)
    ∧ (y.on PWR_VMON_PFW = true ∨ y.pwr.inReset = true → ∃ t, exec .powerFailWarning s = .next t
      ∧ t.sys.on PWR_VMON_PFW = true ∧ t.sys.pwr = { y.pwr with pfwLow := true } ∧ Keeps [.pwr] (among [PWR_VMON]) s t)
    ∧ (y.on PWR_VMON_PFW = false → y.pwr.inReset = false → y.domUp 0 = true → (y.flushDue = true → ∃ n, y.runs n = true) →
      ∃ t, exec .powerFailWarning s = .next t
      ∧ t.sys.on PWR_VMON_PFW = true ∧ t.sys.on PWR_VMON_PFWSEEN = true ∧ t.sys.get PWR_VMON_PFWCNT = Nat.min (y.get PWR_VMON_PFWCNT + 1) 65535
      ∧ t.sys.pwr = { y.pwr with pfwLow := true }
      ∧ (y.flushDue = false → t.sys.posts = y.posts ++ [⟨8, 0x0301, 0, 0⟩] ∧ t.sys.get MET_STAT_FE = y.get MET_STAT_FE
        ∧ (y.get MET_STAT_FE = feRun → t.sys.fe.bseq = (y.fe.bseq + 1) % 2 ^ 32 ∧ t.sys.fe.gap = true)
        ∧ (y.get MET_STAT_FE ≠ feRun → t.sys.fe = y.fe) ∧ Keeps [.fe, .posts, .pwr] (among [MET_GAPS, PWR_VMON]) s t)
      ∧ (y.flushDue = true → t.sys.posts = y.posts ++ [⟨8, 0x0301, 0, 0⟩, ⟨8, 0x110E, 0, y.fe.lastSample % 2 ^ 64⟩]
        ∧ t.sys.get MET_STAT_FE = feFrozen ∧ t.sys.word MET_FRZL = y.fe.lastSample % 2 ^ 32 ∧ t.sys.fe.flushing = true ∧ t.sys.fe.gap = true
        ∧ t.sys.fe.freeze = y.fe.lastSample ∧ t.sys.vot = { y.vot with flushDue := true }
        ∧ (∀ n, y.runs n = true → (t.sys.lane n).jobs = (y.lane n).jobs ++ [⟨3, (y.lane n).jobSeq, y.ang.cycle, 0, false⟩] ∧ (t.sys.lane n).flushed = false)
        ∧ (∀ n, y.runs n = false → t.sys.lane n = y.lane n)
        ∧ Keeps [.fe, .lanes, .posts, .pwr, .vot] (among [MET_FRZL, MET_GAPS, MET_STAT, PWR_VMON]) s t))
    ∧ (y.on PWR_VMON_PFW = true → y.pwr.inReset = false → y.domUp 0 = true → ∃ t, exec .powerFailClear s = .next t
      ∧ t.sys.on PWR_VMON_PFW = false ∧ t.sys.pwr = { y.pwr with pfwLow := false } ∧ t.sys.posts = y.posts ++ [⟨8, 0x0302, 0, 0⟩]
      ∧ (let resumes := y.fe.flushing = false ∧ y.get MET_STAT_FE = feFrozen
        (resumes → t.sys.get MET_STAT_FE = feRun ∧ t.sys.on MET_CTL_RUN = true ∧ t.sys.fe = { y.fe with gap := true, gapCode := 0x110F })
        ∧ (¬ resumes → t.sys.fe = y.fe ∧ t.sys.get MET_STAT_FE = y.get MET_STAT_FE))
      ∧ Keeps [.fe, .posts, .pwr] (among [MET_CTL, MET_STAT, PWR_VMON]) s t)
    ∧ (y.on PWR_VMON_PFW = true → y.pwr.inReset = true → ∃ t, exec .powerFailClear s = .next t
      ∧ t.sys.on PWR_VMON_PFW = false ∧ t.sys.pwr = { y.pwr with pfwLow := false } ∧ Keeps [.pwr] (among [PWR_VMON]) s t)
    ∧ (y.on PWR_VMON_PFW = false → exec .powerFailClear s = .next s)
    ∧ exec .vmainRises s = .next { s with sys := { y with pwr := { y.pwr with pfwLow := true } } }
    ∧ exec .vmainFalls s = .next { s with sys := { y with pwr := { y.pwr with pfwLow := false } } }
    ∧ (∀ cell, let fires := cell = true ∧ y.on CEL_STAT_SRC = false ∧ y.bit KEY_STAT_TLIVE 3 = true
      ∃ t, exec (.supplySwitch cell) s = .next t ∧ t.sys.on CEL_STAT_SRC = cell
        ∧ (fires → t.sys.bit CEL_TAMP_SRC 3 = true ∧ t.sys.rtc.root = 0) ∧ (¬ fires → Keeps [] (among [CEL_STAT]) s t))
    ∧ (y.pwr.inReset = false →
      (∃ t, exec .brownOut s = .next t ∧ ModuleReset s t 2 true ∧ t.sys.pwr.postAtStart = y.pwr.postAtStart ++ [(0x0303, 0)])
      ∧ (∃ t, exec (.railPowerGoodLost 0) s = .next t ∧ ModuleReset s t 2 true ∧ t.sys.pwr.heldByRail = true)
      ∧ (∃ t, exec .mrst s = .next t ∧ ModuleReset s t 3 false))
    ∧ (y.pwr.inReset = true → exec .mrst s = .next s ∧ (∀ r, exec (.railPowerGoodLost r) s = .next s)
      ∧ exec .brownOut s = .next { s with sys := { y with pwr := { y.pwr with heldByRail := false } } })
    ∧ (y.pwr.heldByRail = false → exec (.railPowerGoodRestored 0) s = .next s)
    ∧ (∃ t, exec (.domainResetCmd 0) s = .next t ∧ ModuleReset s t 7 false)
    ∧ (y.pwr.heldByRail = true → ∃ t, exec (.railPowerGoodRestored 0) s = .next t ∧ t.sys.pwr = { y.pwr with inReset := false, heldByRail := false, cause := 2 }
      ∧ Keeps [.pwr] (among [CLK_STAT, ANG_CTL, ANG_FREQ, ANG_FGOOD]) s t)
    ∧ (∀ r : Fin 8, r ≠ 0 →
      (y.pwr.inReset = false → y.domUp 0 = true → ∃ t, exec (.railPowerGoodLost r) s = .next t ∧ t.sys.bit PWR_RAIL_PG r.val = false
        ∧ t.sys.bit PWR_RAIL_LOST r.val = true ∧ (∃ more, t.sys.posts = y.posts ++ ⟨8, 0x0306, 0, r.val⟩ :: more)
        ∧ (∀ d ∈ railDomains r.val, t.sys.domUp d = false) ∧ PlanesOnly s t)
      ∧ (∃ t, exec (.railPowerGoodRestored r) s = .next t ∧ t.sys.bit PWR_RAIL_PG r.val = true
        ∧ (∀ d, d < 15 → (y.putBit PWR_RAIL_PG r.val true).mayRun d = true → t.sys.domUp d = true) ∧ PlanesOnly s t))
    ∧ (∀ d : Fin 16,
      (d.val ∈ commandDomains → y.domUp 0 = true → ∃ t, exec (.domainResetCmd d) s = .next t ∧ t.sys.domUp d.val = false ∧ d.val ∈ t.sys.pwr.cmdReset
        ∧ (∃ more, t.sys.posts = y.posts ++ more ++ [⟨8, 0x030B, 0, d.val⟩]) ∧ PlanesOnly s t)
      ∧ (d ≠ 0 → d.val ∉ commandDomains → exec (.domainResetCmd d) s = .next { s with sys := y.note 0x030C })
      ∧ (d.val ∈ y.pwr.cmdReset → ∃ t, exec (.domainResetRelease d) s = .next t ∧ d.val ∉ t.sys.pwr.cmdReset
        ∧ (({ y with pwr := { y.pwr with cmdReset := y.pwr.cmdReset.filter fun x => x != d.val } } : Sys).mayRun d.val = true → d.val < 15 → t.sys.domUp d.val = true)
        ∧ PlanesOnly s t)
      ∧ (d.val ∉ y.pwr.cmdReset → exec (.domainResetRelease d) s = .next s))
    ∧ (let cleared := fun (t : State) => (∀ a, inBlock 0x17 a = true → t.sys.reg a = regReset a)
      (∀ cause : Fin 3, ∃ t, exec (.pciReset cause) s = .next t ∧ cleared t ∧ (t.sys.requester 10).reset = decide (cause ≠ 1)
        ∧ t.sys.pwr = (if cause = 1 then y.pwr else { y.pwr with linkUp := false }) ∧ Keeps [.posts, .arb, .pwr] (fun a => inBlock 0x17 a || among arbs a) s t)
      ∧ (∃ t, exec (.perst true) s = .next t ∧ t.sys.pwr = { y.pwr with perstHigh := true, resync := t.sys.pwr.resync } ∧ (y.domUp 14 = true → t.sys.domUp 14 = true)
        ∧ (({ y with pwr := { y.pwr with perstHigh := true } } : Sys).mayRun 14 = true → t.sys.domUp 14 = true) ∧ Keeps [.pwr] (among [PWR_DOM]) s t)
      ∧ (∃ t, exec (.perst false) s = .next t ∧ t.sys.pwr = { y.pwr with perstHigh := false, linkUp := false } ∧ t.sys.domUp 14 = false ∧ cleared t
        ∧ Keeps [.posts, .arb, .pwr] (fun a => inBlock 0x17 a || among (PWR_DOM :: arbs) a) s t))
    ∧ (y.pwr.perstHigh = true → y.pwr.inReset = false → ∃ t, exec .pcieLinkUp s = .next t ∧ t.sys.pwr = { y.pwr with linkUp := true }
      ∧ t.sys.clk = { y.clk with missing := y.clk.missing.filter fun k => k != 6 } ∧ (t.sys.requester 10).reset = false
      ∧ Keeps [.arb, .clk, .pwr] (fun _ => false) s t)
    ∧ (y.pwr.perstHigh = false ∨ y.pwr.inReset = true → exec .pcieLinkUp s = .next s)

/-- R374, R375, R389 to R392, R448. How long a wake takes is open within its limit. -/
def Obligations.StandbyAndStart : Prop :=
  ∀ s : State,
    let y := s.sys
    (∀ who, (who = .host → exec (.standbyRequest who) s = .next { s with sys := y.note 0x0112 })
      ∧ (who ≠ .host → (y.pwr.standby ≠ 0 → exec (.standbyRequest who) s = .next s)
        ∧ (y.pwr.standby = 0 →
          (y.standbyReason ≠ 0 → y.domUp 0 = true → ∃ t, exec (.standbyRequest who) s = .next t ∧ t.sys.get PWR_SBSTAT_REASON = y.standbyReason
            ∧ t.sys.posts = y.posts ++ [⟨8, 0x0309, 0, y.standbyReason⟩] ∧ Keeps [.posts] (among [PWR_SBSTAT]) s t)
          ∧ (y.standbyReason = 0 → y.cycling = true → exec (.standbyRequest who) s = .next { s with sys := { y with pwr := { y.pwr with standby := 1 } } })
          ∧ (y.standbyReason = 0 → y.cycling = false → ∃ t, exec (.standbyRequest who) s = .next t ∧ t.sys.pwr.standby = 3 ∧ t.sys.pwr.standbyDur = y.ticksNow
            ∧ (∀ d, d < 14 → t.sys.domUp d = false) ∧ t.sys.domUp 14 = y.domUp 14 ∧ (∀ p, t.sys.linkState p = linkDown) ∧ t.sys.get VOT_STAT_CUFF = cuffReleased
            ∧ t.sys.on HIT_CTL_RUN = false ∧ t.sys.on MET_CTL_RUN = false ∧ t.sys.mgt.watchdog = none ∧ (∀ n, (t.sys.lane n).jobs = [])
            ∧ Keeps [.draws, .evr, .fab, .fe, .lanes, .limits, .loft, .memory, .mgt, .mi, .ports, .posts, .program, .pwr, .signals, .vot]
              (fun a => inBlock 0x0D a || inBlock 0x10 a || among [CYC_RSTAT, EVR_FSEQ, EVR_INT, EVR_LCNT, EVR_LLOST, EVR_RLOST, EVR_SEQ, EVR_STAT, HIT_CTL, MET_CTL, MET_GAPS, MET_SSEQ,
                MET_SSTAT, MET_STAT, MGT_FINT, PCI_PBA 0, PWR_DOM, SYS_FFIRST, SYS_FFSEQ, SYS_FNEXT, SYS_FNSEQ, SYS_FSTAT, VOT_STAT] a) s t))))
    ∧ (∀ (source : Fin 4) ticks found,
      let enabled := 1 ≤ source.val ∧ y.bit ⟨PWR_SBCFG, 0, 3⟩ (source.val - 1) = true
      let wakes := fun (k : Nat) => ∃ t, exec (.wake source ticks found) s = .next t ∧ t.sys.pwr.standby = 0 ∧ t.sys.pwr.wakeHeld = none
        ∧ t.sys.pwr.standbyDur = (y.passTicks ticks).ticksNow - y.pwr.standbyDur ∧ t.sys.get PWR_SBSTAT_SRC = k ∧ t.sys.get PWR_SBSTAT_WAKET ≤ 25000
        ∧ t.sys.domUp 0 = true ∧ ⟨8, 0x0308, 0, k + 256 * t.sys.get PWR_SBSTAT_WAKET⟩ ∈ t.sys.posts
        ∧ (∀ c rest, found.counts = c :: rest → y.crystalOk c = true → found.deadPlls = [] → y.get CLK_GATE_PLLEN = 31 →
          t.sys.get CLK_STAT_LOCKED = 31 ∧ t.sys.get CLK_STAT_SEL = 7 ∧ t.sys.on CLK_STAT_XTALOK = true ∧ t.sys.clk.planesHeld = false ∧ t.sys.clk.missing = [])
        ∧ ((∀ g : Fin 8, y.get (CAN_STAT_ROLE g.val) = (canSegment y.image g).1) →
          Keeps [.ang, .arb, .can, .clk, .draws, .fclk, .lfxo, .fe, .hit, .mgt, .posts, .pwr, .rtc] (fun a => [2, 3, 4, 0x0A, 0x0E, 0x0F, 0x11].any fun b => inBlock b a) s t)
      (y.pwr.wakeHeld = none → y.pwr.standby = 3 → enabled → wakes source.val)
      ∧ (∀ k, k < 16 → y.pwr.wakeHeld = some k → y.pwr.standby = 3 → wakes k)
      ∧ (y.pwr.wakeHeld = none → y.pwr.standby ≠ 3 → y.pwr.standby ≠ 0 → enabled →
        exec (.wake source ticks found) s = .next { s with sys := { y with pwr := { y.pwr with wakeHeld := some source.val } } })
      ∧ (y.pwr.wakeHeld ≠ none → y.pwr.standby ≠ 3 → exec (.wake source ticks found) s = .next s)
      ∧ (y.pwr.wakeHeld = none → y.pwr.standby = 0 ∨ ¬ enabled → exec (.wake source ticks found) s = .next s))
    ∧ (∀ found, (y.pwr.inReset = true ∨ y.pwr.started = true → exec (.coldStart found) s = .next s)
      ∧ (y.pwr.inReset = false → y.pwr.started = false → y.domUp 0 = true →
        let cause := if y.cellarLost then 1 else y.pwr.cause
        let usable := (found.clocks.counts.take 3).any y.crystalOk
        (usable = false → ∃ t, exec (.coldStart found) s = .next t ∧ t.sys.pwr.started = true ∧ t.sys.clk.crystalDead = true
          ∧ t.sys.clk.planesHeld = true ∧ t.sys.upd = y.upd ∧ t.sys.get UPD_STAT_STATE = y.get UPD_STAT_STATE
          ∧ t.sys.get PWR_RCAUSE_CAUSE = cause % 16 ∧ ⟨8, 0x0205, 0, 0⟩ ∈ t.sys.posts)
        ∧ (usable = true → ∃ t, exec (.coldStart found) s = .next t ∧ t.sys.pwr.started = true ∧ t.sys.get UPD_STAT_STATE = updWaitHost
          ∧ t.sys.get PWR_RCAUSE_CAUSE = cause % 16 ∧ ⟨8, 0x030D, 0, cause % 256⟩ ∈ t.sys.posts ∧ (∃ before, t.sys.posts = before ++ [⟨8, 0x0818, 0, 0⟩])
          ∧ t.sys.get PWR_RAIL_PG = 255 ∧ t.sys.get (KEY_SLOT_STATE 31) = slotValid ∧ t.sys.get (KEY_SLOT_KIND 31) = 3 ∧ t.sys.get MEM_STAT_DRAM = (if found.dramOk then dramRun else dramFailed)
          ∧ (∀ n, n < 3 → t.sys.word (NET_MACL n) = (fuseWord s.fuses 2 + n) % 2 ^ 32)
          ∧ (∀ n, t.sys.bit SYS_FUSE_RETIRE n.val = true → t.sys.laneState n = laneRetired)
          ∧ (found.failedCan = [] → found.failedCells = [] → ∀ a, 0x80000000 ≤ a → a < 0xB8000000 → memByte t.sys.mem a = 0)
          ∧ (∀ c rest, found.clocks.counts = c :: rest → y.crystalOk c = true → found.clocks.deadPlls = [] → y.pwr.standby = 0 → y.pwr.cmdReset = [] → y.pwr.stopped = false →
            t.sys.clk.planesHeld = false ∧ ∀ d, d < 14 → (2 ≤ d → d ≤ 5 → t.sys.laneState (laneOf d) ≠ laneRetired) → t.sys.domUp d = true)
          ∧ (y.prog.active = false → Keeps [.ang, .arb, .can, .clk, .fab, .fe, .hit, .keys, .loft, .memory, .mi, .posts, .pwr, .rtc, .signals, .upd, .vot]
            (fun a => !([4, 9, 0x0F, 0x13, 0x14, 0x15, 0x16].any fun b => inBlock b a)) s t))))

/-- R396 to R411: the cellar's commands and events. -/
def Obligations.CellarAndRtc : Prop :=
  ∀ s : State,
    let y := s.sys
    let refused := ({ s with sys := y.note 0x0507 } : State)
    let sealed := fun (t : State) => t.sys.word CEL_INTEG = t.sys.integ
    let time := [Part.ang, .fclk, .lfxo, .rtc]
    let carry := y.gainTicks (32768 - y.rtc.sub)
    (∀ who, ∃ t, exec (.rtcTimesRead who) s = .next t ∧ t.sys.response.value = y.rtc.sec % 2 ^ 32 ∧ t.sys.word RTC_TIMES = y.rtc.sec % 2 ^ 32
      ∧ t.sys.word RTC_TIMEF = y.rtc.sub % 2 ^ 32
      ∧ (let c := civilOf y.rtc.sec
        t.sys.word RTC_CAL0 = (c.year * 65536 + c.month * 256 + c.day) % 2 ^ 32
          ∧ t.sys.word RTC_CAL1 = (c.second / 3600 * 65536 + c.second / 60 % 60 * 256 + c.second % 60) % 2 ^ 32)
      ∧ Keeps [.response] (among [RTC_TIMES, RTC_TIMEF, RTC_CAL0, RTC_CAL1]) s t)
    ∧ (∀ who, let crosses := fun (i : Instr) (v sec sub : Nat) =>
        (y.on RTC_STAT_BUSY = true → exec i s = .next refused)
        ∧ (y.on RTC_STAT_BUSY = false → ∃ t, exec i s = .next t ∧ t.sys.rtc = { y.rtc with write := some ⟨RTC_CMD, v, sec, sub⟩ } ∧ t.sys.on RTC_STAT_BUSY = true
          ∧ Keeps [.rtc] (among [RTC_STAT]) s t)
      let noShift := y.on RTC_STAT_VALID = false ∨ 16384 < (sint 16 (y.get RTC_SHIFT_K)).natAbs ∨ y.on RTC_STAT_SHPEND = true
      let noAlarm := y.on RTC_STAT_VALID = false ∨ (y.word RTC_ALMR = 0 ∧ y.word RTC_ALMS ≤ y.rtc.sec)
      crosses (.rtcSet who) 1 (y.word RTC_SETS) (y.get RTC_SETF_SUB)
        ∧ (noShift → exec (.shift who) s = .next refused) ∧ (¬ noShift → crosses (.shift who) 2 (y.get RTC_SHIFT_K) 0)
        ∧ (noAlarm → exec (.almarm who) s = .next refused) ∧ (¬ noAlarm → crosses (.almarm who) 4 y.rtc.sec y.rtc.sub)
        ∧ crosses (.almoff who) 8 y.rtc.sec y.rtc.sub
        ∧ (y.get RTC_PER_P = 0 → exec (.peron who) s = .next refused) ∧ (y.get RTC_PER_P ≠ 0 → crosses (.peron who) 16 y.rtc.sec y.rtc.sub)
        ∧ crosses (.peroff who) 32 y.rtc.sec y.rtc.sub)
    ∧ (y.rtc.write = none → exec .cellarWriteEffect s = .next s)
    ∧ (∀ w, y.rtc.write = some w → y.domUp 0 = true →
      let z := y.passTicks 2
      let due := y.on RTC_ALMST_ARMED = true ∧ y.word RTC_ALMNEXT ≤ z.rtc.sec ∧ z.rtc.skipped = 0
      ∃ t, exec .cellarWriteEffect s = .next t ∧ sealed t ∧ t.sys.on RTC_STAT_BUSY = false ∧ t.sys.rtc.write = none ∧ (t.sys.on RTC_CTL_TCEN = false → t.sys.rtc.comp = 0)
        ∧ t.sys.ang = z.ang
        ∧ (w.addr = RTC_CMD →
          (w.value = 1 → t.sys.rtc.sec = w.sec ∧ t.sys.rtc.sub = w.sub ∧ t.sys.rtc.shift = none ∧ t.sys.on RTC_STAT_VALID = true ∧ t.sys.on RTC_STAT_SHPEND = false
            ∧ t.sys.get RTC_STAT_ADJCNT = (y.get RTC_STAT_ADJCNT + 1) % 256 ∧ t.sys.get RTC_WDAY_WDAY = weekdayOf (w.sec / 86400)
            ∧ (∃ mid, t.sys.posts = y.posts ++ mid ++ [⟨8, 0x0501, 0, z.rtc.sec % 2 ^ 32 + 2 ^ 32 * (w.sec % 2 ^ 32)⟩] ∧ (¬ due → mid = []) ∧ (due → y.pwr.inReset = false → mid = [⟨8, 0x0503, 0, 0⟩]))
            ∧ (¬ due → y.on RTC_STAT_VALID = true → z.rtc.sec < w.sec → y.on RTC_ALMST_ARMED = true → y.word RTC_ALMNEXT ≤ w.sec →
              t.sys.rtc.skipped = if z.rtc.almr = 0 then 1 else (w.sec - y.word RTC_ALMNEXT) / z.rtc.almr + 1))
          ∧ (w.value = 2 → t.sys.on RTC_STAT_SHPEND = true ∧ t.sys.rtc.shift = some (sint 16 w.sec))
          ∧ (w.value = 4 → z.armRefused = false → t.sys.on RTC_ALMST_ARMED = true ∧ t.sys.word RTC_ALMLAST = z.rtc.sec % 2 ^ 32 ∧ t.sys.rtc.almr = y.word RTC_ALMR
            ∧ t.sys.word RTC_ALMNEXT = (if z.rtc.sec < y.word RTC_ALMS then y.word RTC_ALMS
              else y.word RTC_ALMS + ((z.rtc.sec - y.word RTC_ALMS) / y.word RTC_ALMR + 1) * y.word RTC_ALMR) % 2 ^ 32)
          ∧ (w.value = 4 → z.armRefused = true → t.sys.posts = y.posts ++ [⟨8, 0x0507, 0, 0⟩] ∧ t.sys.reg RTC_ALMST = y.reg RTC_ALMST)
          ∧ (w.value = 8 → t.sys.on RTC_ALMST_ARMED = false)
          ∧ (w.value = 16 → t.sys.on RTC_PER_PEREN = true ∧ t.sys.rtc.period = y.get RTC_PER_P ∧ t.sys.rtc.perCount = 0 ∧ t.sys.rtc.perAt = 128 * y.get RTC_PER_P)
          ∧ (w.value = 32 → t.sys.on RTC_PER_PEREN = false))
        ∧ (w.addr = RTC_ALMS ∨ w.addr = RTC_ALMR → t.sys.word w.addr = w.value % 2 ^ 32)
        ∧ Keeps (time ++ [.posts, .signals, .pwr]) (fun a => inBlock 5 a || among [CEL_INTEG, PCI_PBA 0, w.addr] a) s t)
    ∧ (y.rtc.shift = none → exec .shiftApply s = .next s)
    ∧ (∀ k, y.rtc.shift = some k → y.domUp 0 = true → ∃ t, exec .shiftApply s = .next t
      ∧ t.sys.rtc.sec = (if 0 ≤ k then carry.rtc.sec else (carry.rtc.sec + 2 ^ 32 - 1) % 2 ^ 32)
      ∧ t.sys.rtc.sub = (if 0 ≤ k then k.toNat else (32768 + k).toNat) ∧ t.sys.rtc.shift = none ∧ t.sys.on RTC_STAT_SHPEND = false
      ∧ t.sys.get RTC_STAT_ADJCNT = (y.get RTC_STAT_ADJCNT + 1) % 256 ∧ t.sys.posts = y.posts ++ [⟨8, 0x0502, 0, unsint 16 k⟩]
      ∧ Keeps (time ++ [.posts]) (among [RTC_STAT]) s t)
    ∧ (y.rtc.comp = 0 → y.rtc.acc < 2 ^ 32 → y.lfxo < 390625 → y.rtc.sub < 32768 → carry.rtc.sec = (y.rtc.sec + 1) % 2 ^ 32 ∧ carry.rtc.sub = 0)
    ∧ (y.on RTC_ALMST_ARMED = false → exec .alarmFire s = .next s)
    ∧ (y.on RTC_ALMST_ARMED = true → y.domUp 0 = true →
      let counted := y.rtc.skipped = 0
      let n := y.word RTC_ALMNEXT
      let code := if y.rtc.skipped = 0 then 0x0503 else 0x0504
      let data := Nat.min y.rtc.skipped 65535
      ∃ t, exec .alarmFire s = .next t ∧ sealed t ∧ t.sys.rtc.skipped = 0 ∧ t.sys.on RTC_INT_ALM = true ∧ t.sys.on RTC_ALMST_OFFPWR = y.pwr.inReset
        ∧ t.sys.on RTC_ALMST_SKIPPED = decide (y.rtc.skipped ≠ 0) ∧ t.sys.get RTC_ALMST_SKIPCNT = data
        ∧ t.sys.on RTC_ALMST_ARMED = decide (y.rtc.almr ≠ 0)
        ∧ (counted → t.sys.word RTC_ALMLAST = n ∧ t.sys.word RTC_ALMNEXT = (n + y.rtc.almr) % 2 ^ 32 ∧ t.sys.rtc = { (y.reachSec n).rtc with skipped := 0 })
        ∧ (¬ counted → t.sys.word RTC_ALMLAST = y.rtc.skipLast % 2 ^ 32 ∧ t.sys.word RTC_ALMNEXT = (if y.rtc.almr = 0 then n else (y.rtc.skipLast + y.rtc.almr) % 2 ^ 32))
        ∧ (y.pwr.inReset = false → t.sys.posts = y.posts ++ [⟨8, code, 0, data⟩] ∧ t.sys.pwr = y.pwr)
        ∧ (y.pwr.inReset = true → t.sys.posts = y.posts ∧ t.sys.pwr.postAtStart = y.pwr.postAtStart ++ [(code, data), (0x0505, 0)])
        ∧ Keeps (time ++ [.posts, .signals, .pwr]) (among [RTC_ALMST, RTC_ALMLAST, RTC_ALMNEXT, RTC_INT, CEL_INTEG, PCI_PBA 0]) s t)
    ∧ (let z := if y.rtc.sec = 2 ^ 32 - 1 then carry else y
      (z.rtc.wrapped = false → exec .rtcWrap s = .next { s with sys := z })
      ∧ (z.rtc.wrapped = true → z.domUp 0 = true → ∃ t, exec .rtcWrap s = .next t ∧ t.sys.on RTC_STAT_VALID = false ∧ t.sys.rtc = { z.rtc with wrapped := false }
        ∧ t.sys.posts = y.posts ++ [⟨8, 0x0508, 0, 0⟩] ∧ sealed t ∧ Keeps (time ++ [.posts]) (among [RTC_STAT, CEL_INTEG]) s t))
    ∧ (let z := if y.rtc.sec / 86400 = y.rtc.day ∧ y.rtc.sec % 86400 = 86399 then carry else y
      (z.rtc.sec / 86400 = z.rtc.day → exec .rtcDayChange s = .next { s with sys := z })
      ∧ (z.rtc.sec / 86400 ≠ z.rtc.day → ∃ t, exec .rtcDayChange s = .next t
        ∧ t.sys.get RTC_WDAY_WDAY = (if y.get RTC_WDAY_WDAY = 7 then 1 else y.get RTC_WDAY_WDAY + 1) ∧ t.sys.rtc = { z.rtc with day := z.rtc.sec / 86400 }
        ∧ Keeps time (among [RTC_WDAY]) s t))
    ∧ (y.on RTC_PER_PEREN = false → exec .periodicEvent s = .next s)
    ∧ (y.on RTC_PER_PEREN = true → let z := y.gainTicks (y.rtc.perAt - y.rtc.perCount)
      ∃ t, exec .periodicEvent s = .next t ∧ t.sys.on RTC_INT_PER = true ∧ t.sys.rtc = { z.rtc with perAt := y.rtc.perAt + 128 * y.rtc.period }
        ∧ Keeps time (among [RTC_INT]) s t)
    ∧ (∀ temp, (y.on RTC_CTL_TCEN = false → exec (.rtcTempMeasure temp) s = .next s)
      ∧ (y.on RTC_CTL_TCEN = true →
        let raw := errorUnits (sint 16 (y.get RTC_TCT_OFS)) (sint 16 (y.get RTC_TCK_K)) (temp - sint 16 (y.get RTC_TCT_T0))
        let e := max (-1671168000) (min 1671168000 raw)
        let ppm := 64 * 102400 * 1000000
        ∃ t, exec (.rtcTempMeasure temp) s = .next t ∧ t.sys.get RTC_TEMP_T = unsint 16 temp
          ∧ (e < 0 → t.sys.rtc.comp ≤ 0) ∧ (0 ≤ e → 0 ≤ t.sys.rtc.comp)
          ∧ 2 * t.sys.rtc.comp.natAbs * ppm ≤ 2 * e.natAbs * 2 ^ 32 + ppm ∧ 2 * e.natAbs * 2 ^ 32 < 2 * t.sys.rtc.comp.natAbs * ppm + ppm
          ∧ ((sint 16 (t.sys.get RTC_TEMP_E)).natAbs - e.natAbs / 102400 ≤ 1 ∧ e.natAbs / 102400 ≤ (sint 16 (t.sys.get RTC_TEMP_E)).natAbs)
          ∧ Keeps [.rtc] (among [RTC_TEMP]) s t))
    ∧ exec .retentionTrip s = .next { s with sys := { y with rtc := { y.rtc with retlost := true } } }
    ∧ (∀ mv, (y.on MGT_STAT_FWRUN = false → exec (.cellMeasurement mv) s = .next s)
      ∧ (y.on MGT_STAT_FWRUN = true → y.domUp 0 = true →
        let v := Nat.min mv 65535
        let low := v < y.get CEL_CLOW_MV
        ∃ t, exec (.cellMeasurement mv) s = .next t ∧ t.sys.get CEL_CELL_MV = v ∧ t.sys.get (MGT_SEN_VALUE 13) = v ∧ (low → t.sys.on CEL_CELL_LOW = true)
          ∧ (low → t.sys.mgt.cellWarned = true ∧ t.sys.posts = if y.mgt.cellWarned then y.posts else y.posts ++ [⟨8, 0x0602, 0, v⟩])
          ∧ (y.get CEL_CLOW_MV + 100 ≤ v → t.sys.mgt.cellWarned = false ∧ t.sys.posts = if y.mgt.cellWarned then y.posts ++ [⟨8, 0x0603, 0, v⟩] else y.posts)
          ∧ (¬ low → v < y.get CEL_CLOW_MV + 100 → t.sys.mgt = y.mgt ∧ t.sys.posts = y.posts)
          ∧ Keeps [.posts, .mgt] (among [CEL_CELL, MGT_SEN 13]) s t))

/-- R418 to R420, R425, R426: the operations. The nonce of SIGN and the bytes of RANDOM are open. -/
def Obligations.KeyStore : Prop :=
  ∀ s : State,
    let y := s.sys
    let res := [KEY_RES, KEY_STAT]
    let input := y.keyInput
    let dst := y.word KEY_DST
    let dlen := y.get KEY_DLEN_LEN
    let slen := y.get KEY_SLEN_LEN
    let bufs := inMgmtSram (y.word KEY_SRC) slen = true ∧ inMgmtSram dst dlen = true
    let usable := fun (n : Nat) (kinds : List Nat) => n < 32 ∧ y.get (KEY_SLOT_STATE n) = slotValid ∧ y.get (KEY_SLOT_KIND n) ∈ kinds ∧ (n = 0 → y.get KEY_STAT_ROOT ≠ rootNone)
    let runs := fun (t : State) (code : Nat) => t.sys.keys.running = some (code, dst, dlen) ∧ t.sys.on KEY_STAT_BUSY = true ∧ t.sys.word KEY_RES = 0
    let writes := fun (i : Instr) (bs : List Nat) (code : Nat) => ∃ t, exec i s = .next t ∧ runs t code ∧ t.sys.mem = memPutBytes y.mem dst bs
      ∧ t.sys.keys.slots = y.keys.slots ∧ Keeps [.memory, .keys] (among res) s t
    let fills := fun (i : Instr) (slot kind parent : Nat) (key : List Nat) (info : List Nat) => ∃ t, exec i s = .next t ∧ runs t 0 ∧ t.sys.get (KEY_SLOT_STATE slot) = slotValid
      ∧ t.sys.get (KEY_SLOT_KIND slot) = kind ∧ t.sys.get (KEY_SLOT_PARENT slot) = parent ∧ t.sys.slotKey slot = ⟨numLE key, info⟩
      ∧ (∀ n, n ≠ slot → t.sys.slotKey n = y.slotKey n) ∧ (∀ n ∈ y.descendants [slot] 31, n ≠ slot → t.sys.get (KEY_SLOT_STATE n) = slotRevoked)
      ∧ (∀ n, n < 32 → n ≠ slot → n ∉ y.descendants [slot] 31 → t.sys.reg (KEY_SLOT n) = y.reg (KEY_SLOT n))
      ∧ Keeps [.keys, .hit, .posts] (fun a => inBlock 7 a) s t
    (y.keys.running = none → bufs →
      (∀ slot parent kind, usable parent [0, 1, 2] → 1 ≤ slot → slot ≤ 30 → kind ≤ 2 → 1 ≤ slen → slen ≤ 64 →
        fills (.derive slot parent kind) slot kind parent (hkdfSha256 (y.keyBytes parent) y.uid input 32) input)
      ∧ (∀ slot kind x, usable 31 [3] → ecdhShared (y.slotKey 31).key input = some x → 1 ≤ slot → slot ≤ 30 → kind ≤ 2 → slen = 64 →
        fills (.ecdh slot kind) slot kind 31 (hkdfSha256 x y.uid ecdhInfo 32) ecdhInfo)
      ∧ (∀ slot, 1 ≤ slot → slot ≤ 30 → ∃ t, exec (.erase slot) s = .next t ∧ runs t 0 ∧ t.sys.get (KEY_SLOT_STATE slot) = slotEmpty
        ∧ t.sys.slotKey slot = ⟨0, []⟩ ∧ (∀ n ∈ y.descendants [slot] 31, n ≠ slot → t.sys.get (KEY_SLOT_STATE n) = slotRevoked)
        ∧ Keeps [.keys, .hit, .posts] (fun a => inBlock 7 a) s t)
      ∧ (let p := gcmParts input
        (∀ slot, usable slot [1] → y.gcmFits 0 slen = true → p.2.2.length + 16 ≤ dlen →
          let r := gcmEncrypt (y.keyBytes slot) p.1 p.2.1 p.2.2
          writes (.gcmenc slot) (r.1 ++ r.2) 0)
        ∧ (∀ slot, usable slot [1] → y.gcmFits 16 slen = true → p.2.2.length - 16 ≤ dlen →
          let r := gcmDecrypt (y.keyBytes slot) p.1 p.2.1 (p.2.2.take (p.2.2.length - 16))
          (r.2 = p.2.2.drop (p.2.2.length - 16) → writes (.gcmdec slot) r.1 0)
          ∧ (r.2 ≠ p.2.2.drop (p.2.2.length - 16) → writes (.gcmdec slot) (List.replicate dlen 0) 0x0704)))
      ∧ (∀ slot, usable slot [2] → 32 ≤ dlen → writes (.hmac slot) (hmacSha256 (y.keyBytes slot) input) 0)
      ∧ (32 ≤ dlen → writes .sha256 (sha256 input) 0)
      ∧ (usable 31 [3] → slen = 32 → 64 ≤ dlen → ∃ t r, exec .sign s = .next t ∧ runs t 0 ∧ t.sys.mem = memPutBytes y.mem dst (ecdsaSign (y.slotKey 31).key input r)
        ∧ Keeps [.memory, .keys, .draws] (among res) s t)
      ∧ (slen = 160 → ∃ t, exec .verify s = .next t ∧ runs t (if ecdsaVerify (input.take 64) ((input.drop 64).take 32) (input.drop 96) then 0 else 0x0704)
        ∧ Keeps [.keys] (among res) s t)
      ∧ (y.keys.trngFailed = false → 1 ≤ dlen → dlen ≤ 4096 →
        writes (.random false) (List.replicate dlen 0) 0x0716
          ∧ ∃ t, exec (.random true) s = .next t ∧ runs t 0 ∧ t.sys.draws = y.draws + dlen ∧ (∀ a, a < dst ∨ dst + dlen ≤ a → memByte t.sys.mem a = memByte y.mem a)
            ∧ Keeps [.memory, .keys, .draws] (among res) s t)
      ∧ (let e := numLE input
        ∀ slot, usable slot [0, 1, 2] → slen = 2 → hitEntryOk e = true → y.underHit slot 32 = true → ∃ t, exec (.hitload slot) s = .next t ∧ runs t 0
          ∧ t.sys.hit = { y.hit with keys := (e, slot, (y.slotKey slot).key) :: y.hit.keys.filter fun k => k.1 != e } ∧ Keeps [.hit, .keys] (among res) s t))
    ∧ (∀ slot parent kind healthy, let ops := [.derive slot parent kind, .erase slot, .gcmenc slot, .gcmdec slot, .hmac slot, .sha256, .sign, .verify, .ecdh slot kind, .random healthy, .hitload slot]
      let ends := fun (i : Instr) (code : Nat) => ∃ t, exec i s = .next t ∧ t.sys.get KEY_RES_CODE = code ∧ t.sys.posts = y.posts ++ [⟨8, code, 0, 0⟩] ∧ Keeps [.posts] (among [KEY_RES]) s t
      y.domUp 0 = true →
        (y.keys.running.isSome = true → ∀ i ∈ ops, ends i 0x0714)
        ∧ (y.keys.running = none →
          (y.keys.trngFailed = true → ends (.random healthy) 0x0716)
          ∧ (y.get KEY_STAT_ROOT = rootNone → ends (.derive slot 0 kind) 0x0705)
          ∧ (∀ n, 1 ≤ n → n < 32 →
            (y.get (KEY_SLOT_STATE n) = slotEmpty → ends (.derive slot n kind) 0x0701 ∧ ends (.gcmenc n) 0x0701 ∧ ends (.gcmdec n) 0x0701 ∧ ends (.hmac n) 0x0701 ∧ ends (.hitload n) 0x0701)
            ∧ (y.get (KEY_SLOT_STATE n) = slotRevoked →
              (y.get (KEY_SLOT_KIND n) ≤ 2 → ends (.derive slot n kind) 0x0702 ∧ ends (.hitload n) 0x0702)
              ∧ (y.get (KEY_SLOT_KIND n) = 1 → ends (.gcmenc n) 0x0702 ∧ ends (.gcmdec n) 0x0702) ∧ (y.get (KEY_SLOT_KIND n) = 2 → ends (.hmac n) 0x0702)))))
    ∧ (y.keys.running = none → exec .keyOperationDone s = .next s)
    ∧ (∀ code a n, y.keys.running = some (code, a, n) → code < 65536 → y.domUp 0 = true → ∃ t, exec .keyOperationDone s = .next t ∧ t.sys.keys.running = none
      ∧ t.sys.on KEY_STAT_BUSY = false ∧ t.sys.on KEY_RES_DONE = true ∧ t.sys.get KEY_RES_CODE = code
      ∧ t.sys.posts = (if code = 0 then y.posts else y.posts ++ [⟨8, code, 0, 0⟩]) ∧ Keeps [.keys, .posts] (among res) s t)

/-- R94, R101, R415, R416, R427 to R429. That several lanes retired at once stay RETIRED is said where no lane that is RETIRED before waits
for a reintegration or is the target of one, which only states that no run reaches have. -/
def Obligations.FusesAndTamper : Prop :=
  ∀ s : State,
    let y := s.sys
    (∀ w b, (y.keys.burning.isSome = true → exec (.fuseBurn w b) s = .next { s with sys := y.note 0x0714 })
      ∧ (y.keys.burning = none → y.burnRefused w (b % 2 ^ 32) = true → y.domUp 0 = true → ∃ t, exec (.fuseBurn w b) s = .next t ∧ t.sys.on KEY_FRES_DONE = true
        ∧ t.sys.get KEY_FRES_CODE = 0x070E ∧ t.sys.posts = y.posts ++ [⟨8, 0x070E, 0, 0⟩] ∧ Keeps [.posts] (among [KEY_FRES]) s t)
      ∧ (y.keys.burning = none → y.burnRefused w (b % 2 ^ 32) = false → ∃ t, exec (.fuseBurn w b) s = .next t ∧ t.sys.keys = { y.keys with burning := some (w, b % 2 ^ 32) }
        ∧ t.sys.word KEY_FRES = 0 ∧ Keeps [.keys] (among [KEY_FRES]) s t))
    ∧ (∀ r, y.keys.burning = none → exec (.fuseBurnDone r) s = .next s)
    ∧ (∀ r w b, y.keys.burning = some (w, b) → b < 2 ^ 32 → r < 2 ^ 32 → y.domUp 0 = true →
      let want := fuseWord s.fuses w ||| b
      let retires := w = 4 ∧ b &&& retireBits ≠ 0
      let quiet := ∀ m, y.laneState m = laneRetired → m ∉ y.vot.shelfQueue ∧ m ∉ y.vot.waiting ∧ ∀ q, y.vot.reint = some q → q.target ≠ m
      ∃ t, exec (.fuseBurnDone r) s = .next t ∧ t.sys.keys = { y.keys with burning := none } ∧ t.sys.on KEY_FRES_DONE = true
        ∧ fuseWord t.fuses w = fuseWord s.fuses w ||| (r &&& b) ∧ (∀ k, k ≠ w → fuseWord t.fuses k = fuseWord s.fuses k)
        ∧ t.sys.word SYS_FUSE = fuseWord t.fuses 4 % 1024
        ∧ (r = want → t.sys.get KEY_FRES_CODE = 0)
        ∧ (r ≠ want → ¬ retires → t.sys.get KEY_FRES_CODE = 0x070D ∧ t.sys.posts = y.posts ++ [⟨8, 0x070D, 0, w % 256⟩])
        ∧ (r = want → ¬ retires → t.sys.posts = y.posts)
        ∧ (retires → ∀ n : Fin 4, b.testBit (3 + n.val) = true → (blown t.fuses 4 (3 + n.val) = true →
            (retireLanes b = [n] ∨ quiet → t.sys.laneState n = laneRetired) ∧ n ∉ t.sys.vot.burns ∧ ⟨8, 0x1205, 0, n.val⟩ ∈ t.sys.posts)
          ∧ (blown t.fuses 4 (3 + n.val) = false → n ∈ t.sys.loft.unburned ∧ ⟨8, 0x1213, 0, n.val⟩ ∈ t.sys.posts))
        ∧ t.pending = s.pending
        ∧ (¬ retires → SysKeeps [.keys, .posts] (fun a => inBlock 1 a || among [KEY_FRES] a) y t.sys)
        ∧ (y.vot.flushDue = false → SysKeeps [.keys, .posts, .vot, .loft, .lanes]
          (fun a => inBlock 1 a || among ([KEY_FRES, CLK_GATE, PWR_DOM, VOT_STAT] ++ allLanes.map fun n => VOT_LSTAT n.val) a) y t.sys))
    ∧ (∀ k : Fin 6,
      (∃ t, exec (.tamperConditionCleared k) s = .next t ∧ t.sys.bit KEY_STAT_TLIVE k.val = false ∧ (∀ j, j ≠ k.val → t.sys.bit KEY_STAT_TLIVE j = y.bit KEY_STAT_TLIVE j)
        ∧ Keeps [] (among [KEY_STAT]) s t)
      ∧ ∃ t, exec (.tamper k) s = .next t ∧ t.sys.bit KEY_STAT_TLIVE k.val = true
        ∧ (y.tamperEnabled k.val = false → Keeps [] (among [KEY_STAT]) s t)
        ∧ (y.tamperEnabled k.val = true → t.sys.bit CEL_TAMP_SRC k.val = true ∧ t.sys.word CEL_INTEG = t.sys.integ ∧ t.sys.rtc.root = 0
          ∧ (y.darkNow = true → t.sys.rtc.dark = y.rtc.dark ||| 2 ^ k.val)
          ∧ (y.darkNow = false → y.domUp 0 = true → ∃ before, t.sys.posts = before ++ [⟨8, 0x070F, 0, t.sys.get CEL_TAMP_SRC⟩])
          ∧ (y.rtc.root = 0 → Keeps [.posts, .rtc] (among [KEY_STAT, CEL_TAMP, CEL_INTEG]) s t)
          ∧ (y.rtc.root ≠ 0 → t.sys.get KEY_STAT_ROOT = rootNone ∧ t.sys.get (KEY_SLOT_STATE 0) = slotEmpty ∧ t.sys.slotKey 0 = ⟨0, []⟩
            ∧ (∀ n ∈ y.descendants [0] 31, n ≠ 0 → t.sys.get (KEY_SLOT_STATE n) = slotRevoked)
            ∧ t.sys.keys.running = none
            ∧ (∀ code dst n, y.keys.running = some (code, dst, n) → t.sys.get KEY_RES_CODE = 0x0703 ∧ t.sys.on KEY_RES_DONE = true)
            ∧ (∀ p, p < 16 → t.sys.on (LCK_PBIND_VALID p) = true → t.sys.get (LCK_PBIND_LOCKER p) = 0))
          ∧ Keeps [.dma, .draws, .hit, .hostMemory, .keys, .lck, .memory, .mi, .posts, .rtc]
            (fun a => [7, 0x0B, 0x15].any (fun b => inBlock b a) || among ([CEL_TAMP, CEL_INTEG] ++ (List.range 8).map EVR_CBIND) a) s t))

/-- R421 to R424, R430, R433, R434, R436, R438, R445. The nonce of the report's signature is open. -/
def Obligations.OwnersAndTickets : Prop :=
  ∀ s : State,
    let y := s.sys
    (∀ who, y.mbxGate true = .open → y.domUp 0 = true →
      let taken := fun (t : State) (op code : Nat) => t.sys.upd.running = some op ∧ t.sys.upd.result = code ∧ t.sys.on UPD_RES_BUSY = true ∧ t.sys.on UPD_RES_DONE = false
        ∧ t.sys.get UPD_RES_CODE = 0 ∧ t.sys.pwr = (y.ringDoorbell who).pwr ∧ t.pending = s.pending
      let n := y.arg 0
      let m := ownerMsg (y.bufBytes (Nat.min n 1024))
      let code := y.ownerCode s.fuses m n
      let f := ownerFuses s.fuses (y.get SYS_KEPOCH_E) m
      (1 ≤ n → n ≤ 1024 →
        (code ≠ 0 → ∃ t, exec (.owner who) s = .next t ∧ taken t 0x10 code ∧ t.sys.posts = y.posts ++ [⟨8, code, 0, 0⟩]
          ∧ Keeps [.posts, .upd, .pwr] (among [UPD_RES]) s t)
        ∧ (code = 0 → ∃ t, exec (.owner who) s = .next t ∧ taken t 0x10 0 ∧ t.fuses = f ∧ t.sys.word (CEL_SCR 7) = m.counter % 2 ^ 32 ∧ t.sys.word CEL_INTEG = t.sys.integ
          ∧ t.sys.word SYS_FUSE = fuseWord f 4 % 1024
          ∧ (∀ root, m.type ≤ 3 → (y.mirrorFuses f).unwrap m = some root → t.sys.rtc.root = root ∧ t.sys.get KEY_STAT_ROOT = rootCellar ∧ t.sys.slotKey 0 = ⟨root, []⟩
            ∧ t.sys.get (KEY_SLOT_STATE 0) = slotValid ∧ (m.type = 1 → t.sys.loft.ownpub = numLE m.pub) ∧ (m.type = 2 → t.sys.word CEL_TAMP = 0)
            ∧ (∃ before, t.sys.posts = before ++ [⟨8, 0x0711, 0, m.type + 65536 * (t.sys.get SYS_KEPOCH_E)⟩]))
          ∧ (m.type = 4 → t.sys.get VOT_PERMIT_SOLO = nth 0 m.payload 0 % 2 ∧ t.sys.posts = y.posts)
          ∧ (m.type = 5 → (y.mirrorFuses f).variantD = false → t.sys.on KEY_STAT_DEBUG = true ∧ t.sys.get KEY_STAT_ROOT = rootTest ∧ t.sys.slotKey 0 = ⟨testRoot, []⟩)
          ∧ SysKeeps [.keys, .hit, .posts, .rtc, .loft, .upd, .pwr] (fun a => inBlock 1 a || inBlock 7 a || among [CEL_SCR 7, CEL_TAMP, CEL_INTEG, VOT_PERMIT, UPD_RES] a) y t.sys))
      ∧ (targetOk (y.arg 0) = true →
        let path := y.arg 0 % 256
        let target := bits (y.arg 0) 8 8
        let c := Fin.ofNat 16 target
        let b := y.bufBytes 128
        let grant := numLE ((b.drop 4).take 4)
        let locker := grant % 1024
        let until_ := numLE ((b.drop 16).take 4)
        let reason := y.ticketReason s.fuses b path
        let bound := fun (t : State) => taken t 0x11 0 ∧ t.sys.posts = y.posts ++ [⟨8, 0x1501, locker, path + 256 * target + 65536 * locker⟩]
        (reason ≠ 0 → ∃ t, exec (.ticket who) s = .next t ∧ taken t 0x11 0x1502 ∧ t.sys.posts = y.posts ++ [⟨8, 0x1502, locker, reason⟩]
          ∧ Keeps [.posts, .upd, .pwr] (among [UPD_RES]) s t)
        ∧ (reason = 0 → path = pathPortal → ∃ t, exec (.ticket who) s = .next t ∧ bound t ∧ t.sys.on (LCK_PBIND_VALID target) = true
          ∧ t.sys.on (LCK_PBIND_WRITE target) = (grant.testBit 16 && y.lockerWrites locker) ∧ t.sys.get (LCK_PBIND_LOCKER target) = locker ∧ t.sys.word (LCK_PEXP target) = until_ % 2 ^ 32
          ∧ Keeps [.posts, .upd, .pwr] (among [UPD_RES, LCK_PBIND target, LCK_PEXP target]) s t)
        ∧ (reason = 0 → path = pathChannel → y.chState c = chRun → ∃ t, exec (.ticket who) s = .next t ∧ taken t 0x11 0x0B07
          ∧ t.sys.posts = y.posts ++ [⟨8, 0x0B07, y.chLocker c, c.val⟩] ∧ Keeps [.posts, .upd, .pwr] (among [UPD_RES]) s t)
        ∧ (reason = 0 → path = pathChannel → y.chState c ≠ chRun → ∃ t, exec (.ticket who) s = .next t ∧ bound t ∧ t.sys.get (DMA_CHLK_LOCKER target) = locker
          ∧ t.sys.on (DMA_CHLK_LKEN target) = decide (locker ≠ 0) ∧ t.sys.on (DMA_CHLK_VOID target) = false ∧ t.sys.bindingOf path target = some (locker, until_)
          ∧ Keeps [.posts, .upd, .pwr, .lck] (among [UPD_RES, DMA_CHLK target]) s t)
        ∧ (reason = 0 → path = pathCursor → ∃ t, exec (.ticket who) s = .next t ∧ bound t ∧ t.sys.on (EVR_CBIND_VALID target) = true
          ∧ t.sys.on (EVR_CBIND_WRITE target) = grant.testBit 16 ∧ t.sys.get (EVR_CBIND_LOCKER target) = locker ∧ t.sys.word (EVR_CPOS target) = 0
          ∧ t.sys.get (EVR_CSTAT_LOST target) = 0 ∧ t.sys.bindingOf path target = some (locker, until_)
          ∧ Keeps [.posts, .upd, .pwr, .lck, .evr] (among [UPD_RES, EVR_CBIND target, EVR_CPOS target, EVR_CSTAT target]) s t)
        ∧ (y.bindingOf path target = none → ∃ t, exec (.unbind who) s = .next t ∧ taken t 0x12 0 ∧ Keeps [.upd, .pwr] (among [UPD_RES]) s t)
        ∧ (∀ l e, y.bindingOf path target = some (l, e) → ∃ t, exec (.unbind who) s = .next t ∧ taken t 0x12 0 ∧ t.sys.bindingOf path target = none
          ∧ (∃ more, t.sys.posts = y.posts ++ more ++ [⟨8, 0x1504, l, path + 256 * target + 65536 * 2⟩])
          ∧ Keeps [.dma, .draws, .hostMemory, .lck, .memory, .mi, .posts, .upd, .pwr]
            (among [UPD_RES, LCK_PBIND target, EVR_CBIND target, DMA_CHLK target, DMA_CHSTAT target, DMA_CHRES target, DMA_CHBYT target, DMA_CHCUR target]) s t))
      ∧ (let r := y.report s.fuses
        ∃ t x, exec (.attest who) s = .next t ∧ taken t 0x13 0 ∧ t.sys.posts = y.posts ++ [⟨8, 0x0713, 0, 0⟩]
          ∧ (∀ k, k < r.length → t.sys.bufByte k = nth 0 r k % 256)
          ∧ (∀ k, k < 64 → t.sys.bufByte (r.length + k) = nth 0 (ecdsaSign (y.slotKey 31).key (sha256 r) x) k % 256)
          ∧ Keeps [.posts, .draws, .upd, .pwr] (fun a => inBlock 8 a) s t))
    ∧ (∀ path target, (y.bindingOf path target = none → exec (.bindingExpiry path target) s = .next s)
      ∧ (∀ l e, y.bindingOf path target = some (l, e) → (path = pathPortal ∧ target < 16) ∨ (path = pathChannel ∧ target < 8) ∨ (path = pathCursor ∧ target < 8) → y.domUp 0 = true →
        ∃ t, exec (.bindingExpiry path target) s = .next t ∧ t.sys.bindingOf path target = none ∧ t.sys.rtc = (y.reachSec (e + 1)).rtc
          ∧ (∃ more, t.sys.posts = y.posts ++ more ++ [⟨8, 0x1504, l, path + 256 * target + 65536⟩])
          ∧ Keeps [.ang, .fclk, .lfxo, .rtc, .dma, .draws, .hostMemory, .lck, .memory, .mi, .posts]
            (among [LCK_PBIND target, EVR_CBIND target, DMA_CHLK target, DMA_CHSTAT target, DMA_CHRES target, DMA_CHBYT target, DMA_CHCUR target]) s t))
    ∧ (∀ (k : Fin 64) data, data < 2 ^ 32 →
      let a := y.word (LCK_RNGA k.val)
      let size := bits data 0 14
      (y.rangeBad k.val data (y.word (LCK_RNGS k.val)) = true → exec (.lckRangeWrite k false data) s = .next { s with sys := y.post 0x1505 (data % 1024) [] })
      ∧ (y.rangeBad k.val data (y.word (LCK_RNGS k.val)) = false → ∃ t, exec (.lckRangeWrite k false data) s = .next t ∧ t.sys.get (LCK_RNGA_BASE k.val) = data / 65536
        ∧ t.sys.on (LCK_RNGA_EN k.val) = data.testBit 15 ∧ t.sys.get (LCK_RNGA_LOCKER k.val) = data % 1024 ∧ Keeps [] (among [LCK_RNGA k.val]) s t)
      ∧ (size = 0 ∨ 11264 < size ∨ y.rangeBad k.val a data = true → exec (.lckRangeWrite k true data) s = .next { s with sys := y.post 0x1505 (a % 1024) [] })
      ∧ (size ≠ 0 → size ≤ 11264 → y.rangeBad k.val a data = false → ∃ t, exec (.lckRangeWrite k true data) s = .next t ∧ t.sys.get (LCK_RNGS_SIZE k.val) = size
        ∧ Keeps [] (among [LCK_RNGS k.val]) s t))

/-- R389, R390, R443, R445 to R447, R458, R459. What a command given in standby does once the module is awake is what it does when it is given
then. -/
def Obligations.UpdateSession : Prop :=
  ∀ s : State,
    let y := s.sys
    let ended := fun (t : State) (code : Nat) => t.sys.upd.running = none ∧ t.sys.on UPD_RES_BUSY = false ∧ t.sys.on UPD_RES_DONE = true ∧ t.sys.get UPD_RES_CODE = code % 65536
      ∧ t.sys.on UPD_INT_DONE = true
    (∀ who temp,
      let p := (y.ringDoorbell who).pwr
      let plain := [Instr.mbxOpen who, .mbxWrite who, .mbxCommit who, .mbxActivate who temp, .mbxAbort who, .mbxPart who]
      let firmware := [Instr.mbxReset who, .ticket who, .unbind who, .attest who, .owner who]
      let taken := fun (t : State) (op code : Nat) => t.sys.upd.running = some op ∧ t.sys.upd.result = code ∧ t.sys.on UPD_RES_BUSY = true ∧ t.sys.on UPD_RES_DONE = false
        ∧ t.sys.get UPD_RES_CODE = 0 ∧ t.sys.pwr = p
      let refuses := fun (i : Instr) (code : Nat) => ∃ t, exec i s = .next t ∧ ended t code ∧ t.sys.posts = y.posts ++ [⟨8, code, 0, 0⟩] ∧ t.sys.pwr = p
        ∧ Keeps [.posts, .upd, .pwr, .signals] (among [UPD_RES, UPD_INT, PCI_PBA 0]) s t
      let waits := fun (i : Instr) => ∃ t, exec i s = .next t ∧ t.sys.posts = y.posts ++ [⟨8, 0x080A, 0, 0⟩] ∧ t.sys.upd.running = y.upd.running ∧ Keeps [.posts, .upd, .pwr] (fun _ => false) s t
      let ops := [(Instr.mbxOpen who, 1), (.mbxWrite who, 2), (.mbxCommit who, 3), (.mbxActivate who temp, 4), (.mbxAbort who, 5), (.mbxPart who, 6),
        (.owner who, 0x10), (.ticket who, 0x11), (.unbind who, 0x12), (.attest who, 0x13), (.mbxReset who, 0x20)]
      (∀ i ∈ ops,
        (y.pwr.standby ≠ 3 → y.get UPD_STAT_STATE = updBoot → exec i.1 s = .next { s with sys := y.ringDoorbell who })
        ∧ (y.pwr.standby = 3 → y.get PWR_SBCFG_HOSTDB = 0 ∨ y.on UPD_RES_BUSY = true → exec i.1 s = .next s)
        ∧ (y.pwr.standby = 3 → y.get PWR_SBCFG_HOSTDB ≠ 0 → y.on UPD_RES_BUSY = false → ∃ t, exec i.1 s = .next t ∧ t.sys.upd.running = some i.2
          ∧ t.sys.upd.asleep = true ∧ t.sys.on UPD_RES_BUSY = true ∧ t.sys.on UPD_RES_DONE = false ∧ t.sys.pwr = { y.pwr with wakeHeld := some (y.pwr.wakeHeld.getD 3) }
          ∧ Keeps [.upd, .pwr] (among [UPD_RES]) s t))
      ∧ (y.domUp 0 = true →
        (y.mbxGate false = .busy → ∀ i ∈ plain, waits i) ∧ (y.mbxGate true = .busy → ∀ i ∈ firmware, waits i)
        ∧ (y.mbxGate true = .early → ∀ i ∈ firmware, refuses i 0x0819)
        ∧ (y.mbxGate true = .open → (y.arg 0 = 0x52535421 → ∃ t, exec (.mbxReset who) s = .next t ∧ ModuleReset s t 7 false) ∧ (y.arg 0 ≠ 0x52535421 → refuses (.mbxReset who) 0x080A))
        ∧ (y.mbxGate true = .open → (targetOk (y.arg 0) = false → refuses (.ticket who) 0x080A ∧ refuses (.unbind who) 0x080A)
          ∧ (y.arg 0 = 0 ∨ 1024 < y.arg 0 → refuses (.owner who) 0x080A))
        ∧ (y.mbxGate false = .open → y.activateOk = false → refuses (.mbxActivate who temp) 0x080A)
        ∧ (y.mbxGate false = .open →
          (y.openOk = false → refuses (.mbxOpen who) 0x080A)
          ∧ (y.openOk = true → ∃ t, exec (.mbxOpen who) s = .next t ∧ taken t 1 0 ∧ t.sys.pantry = pantryOpen ∧ t.sys.word UPD_BYTES = 0 ∧ t.sys.upd.opened = true ∧ t.sys.upd.parts = []
            ∧ t.sys.upd.touched = y.fclk ∧ t.sys.posts = y.posts ++ [⟨8, 0x080F, 0, 0⟩]
            ∧ (∀ a, memByte t.sys.mem a = if pantryBase ≤ a ∧ a < pantryBase + 0x4000000 then 0 else memByte y.mem a)
            ∧ Keeps [.posts, .memory, .mi, .upd, .pwr] (among [UPD_STAT, UPD_BYTES, UPD_RES]) s t)
          ∧ (y.writeOk = false → refuses (.mbxWrite who) 0x080A)
          ∧ (y.writeOk = true → ∃ t, exec (.mbxWrite who) s = .next t ∧ taken t 2 0 ∧ t.sys.word UPD_BYTES = (y.word UPD_BYTES + y.arg 1) % 2 ^ 32
            ∧ (∀ k, k < y.arg 1 → memByte t.sys.mem (pantryBase + y.arg 0 + k) = BitVec.ofNat 8 (y.bufByte k))
            ∧ (∀ a, a < pantryBase + y.arg 0 ∨ pantryBase + y.arg 0 + y.arg 1 ≤ a → memByte t.sys.mem a = memByte y.mem a)
            ∧ Keeps [.memory, .mi, .upd, .pwr] (among [UPD_BYTES, UPD_RES]) s t)
          ∧ (let ok := y.pantry = pantryOpen ∧ y.on UPD_CTL_PERPART = false ∧ y.dramUp = true
            (¬ ok → refuses (.mbxCommit who) 0x080A)
            ∧ (ok → ∃ t, exec (.mbxCommit who) s = .next t ∧ taken t 3 (y.verdict s.fuses false).1 ∧ t.sys.pantry = pantryVerifying
              ∧ t.sys.upd.failPart = (y.verdict s.fuses false).2 ∧ Keeps [.upd, .pwr] (among [UPD_STAT, UPD_RES]) s t))
          ∧ (let ok := y.pantry = pantryOpen ∨ y.pantry = pantryVerified ∨ y.pantry = pantryFailed
            (¬ ok → refuses (.mbxAbort who) 0x080A)
            ∧ (ok → ∃ t, exec (.mbxAbort who) s = .next t ∧ taken t 5 0 ∧ t.sys.pantry = pantryEmpty ∧ Keeps [.upd, .pwr] (among [UPD_STAT, UPD_RES]) s t))
          ∧ (y.partOk = false → refuses (.mbxPart who) 0x080A)
          ∧ (y.partOk = true →
            let ty := y.arg 0
            let v := y.verdict s.fuses true
            let good := if ty = 0 then v.1 = 0 else partLenOk ty (y.arg 1) = true ∧ y.rd (pantryBase + slotOf ty) 4 = 0x100
            let code := if ty = 0 then v.1 else 0x080E
            (good → ∃ t, exec (.mbxPart who) s = .next t ∧ taken t 6 0 ∧ lookupD 0 t.sys.upd.parts ty = y.arg 1 ∧ Keeps [.upd, .pwr] (among [UPD_RES]) s t)
            ∧ (¬ good → ∃ t p, exec (.mbxPart who) s = .next t ∧ taken t 6 code ∧ lookupD 0 t.sys.upd.parts ty = 0 ∧ t.sys.posts = y.posts ++ [p] ∧ p.code = code
              ∧ Keeps [.posts, .upd, .pwr] (among [UPD_STAT, UPD_RES]) s t)))))
    ∧ (∀ op, y.upd.running = some op → y.upd.asleep = false → y.on UPD_RES_BUSY = true → y.domUp 0 = true →
      let r := y.upd.result
      let irq := [UPD_RES, UPD_INT, PCI_PBA 0]
      (op ≠ 3 → op ≠ 4 → ∃ t, exec .mailboxCommandDone s = .next t ∧ ended t r ∧ Keeps [.upd, .signals] (among irq) s t)
      ∧ (op = 3 → r = 0 → ∃ t, exec .mailboxCommandDone s = .next t ∧ ended t 0 ∧ t.sys.pantry = pantryVerified ∧ t.sys.word UPD_PSETID = y.rd (pantryBase + 0x24) 4
        ∧ t.sys.get UPD_STAT_FAILPART = 0 ∧ t.sys.posts = y.posts ++ [⟨8, 0x0810, 0, y.rd (pantryBase + 0x24) 4⟩]
        ∧ Keeps [.posts, .upd, .signals] (among (UPD_STAT :: UPD_PSETID :: irq)) s t)
      ∧ (op = 3 → r ≠ 0 → ∃ t p, exec .mailboxCommandDone s = .next t ∧ ended t r ∧ t.sys.pantry = pantryFailed
        ∧ t.sys.get UPD_STAT_FAILPART = (if r = 0x0809 then y.upd.failPart % 256 else 0) ∧ t.sys.posts = y.posts ++ [p] ∧ p.code = r
        ∧ Keeps [.posts, .upd, .signals] (among (UPD_STAT :: irq)) s t)
      ∧ (op = 4 → r ≠ 0 → ∃ t, exec .mailboxCommandDone s = .next t ∧ ended t r ∧ Keeps [.upd, .signals] (among irq) s t)
      ∧ (op = 4 → r = 0 → y.activateEnded = true → ∃ t, exec .mailboxCommandDone s = .next t ∧ ended t 0 ∧ t.pending = s.pending
        ∧ SysKeeps [.upd, .signals, .posts] (fun a => inBlock 1 a || among irq a) y t.sys
        ∧ (y.on UPD_STAT_SRC = true ∨ y.pantry ≠ pantryEmpty → t.fuses = s.fuses ∧ t.sys.posts = y.posts ∧ Keeps [.upd, .signals] (among irq) s t))
      ∧ (op = 4 → r = 0 → y.activateEnded = false → exec .mailboxCommandDone s = .next s))
    ∧ (y.upd.asleep = true → y.pwr.standby ≠ 0 → exec .mailboxCommandDone s = .next s)
    ∧ (y.upd.asleep = true → y.pwr.standby = 0 → ∃ t, exec .mailboxCommandDone s = .next t ∧ t.sys.upd.asleep = false)
    ∧ (y.upd.asleep = false → y.upd.running = none ∨ y.on UPD_RES_BUSY = false → exec .mailboxCommandDone s = .next s)
    ∧ (∀ who data, data < 2 ^ 32 → y.on UPD_CTL_LOCK = false → y.domUp 0 = true →
      let cur := y.on UPD_CTL_PERPART
      let dest := data.testBit 8
      let locked := dest = true ∧ cur = false ∧ y.on SYS_FUSE_OWNLOCK = true
      ∃ t, exec (.perpartWrite who data) s = .next t ∧ t.sys.on UPD_CTL_LOCK = data.testBit 31
        ∧ (locked → t.sys.on UPD_CTL_PERPART = false ∧ t.sys.posts = y.posts ++ [⟨8, 0x080C, 0, 0⟩])
        ∧ (¬ locked → t.sys.on UPD_CTL_PERPART = (if y.pantry = pantryEmpty then dest else cur) ∧ t.sys.posts = y.posts)
        ∧ Keeps [.posts] (among [UPD_CTL]) s t)
    ∧ (∀ who data, data < 2 ^ 32 → y.on UPD_CTL_LOCK = true → ∃ t, exec (.perpartWrite who data) s = .next t ∧ t.sys.on UPD_CTL_LOCK = true
      ∧ t.sys.on UPD_CTL_PERPART = y.on UPD_CTL_PERPART ∧ Keeps [] (among [UPD_CTL]) s t)
    ∧ (y.pantry ≠ pantryOpen → exec .sessionIdleTimeout s = .next s)
    ∧ (y.pantry = pantryOpen → y.domUp 0 = true → ∃ t, exec .sessionIdleTimeout s = .next t ∧ t.sys.pantry = pantryEmpty ∧ t.sys.posts = y.posts ++ [⟨8, 0x0802, 0, 0⟩]
      ∧ t.sys.fclk = max y.fclk (y.upd.touched + y.get UPD_TMO_IDLE * clocksPerSecond) ∧ Keeps [.ang, .fclk, .lfxo, .rtc, .posts] (among [UPD_STAT]) s t)
    ∧ (y.get UPD_STAT_STATE ≠ updWaitHost ∨ y.upd.opened = true → exec .hostWaitTimeout s = .next s)
    ∧ (y.get UPD_STAT_STATE = updWaitHost → y.upd.opened = false → y.domUp 0 = true → ∃ t, exec .hostWaitTimeout s = .next t
      ∧ t.sys.posts = y.posts ++ [⟨8, 0x0801, 0, 0⟩] ∧ t.sys.fclk = max y.fclk (y.upd.touched + y.get UPD_TMO_HOST * clocksPerSecond) ∧ t.sys.upd = { y.upd with touched := t.sys.fclk }
      ∧ Keeps [.ang, .fclk, .lfxo, .rtc, .posts, .upd] (fun _ => false) s t)

/-- R37, R444, R448 to R454, R459. -/
def Obligations.Activation : Prop :=
  ∀ s : State,
    let y := s.sys
    let failed := fun (t : State) => t.sys.pantry = pantryFailed ∧ t.sys.get UPD_STAT_STATE = updRun ∧ t.sys.on UPD_STAT_SRC = false ∧ t.pending = s.pending ∧ t.fuses = s.fuses
      ∧ t.sys.upd.activating = false ∧ t.sys.upd.copying = false ∧ (y.domUp 0 = true → ⟨8, 0x080B, 0, 1⟩ ∈ t.sys.posts)
    (∀ who temp, y.mbxGate false = .open → y.activateOk = true → y.domUp 0 = true →
      let code := ((y.ringDoorbell who).activate temp).2
      let whole := (y.ringDoorbell who).completeSet
      let lacks := y.on UPD_CTL_PERPART = true ∧ y.prog.active = false ∧ y.missingPart.isSome = true
      let idle := if whole.on PWR_OP_BUSY then whole.opChangeDone else whole
      let coldGood := y.prog.active = false ∧ ¬ lacks ∧ (whole.on UPD_STAT_FW = true → whole.otherFirmware = false) ∧ whole.pantryPoisoned = false
        ∧ whole.startFirmware.checkSet whole.startFirmware.sourcePart = none
      let runGood := y.prog.active = true ∧ whole.otherFirmware = false ∧ whole.pfw = false ∧ whole.pwr.standby = 0 ∧ whole.upd.copying = false
        ∧ whole.get MET_STAT_FE ≠ feFrozen ∧ idle.checkSet idle.pantryPart = none
      let taken := fun (t : State) (c : Nat) => t.sys.upd.running = some 4 ∧ t.sys.upd.result = c ∧ t.sys.on UPD_RES_BUSY = true ∧ t.sys.on UPD_RES_DONE = false ∧ t.sys.get UPD_RES_CODE = 0
      let refused := fun (c : Nat) => ∃ t, exec (.mbxActivate who temp) s = .next t ∧ taken t c ∧ t.sys.posts = y.posts ++ [⟨8, c, 0, 0⟩]
        ∧ Keeps [.posts, .upd, .pwr, .memory, .mi] (among [UPD_RES]) s t ∧ (y.on UPD_CTL_PERPART = false → Keeps [.posts, .upd, .pwr] (among [UPD_RES]) s t)
      (∃ t, exec (.mbxActivate who temp) s = .next t ∧ taken t code ∧ t.fuses = s.fuses ∧ t.pending = s.pending
        ∧ (coldGood → code = 0 ∧ t.sys.get UPD_STAT_STATE = updLoading ∧ t.sys.pantry = pantryInUse ∧ t.sys.prog.active = true ∧ t.sys.on UPD_STAT_FW = true
          ∧ t.sys.on MGT_STAT_FWRUN = true ∧ t.sys.upd.larderAt = some t.sys.upd.pantryAt ∧ t.sys.upd.announce = true)
        ∧ (runGood → code = 0 ∧ t.sys.get UPD_STAT_STATE = updActivating ∧ t.sys.pantry = pantryInUse ∧ t.sys.upd.activating = true ∧ t.sys.upd.loaded = false
          ∧ t.sys.upd.lastOld = y.lastCycle ∧ Keeps [.posts, .upd, .pwr, .draws, .memory, .mi] (fun a => inBlock 0x0F a || among [UPD_STAT, UPD_RES, PWR_OP] a) s t))
      ∧ (y.prog.active = true → whole.otherFirmware = true → refused 0x0816)
      ∧ (y.prog.active = false → ¬ lacks → y.on UPD_STAT_FW = true → whole.otherFirmware = true → refused 0x0816)
      ∧ (y.prog.active = false → ¬ lacks → (y.on UPD_STAT_FW = true → whole.otherFirmware = false) → whole.pantryPoisoned = true →
        ∃ t, exec (.mbxActivate who temp) s = .next t ∧ taken t 0x080B ∧ t.sys.posts = y.posts ++ [⟨8, 0x080B, 0, 1⟩] ∧ t.sys.pantry = pantryFailed
          ∧ t.sys.get UPD_STAT_STATE = updWaitHost ∧ Keeps [.posts, .upd, .pwr, .memory, .mi] (among [UPD_RES, UPD_STAT]) s t)
      ∧ (y.prog.active = true → whole.otherFirmware = false →
        (y.pfw = true ∨ y.pwr.standby ≠ 0 ∨ y.upd.copying = true → refused 0x0817)
        ∧ (y.pfw = false → y.pwr.standby = 0 → y.upd.copying = false → y.get MET_STAT_FE = feFrozen → refused 0x1116))
      ∧ (∀ ty, y.on UPD_CTL_PERPART = true → y.prog.active = false → y.missingPart = some ty → ∃ t, exec (.mbxActivate who temp) s = .next t ∧ taken t 0x080D
        ∧ t.sys.posts = y.posts ++ [⟨8, 0x080D, 0, ty⟩] ∧ Keeps [.posts, .upd, .pwr] (among [UPD_RES]) s t))
    ∧ (let goes := y.upd.activating = true ∧ y.upd.loaded = false ∧ y.ang.cycle = y.upd.lastOld ∧ y.ang.begun = true ∧ y.vot.emitted = true ∧ y.vot.restart = false
      (¬ goes → exec .activationLoad s = .next s)
      ∧ (goes → y.dramUp = false → ∃ t, exec .activationLoad s = .next t ∧ failed t ∧ t.sys.vot = y.vot)
      ∧ (goes → y.dramUp = true → y.pantryPoisoned = true → ∃ t, exec .activationLoad s = .next t ∧ failed t ∧ t.sys.vot = { y.vot with restart := true })
      ∧ (goes → y.dramUp = true → y.pantryPoisoned = false → ∃ t, exec .activationLoad s = .next t ∧ t.sys.upd.loaded = true ∧ t.sys.upd.activating = true ∧ t.sys.on UPD_STAT_SRC = true
        ∧ t.sys.vot.reint = none ∧ (∀ n, y.votes n = true → (t.sys.lane n).meterPending = true ∧ t.sys.votes n = true) ∧ t.sys.ang = (y.reach (y.ang.start + y.ang.phv)).ang
        ∧ (∀ n, y.laneState n = laneReload ∨ y.laneState n = lanePrecopy ∨ y.laneState n = laneFinal ∨ y.laneState n = laneShadow → t.sys.laneState n = laneReset)
        ∧ t.fuses = s.fuses ∧ t.pending = s.pending ∧ t.sys.keys = y.keys ∧ t.sys.evr = y.evr ∧ t.sys.hostMem = y.hostMem))
    ∧ (let goes := y.upd.activating = true ∧ y.upd.loaded = true ∧ y.vot.restart = false
      (¬ goes → exec .activationCutover s = .next s)
      ∧ (goes → y.dramUp = false → ∃ t, exec .activationCutover s = .next t ∧ failed t ∧ t.sys.vot = { y.vot with restart := true })
      ∧ (goes → y.dramUp = true → y.domUp 0 = true → ∃ t, exec .activationCutover s = .next t ∧ t.sys.upd.activating = false ∧ t.sys.upd.loaded = false ∧ t.sys.upd.announce = true
        ∧ t.sys.chg.queue = [] ∧ (∃ more, t.sys.posts = y.posts ++ ⟨8, 0x130D, 0, Nat.min y.chg.queue.length 0xFFFFFFFF⟩ :: more)
        ∧ t.sys.ang.n = y.get ANG_CYC_N ∧ t.sys.prog.chgmax = y.get CYC_CHGMAX_MAX ∧ t.sys.prog.dig = y.get CYC_RSAVE_DIG ∧ t.sys.prog.active = true
        ∧ t.sys.word UPD_SETID = y.rd (y.sourceManifest + 0x24) 4
        ∧ t.fuses = s.fuses ∧ t.pending = s.pending ∧ t.sys.keys = y.keys ∧ t.sys.evr = y.evr))
    ∧ (let goes := y.on UPD_STAT_SRC = true ∧ y.upd.activating = false ∧ y.upd.announce = false ∧ y.pantry = pantryInUse ∧ y.upd.copying = false ∧ y.dramUp = true
      (goes → ∃ t, exec .larderCopy s = .next t ∧ t.sys.get UPD_STAT_STATE = updCopying ∧ t.sys.upd = { y.upd with copying := true } ∧ Keeps [.upd] (among [UPD_STAT]) s t)
      ∧ (¬ goes → exec .larderCopy s = .next s))
    ∧ (y.upd.copying = false ∨ y.dramUp = false → exec .larderCopyDone s = .next s)
    ∧ (y.upd.copying = true → y.dramUp = true → y.pantryPoisoned = true → ∃ t, exec .larderCopyDone s = .next t ∧ failed t ∧ t.sys.vot = { y.vot with restart := true })
    ∧ (y.upd.copying = true → y.dramUp = true → y.pantryPoisoned = false → y.domUp 0 = true → ∃ t, exec .larderCopyDone s = .next t ∧ t.sys.upd = { y.upd with copying := false, larderAt := some y.upd.pantryAt }
      ∧ t.sys.on UPD_STAT_SRC = false ∧ t.sys.pantry = pantryEmpty ∧ t.sys.get UPD_STAT_STATE = updRun
      ∧ (∃ more, t.sys.posts = y.posts ++ ⟨8, 0x0812, 0, 0⟩ :: more)
      ∧ (let man := larderBase + y.upd.pantryAt
        let version := Nat.min (t.sys.manField man 0x18 4) 128
        let count := y.get SYS_VFLOOR_COUNT
        let raises := t.sys.manField man 0x1C 4 % 2 = 1 ∧ count < version
        (raises → y.pfw = false → ∀ k, count ≤ k → k < version → blown t.fuses (24 + k / 32) (k % 32) = true)
        ∧ (¬ raises ∨ y.pfw = true → t.fuses = s.fuses))
      ∧ SysKeeps [.memory, .mi, .upd, .posts] (fun a => inBlock 1 a || among [UPD_STAT] a) y t.sys)

/-- R466, R472 to R480. Before READY the numbers of a record are open. -/
def Obligations.EventRecorder : Prop :=
  ∀ s : State,
    let y := s.sys
    let sorted := fun (l : List RecSlot) => (l.map RecSlot.slot).Pairwise (· < ·)
    let open_ := fun (r : RecSlot) => r.numbered = true ∧ r.flushed = false
    (∀ together, (y.posts = [] → exec (.eventAccept together) s = .next s)
      ∧ (y.posts ≠ [] → y.domUp 0 = true →
        ∃ i p t, y.posts[i]? = some p ∧ i < max together 1 ∧ (∀ j q, j < max together 1 → y.posts[j]? = some q → p.req ≤ q.req)
          ∧ exec (.eventAccept together) s = .next t ∧ (∃ more, t.sys.posts = y.posts.eraseIdx i ++ more) ∧ t.sys.evr.order = y.evr.order + 1
          ∧ (let lk := p.locker % 1024
            let sev := sevOf p.code
            let seq := y.evr.nextSeq
            let lseq := lookupD y.evr.nextAll y.evr.nextLseq lk
            (y.on EVR_STAT_READY = true → t.sys.evr.nextSeq = seq + 1 ∧ t.sys.word EVR_SEQ = seq % 2 ^ 32 ∧ lookupD y.evr.nextAll t.sys.evr.nextLseq lk = lseq + 1
              ∧ ∀ k, y.ringNext = some k →
                (⟨k, seq, lseq, lk, sev, true, false, y.evr.order + 1⟩ : RecSlot) ∈ t.sys.evr.ring ∧ t.sys.evr.ringAt = (k + 1) % 2048
                ∧ t.sys.rd (ringSlot k) 4 = seq % 2 ^ 32 ∧ t.sys.rd (ringSlot k + 4) 4 = lseq % 2 ^ 32
                ∧ t.sys.rd (ringSlot k + 8) 4 = (slotWord p.code sev p.locker + if y.on RTC_STAT_VALID then 2 ^ 28 else 0) % 2 ^ 32
                ∧ t.sys.rd (ringSlot k + 12) 4 = y.rtc.sec % 2 ^ 32 ∧ t.sys.rd (ringSlot k + 16) 8 = y.ang.time % 2 ^ 64 ∧ t.sys.rd (ringSlot k + 24) 8 = p.data % 2 ^ 64
                ∧ ∀ a, a < ringSlot k ∨ ringSlot k + 32 ≤ a → memByte t.sys.mem a = memByte y.mem a)
            ∧ (y.on EVR_STAT_READY = false → t.sys.evr.nextSeq = seq ∧ t.sys.draws = y.draws + 2)
            ∧ (sev < 2 ∨ y.on SYS_FSTAT_HOLD = true → ∀ r ∈ [SYS_FSTAT, SYS_FFIRST, SYS_FFSEQ, SYS_FNEXT, SYS_FNSEQ], t.sys.reg r = y.reg r)
            ∧ (2 ≤ sev → y.on SYS_FSTAT_HOLD = false → t.sys.on MGT_FINT_FAULT = true ∧ t.sys.on SYS_FSTAT_FIRSTV = true ∧ (sev = 3 → t.sys.pwr.faultLow = true)
              ∧ (y.on SYS_FSTAT_FIRSTV = false → t.sys.word SYS_FFIRST = slotWord p.code sev lk % 2 ^ 32 ∧ (y.on EVR_STAT_READY = true → t.sys.word SYS_FFSEQ = seq % 2 ^ 32))
              ∧ (y.on SYS_FSTAT_FIRSTV = true → t.sys.on SYS_FSTAT_NEXTV = true ∧ t.sys.word SYS_FNEXT = slotWord p.code sev lk % 2 ^ 32 ∧ t.sys.reg SYS_FFIRST = y.reg SYS_FFIRST
                ∧ t.sys.get SYS_FSTAT_COUNT = Nat.min (y.get SYS_FSTAT_COUNT + 1) 65535)))
          ∧ Keeps [.draws, .evr, .limits, .memory, .posts, .pwr, .signals]
            (among [EVR_INT, EVR_LCNT, EVR_RLOST, EVR_SEQ, EVR_STAT, MGT_FINT, PCI_PBA 0, SYS_FFIRST, SYS_FFSEQ, SYS_FNEXT, SYS_FNSEQ, SYS_FSTAT]) s t))
    ∧ (let starts := y.on EVR_STAT_READY = true ∧ y.on EVR_STAT_CLEARING = false
      let asks := fun (i : Instr) => (y.on EVR_STAT_FLUSHING = true → exec i s = .next s)
        ∧ (y.on EVR_STAT_FLUSHING = false → starts → ∃ t, exec i s = .next t ∧ t.sys.on EVR_STAT_FLUSHING = true ∧ t.sys.evr = { y.evr with flushWaits := false } ∧ Keeps [.evr] (among [EVR_STAT]) s t)
        ∧ (y.on EVR_STAT_FLUSHING = false → ¬ starts → exec i s = .next { s with sys := { y with evr := { y.evr with flushWaits := true } } })
      let emptied := fun (t : State) => (sorted y.evr.ring → ∀ r ∈ t.sys.evr.ring, ¬ open_ r)
        ∧ (sorted y.evr.ring → sorted y.evr.log → (∀ r ∈ y.evr.log, r.slot < 131072) → (∀ r ∈ y.evr.ring, r.slot < 2048) → y.evr.log.length + y.evr.ring.length ≤ 131072 →
          ∀ r ∈ y.evr.ring, open_ r → ∃ q ∈ t.sys.evr.log, q.seq = r.seq ∧ q.locker = r.locker
            ∧ ∀ k, k < 32 → memByte t.sys.mem (logSlot q.slot + k) = memByte y.mem (ringSlot r.slot + k))
      asks .flushInterval
        ∧ (y.askFlush.flushRuns = false → asks .ringFlush)
        ∧ (y.askFlush.flushRuns = true → ∃ t, exec .ringFlush s = .next t ∧ emptied t ∧ t.sys.on EVR_STAT_FLUSHING = true
          ∧ Keeps [.evr, .limits, .loft, .memory, .mi, .posts] (among [EVR_FSEQ, EVR_LCNT, EVR_LLOST, EVR_STAT]) s t)
        ∧ (y.flushRuns = false → exec .ringFlushDone s = .next s)
        ∧ (y.flushRuns = true → y.on SYS_FSTAT_HOLD = false → ∃ t, exec .ringFlushDone s = .next t ∧ emptied t ∧ t.sys.on EVR_STAT_FLUSHING = false
          ∧ (y.fe.flushing = true → y.loft.flushMarker = 1 → t.sys.loft.flushMarker = 2 ∧ t.sys.fe.flushing = false)
          ∧ Keeps [.evr, .limits, .loft, .memory, .mi, .posts, .fe] (among [EVR_FSEQ, EVR_LCNT, EVR_LLOST, EVR_STAT, MET_CTL, MET_STAT]) s t)
        ∧ (y.flushRuns = true → y.on SYS_FSTAT_HOLD = true → ∃ t, exec .ringFlushDone s = .next t ∧ t.sys.pwr.cause = 6 ∧ t.sys.pwr.started = false
          ∧ t.sys.pwr.postAtStart = y.pwr.postAtStart ++ [(0x0101, 0)] ∧ t.sys.posts = [] ∧ t.fuses = s.fuses))
    ∧ (y.on UPD_STAT_FW = false ∨ y.on EVR_STAT_READY = true → exec .logScanDone s = .next s)
    ∧ (y.on UPD_STAT_FW = true → y.on EVR_STAT_READY = false → y.domUp 0 = true → ∃ t, exec .logScanDone s = .next t ∧ t.sys.on EVR_STAT_READY = true
      ∧ t.sys.evr.log = y.scanLog ∧ (∀ r ∈ y.scanLog, r.seq < t.sys.evr.nextSeq) ∧ (sorted y.evr.ring → ∀ r ∈ t.sys.evr.ring, r.numbered = true)
      ∧ t.sys.pwr.postAtStart = [] ∧ t.sys.rtc.dark = 0
      ∧ (∃ more, t.sys.posts = y.posts ++ ⟨8, 0x0901, 0, Nat.min y.scanLog.length 0xFFFFFFFF + 2 ^ 32 * (highest0 (y.scanLog.map RecSlot.seq) % 2 ^ 32)⟩ :: more)
      ∧ Keeps [.evr, .loft, .memory, .posts, .pwr, .rtc] (among [EVR_LCNT, EVR_SEQ, EVR_STAT, SYS_FFSEQ, SYS_FNSEQ]) s t)
    ∧ (∀ (who : Agent) (c : Fin 8),
      let locker := y.get (EVR_CBIND_LOCKER c.val)
      let pos := y.word (EVR_CPOS c.val)
      let key := fun (r : RecSlot) => if locker = 0 then r.seq else r.lseq
      let fits := fun (x : RecSlot × Nat) => x ∈ y.visible ∧ (locker = 0 ∨ x.1.locker = locker) ∧ pos ≤ key x.1
      let regs := EVR_CPOS c.val :: (List.range 8).map (EVR_CDAT c.val)
      (y.on (EVR_CBIND_VALID c.val) = false ∨ (∀ x, ¬ fits x) → ∃ t, exec (.cursorFetch who c) s = .next t ∧ t.sys.response.value = 0
        ∧ (∀ w, w < 8 → t.sys.word (EVR_CDAT c.val w) = 0) ∧ t.sys.word (EVR_CPOS c.val) = pos ∧ Keeps [.response] (among regs) s t)
      ∧ (y.on (EVR_CBIND_VALID c.val) = true → (∃ x, fits x) → ∃ t x, exec (.cursorFetch who c) s = .next t ∧ fits x ∧ (∀ z, fits z → key x.1 ≤ key z.1)
        ∧ t.sys.word (EVR_CPOS c.val) = (key x.1 + 1) % 2 ^ 32 ∧ (∀ w, 1 ≤ w → w < 8 → t.sys.word (EVR_CDAT c.val w) = y.rd (x.2 + 4 * w) 4)
        ∧ t.sys.word (EVR_CDAT c.val 0) = (if locker = 0 then y.rd x.2 4 else 0) ∧ t.sys.response.value = t.sys.word (EVR_CDAT c.val 0)
        ∧ Keeps [.response] (among regs) s t)
      ∧ (∀ upTo, let may := y.on (EVR_CBIND_VALID c.val) = true ∧ locker = 0 ∧ y.on (EVR_CBIND_WRITE c.val) = true ∧ upTo % 2 ^ 32 < y.word EVR_SEQ ∧ y.pfw = false ∧ y.evr.clearing = none
        (¬ may → exec (.logClear who c upTo) s = .next { s with sys := y.note 0x0906 })
        ∧ (may → ∃ t, exec (.logClear who c upTo) s = .next t ∧ t.sys.on EVR_STAT_CLEARING = true ∧ t.sys.evr = { y.evr with clearing := some (upTo % 2 ^ 32) }
          ∧ Keeps [.evr] (among [EVR_STAT]) s t)))
    ∧ (y.evr.clearing = none → exec .logClearDone s = .next s)
    ∧ (∀ u, y.evr.clearing = some u → y.domUp 0 = true → ∃ t, exec .logClearDone s = .next t ∧ t.sys.on EVR_STAT_CLEARING = false ∧ t.sys.evr.clearing = none
      ∧ (∃ more p, t.sys.posts = y.posts ++ more ++ [p] ∧ p.code = 0x0905)
      ∧ (∀ r ∈ t.sys.evr.log, r ∈ y.evr.log) ∧ (∀ r ∈ t.sys.evr.ring, r ∈ y.evr.ring)
      ∧ (y.pfw = false → (∀ r ∈ t.sys.evr.log, u < r.seq) ∧ (∀ r ∈ t.sys.evr.ring, r.numbered = true → u < r.seq) ∧ t.sys.draws = y.draws
        ∧ (∀ r ∈ y.evr.log, r.seq ≤ u → r.slot < 131072 → ∀ k, k < 32 → memByte t.sys.mem (logSlot r.slot + k) = 0)
        ∧ (sorted y.evr.log → t.sys.evr.log = y.evr.log.filter fun r => u < r.seq))
      ∧ Keeps [.draws, .evr, .loft, .memory, .mi, .posts] (among [EVR_LCNT, EVR_STAT]) s t)

/-- R462 to R465, R468, R469. -/
def Obligations.ManagementAndFaults : Prop :=
  ∀ s : State,
    let y := s.sys
    (∀ key, (key % 65536 = 0x5744 → exec (.watchdogKick key) s = .next { s with sys := { y with mgt := { y.mgt with watchdog := y.mgt.watchdog.map fun _ => y.fclk } } })
      ∧ (key % 65536 ≠ 0x5744 → exec (.watchdogKick key) s = .next { s with sys := y.note 0x1605 }))
    ∧ (y.mgt.watchdog = none → exec .managementWatchdogExpired s = .next s)
    ∧ (y.mgt.watchdog ≠ none → ∃ t, exec .managementWatchdogExpired s = .next t ∧ ModuleReset s t 5 false ∧ t.sys.pwr.postAtStart = y.pwr.postAtStart ++ [(0x1606, 0)])
    ∧ (y.on SYS_FSTAT_HOLD = false → exec .holdTimeout s = .next s)
    ∧ (y.on SYS_FSTAT_HOLD = true → ∃ t, exec .holdTimeout s = .next t ∧ ModuleReset s t 6 false ∧ t.sys.pwr.postAtStart = y.pwr.postAtStart ++ [(0x0101, 0)])
    ∧ (∀ values, (y.on MGT_STAT_FWRUN = false → exec (.sensorSample values) s = .next s)
      ∧ (y.on MGT_STAT_FWRUN = true → y.domUp 0 = true → ∃ t, exec (.sensorSample values) s = .next t
        ∧ (∀ k, k < 13 →
          let v := nth 0 values k
          let m := y.mgt
          let st := y.get (MGT_SEN_STATE k)
          let nx := senNext st (runOf m.beyondWarn k (y.beyond k (y.get (MGT_SLIM_WARN k)) v)) (runOf m.beyondFault k (y.beyond k (y.get (MGT_SLIM_FAULT k)) v))
            (runOf m.insideWarn k (y.inside k (y.get (MGT_SLIM_WARN k)) v)) (runOf m.insideFault k (y.inside k (y.get (MGT_SLIM_FAULT k)) v))
          t.sys.get (MGT_SEN_VALUE k) = unsint 16 v
            ∧ (k = 6 → y.on PWR_OP_BUSY = true → t.sys.get (MGT_SEN_STATE k) = st)
            ∧ (k ≠ 6 ∨ y.on PWR_OP_BUSY = false → t.sys.get (MGT_SEN_STATE k) = nx
              ∧ (nx ≠ st → ⟨8, if nx = senFault then 0x1602 else if nx = senWarning then 0x1601 else 0x1603, 0, k + 256 * unsint 16 v⟩ ∈ t.sys.posts)))
        ∧ Keeps [.posts, .mgt] (among ((List.range 13).map MGT_SEN)) s t))
    ∧ (∀ who temp, y.domUp 0 = true →
      let free := y.mgt.running = none ∧ y.on MGT_STAT_FWRUN = true
      let taken := fun (t : State) (op : Nat) => t.sys.mgt = { y.mgt with running := some op, result := 0 } ∧ t.sys.on MGT_HRES_DONE = false ∧ t.sys.on MGT_HRES_BUSY = true
        ∧ t.sys.get MGT_HRES_CODE = 0
      let refuses := fun (i : Instr) (op : Nat) => ∃ t, exec i s = .next t ∧ t.sys.posts = y.posts ++ [⟨8, 0x1604, 0, op⟩]
        ∧ (y.mgt.running ≠ none → t.sys.reg MGT_HRES = y.reg MGT_HRES)
        ∧ (y.mgt.running = none → t.sys.on MGT_HRES_DONE = true ∧ t.sys.on MGT_HRES_BUSY = false ∧ t.sys.get MGT_HRES_CODE = 0x1604) ∧ Keeps [.posts] (among [MGT_HRES]) s t
      let starts := y.on EVR_STAT_READY = true ∧ y.on EVR_STAT_CLEARING = false
      (¬ free ∨ y.on SYS_FSTAT_HOLD = true → refuses (.ackfault who) 1) ∧ (¬ free → refuses (.tempapply who temp) 2 ∧ refuses (.flush who) 3)
        ∧ (free → y.on SYS_FSTAT_HOLD = false → ∃ t, exec (.ackfault who) s = .next t ∧ taken t 1
          ∧ (∀ r ∈ [SYS_FSTAT, SYS_FFIRST, SYS_FFSEQ, SYS_FNEXT, SYS_FNSEQ], t.sys.word r = 0) ∧ t.sys.pwr = { y.pwr with faultLow := false }
          ∧ t.sys.posts = y.posts ++ [⟨8, 0x0102, 0, y.get SYS_FSTAT_COUNT + 65536 * y.get SYS_FSTAT_HSEV⟩]
          ∧ Keeps [.evr, .mgt, .posts, .pwr] (among [MGT_HRES, SYS_FSTAT, SYS_FFIRST, SYS_FFSEQ, SYS_FNEXT, SYS_FNSEQ]) s t)
        ∧ (free → ∃ t, exec (.tempapply who temp) s = .next t ∧ taken t 2 ∧ (∀ k, k < 78 → t.sys.get (MET_TRIM_T k) = unsint 17 (y.tableTrim k temp))
          ∧ t.sys.get MET_TAPP_CAUSE = 2 ∧ t.sys.get MET_TAPP_TEMP = unsint 16 temp ∧ (∃ p, t.sys.posts = y.posts ++ [p] ∧ p.code = 0x110A)
          ∧ Keeps [.fe, .mgt, .posts] (among ([MGT_HRES, MET_STAT, MET_TAPP] ++ (List.range 78).map MET_TRIM)) s t)
        ∧ (free → ∃ t, exec (.flush who) s = .next t ∧ taken t 3
          ∧ (starts → t.sys.on EVR_STAT_FLUSHING = true) ∧ (¬ starts → y.on EVR_STAT_FLUSHING = false → t.sys.evr.flushWaits = true)
          ∧ Keeps [.evr, .mgt] (among [MGT_HRES, EVR_STAT]) s t))
    ∧ (y.mgt.running = none → exec .hostCommandDone s = .next s)
    ∧ (∀ op, y.mgt.running = some op →
      let waits := op = 3 ∧ (y.on EVR_STAT_FLUSHING = true ∨ y.evr.flushWaits = true)
      (waits → exec .hostCommandDone s = .next s)
      ∧ (¬ waits → ∃ t, exec .hostCommandDone s = .next t ∧ t.sys.mgt = { y.mgt with running := none } ∧ t.sys.on MGT_HRES_DONE = true ∧ t.sys.on MGT_HRES_BUSY = false
        ∧ t.sys.get MGT_HRES_CODE = y.mgt.result % 65536 ∧ Keeps [.mgt] (among [MGT_HRES]) s t))
end

