-- ==== Sys2Proof/Laws/Sparse.lean ====
section
/-!
SUPPORT. Sparse stores: reading after writing, and the canonical form that every operation on a store and on a memory keeps.
-/
namespace Sys2Proof.Laws
open Sys2Proof.Machine

variable {α : Type} {d : Nat → α}

/-! ## Reading -/

theorem sget_serase_ne {m : List (Nat × α)} {k j : Nat} (h : j ≠ k) : sget d (serase m k) j = sget d m j := by
  induction m with
  | nil => rfl
  | cons c m ih =>
    obtain ⟨a, v⟩ := c
    by_cases hk : a = k
    · subst hk
      simpa [serase, sget, Ne.symm h] using ih
    · simp only [serase, List.filter_cons, bne_iff_ne, ne_eq, hk, not_false_eq_true, if_true, sget]
      split
      · rfl
      · exact ih

theorem sget_serase_same {m : List (Nat × α)} {k : Nat} : sget d (serase m k) k = d k := by
  induction m with
  | nil => rfl
  | cons c m ih =>
    obtain ⟨a, v⟩ := c
    by_cases hk : a = k
    · subst hk
      simpa [serase, sget] using ih
    · simp only [serase, List.filter_cons, bne_iff_ne, ne_eq, hk, not_false_eq_true, if_true, sget, if_false]
      exact ih

theorem sget_sins_ne {m : List (Nat × α)} {k j : Nat} {v : α} (h : j ≠ k) : sget d (sins k v m) j = sget d m j := by
  induction m with
  | nil => simp [sins, sget, Ne.symm h]
  | cons c m ih =>
    obtain ⟨a, w⟩ := c
    unfold sins
    split
    · simp [sget, Ne.symm h]
    · simp only [sget, ih]

theorem sget_sins_same {m : List (Nat × α)} {k : Nat} {v : α} (h : ∀ c ∈ m, c.1 ≠ k) : sget d (sins k v m) k = v := by
  induction m with
  | nil => simp [sins, sget]
  | cons c m ih =>
    obtain ⟨a, w⟩ := c
    unfold sins
    split
    · simp [sget]
    · have ha : a ≠ k := h (a, w) (by simp)
      simp only [sget, ha, if_false]
      exact ih fun c hc => h c (by simp [hc])

theorem serase_absent {m : List (Nat × α)} {k : Nat} : ∀ c ∈ serase m k, c.1 ≠ k := by
  intro c hc
  simpa [serase] using (List.mem_filter.mp hc).2

/-- A read of the key just written gives the value written. -/
@[simp] theorem sget_sset_same [DecidableEq α] {m : List (Nat × α)} {k : Nat} {v : α} : sget d (sset d m k v) k = v := by
  unfold sset
  split
  · rename_i h
    rw [sget_serase_same, h]
  · exact sget_sins_same serase_absent

/-- A write leaves every other key alone. -/
theorem sget_sset_ne [DecidableEq α] {m : List (Nat × α)} {k j : Nat} {v : α} (h : j ≠ k) :
    sget d (sset d m k v) j = sget d m j := by
  unfold sset
  split
  · exact sget_serase_ne h
  · rw [sget_sins_ne h, sget_serase_ne h]

/-! ## The canonical form -/

theorem swf_cons [DecidableEq α] {a : Nat} {v : α} {m : List (Nat × α)} :
    swf d ((a, v) :: m) = true ↔ v ≠ d a ∧ (∀ c ∈ m, a < c.1) ∧ swf d m = true := by
  simp [swf, Bool.and_eq_true, List.all_eq_true, and_assoc]

theorem swf_filter [DecidableEq α] {m : List (Nat × α)} (p : Nat × α → Bool) (h : swf d m = true) : swf d (m.filter p) = true := by
  induction m with
  | nil => rfl
  | cons c m ih =>
    obtain ⟨a, v⟩ := c
    obtain ⟨h1, h2, h3⟩ := swf_cons.mp h
    rw [List.filter_cons]
    split
    · exact swf_cons.mpr ⟨h1, fun c hc => h2 c (List.mem_filter.mp hc).1, ih h3⟩
    · exact ih h3

theorem swf_serase [DecidableEq α] {m : List (Nat × α)} {k : Nat} (h : swf d m = true) : swf d (serase m k) = true :=
  swf_filter _ h

theorem swf_sclear [DecidableEq α] {m : List (Nat × α)} {lo hi : Nat} (h : swf d m = true) : swf d (sclear m lo hi) = true :=
  swf_filter _ h

theorem mem_sins {m : List (Nat × α)} {k : Nat} {v : α} {c : Nat × α} (h : c ∈ sins k v m) : c = (k, v) ∨ c ∈ m := by
  induction m with
  | nil => simpa [sins] using h
  | cons b m ih =>
    obtain ⟨a, w⟩ := b
    unfold sins at h
    split at h
    · simpa using h
    · rcases List.mem_cons.mp h with h | h
      · exact .inr (by simp [h])
      · rcases ih h with h | h
        · exact .inl h
        · exact .inr (by simp [h])

theorem swf_sins [DecidableEq α] {m : List (Nat × α)} {k : Nat} {v : α} (h : swf d m = true) (hv : v ≠ d k)
    (hk : ∀ c ∈ m, c.1 ≠ k) : swf d (sins k v m) = true := by
  induction m with
  | nil => simp [sins, swf, hv]
  | cons c m ih =>
    obtain ⟨a, w⟩ := c
    obtain ⟨h1, h2, h3⟩ := swf_cons.mp h
    have ha : a ≠ k := hk (a, w) (by simp)
    unfold sins
    split
    · rename_i hlt
      refine swf_cons.mpr ⟨hv, ?_, h⟩
      intro c hc
      rcases List.mem_cons.mp hc with rfl | hc
      · exact hlt
      · exact Nat.lt_trans hlt (h2 c hc)
    · rename_i hlt
      refine swf_cons.mpr ⟨h1, ?_, ih h3 fun c hc => hk c (by simp [hc])⟩
      intro c hc
      rcases mem_sins hc with rfl | hc
      · show a < k; omega
      · exact h2 c hc

/-- A write keeps the canonical form. -/
theorem swf_sset [DecidableEq α] {m : List (Nat × α)} {k : Nat} {v : α} (h : swf d m = true) : swf d (sset d m k v) = true := by
  unfold sset
  split
  · exact swf_serase h
  · exact swf_sins (swf_serase h) ‹_› serase_absent

/-! ## Memory -/

@[simp] theorem memByte_memSetByte_same {m : List Host.Cell} {a : Nat} {v : Byte} : memByte (memSetByte m a v) a = v :=
  sget_sset_same

theorem memByte_memSetByte_ne {m : List Host.Cell} {a b : Nat} {v : Byte} (h : b ≠ a) :
    memByte (memSetByte m a v) b = memByte m b :=
  sget_sset_ne h

/-- A store of `n` bytes changes no byte outside them. -/
theorem memByte_memWrite_out {m : List Host.Cell} {a n v b : Nat} (h : b < a ∨ a + n ≤ b) :
    memByte (memWrite m a n v) b = memByte m b := by
  induction n generalizing m a v with
  | zero => rfl
  | succ n ih =>
    rw [memWrite, ih (by omega), memByte_memSetByte_ne (by omega)]

/-- Byte `i` of a store holds byte `i` of the value. -/
theorem memByte_memWrite_in {m : List Host.Cell} {a n v i : Nat} (h : i < n) :
    memByte (memWrite m a n v) (a + i) = BitVec.ofNat 8 (v / 256 ^ i) := by
  induction n generalizing m a v i with
  | zero => omega
  | succ n ih =>
    rw [memWrite]
    cases i with
    | zero => rw [memByte_memWrite_out (by omega)]; simp
    | succ i =>
      rw [show a + (i + 1) = a + 1 + i by omega, ih (by omega), Nat.div_div_eq_div_mul]
      rw [show 256 * 256 ^ i = 256 ^ (i + 1) by rw [Nat.pow_succ, Nat.mul_comm]]

/-- Reading `n` bytes after storing them gives the value modulo `256 ^ n`. -/
@[simp] theorem memRead_memWrite {m : List Host.Cell} {a n v : Nat} : memRead (memWrite m a n v) a n = v % 256 ^ n := by
  have aux : ∀ (n : Nat) (m : List Host.Cell) (a v : Nat),
      (∀ i, i < n → memByte m (a + i) = BitVec.ofNat 8 (v / 256 ^ i)) → memRead m a n = v % 256 ^ n := by
    intro n
    induction n with
    | zero => intro m a v _; simp [memRead, Nat.mod_one]
    | succ n ih =>
      intro m a v h
      have h0 := h 0 (by omega)
      have hr := ih m (a + 1) (v / 256) fun i hi => by
        rw [show a + 1 + i = a + (i + 1) by omega, h (i + 1) (by omega), Nat.div_div_eq_div_mul,
          show 256 * 256 ^ i = 256 ^ (i + 1) by rw [Nat.pow_succ, Nat.mul_comm]]
      simp only [Nat.add_zero, Nat.pow_zero, Nat.div_one] at h0
      rw [memRead, hr, h0, Nat.pow_succ, Nat.mul_comm (256 ^ n) 256, Nat.mod_mul]
      simp
  exact aux n _ a v fun i hi => memByte_memWrite_in hi

theorem memRead_memWrite_out {m : List Host.Cell} {a n v b k : Nat} (h : b + k ≤ a ∨ a + n ≤ b) :
    memRead (memWrite m a n v) b k = memRead m b k := by
  induction k generalizing b with
  | zero => rfl
  | succ k ih => rw [memRead, memRead, ih (by omega), memByte_memWrite_out (by omega)]

theorem memByte_memPutBytes_out {m : List Host.Cell} {a b : Nat} {bs : List Nat} (h : b < a ∨ a + bs.length ≤ b) :
    memByte (memPutBytes m a bs) b = memByte m b := by
  induction bs generalizing m a with
  | nil => rfl
  | cons x bs ih =>
    simp only [List.length_cons] at h
    rw [memPutBytes, ih (by omega), memByte_memSetByte_ne (by omega)]

theorem wf_memSetByte {m : List Host.Cell} {a : Nat} {v : Byte} (h : Memory.wf m = true) : Memory.wf (memSetByte m a v) = true :=
  swf_sset h

theorem wf_memWrite {m : List Host.Cell} {a n v : Nat} (h : Memory.wf m = true) : Memory.wf (memWrite m a n v) = true := by
  induction n generalizing m a v with
  | zero => exact h
  | succ n ih => exact ih (wf_memSetByte h)

theorem wf_memPutBytes {m : List Host.Cell} {a : Nat} {bs : List Nat} (h : Memory.wf m = true) :
    Memory.wf (memPutBytes m a bs) = true := by
  induction bs generalizing m a with
  | nil => exact h
  | cons b bs ih => exact ih (wf_memSetByte h)

theorem wf_memZero {m : List Host.Cell} {lo n : Nat} (h : Memory.wf m = true) : Memory.wf (memZero m lo n) = true :=
  swf_sclear h

theorem wf_memCopy {m : List Host.Cell} {dst src n : Nat} (h : Memory.wf m = true) : Memory.wf (memCopy m dst src n) = true := by
  unfold memCopy
  induction srange m src (src + n) with
  | nil => exact wf_memZero h
  | cons c l ih => exact wf_memSetByte ih

/-! ## What zeroing and copying do, byte by byte -/

theorem sget_filter {m : List (Nat × α)} (p : Nat → Bool) (k : Nat) :
    sget d (m.filter fun c => p c.1) k = if p k then sget d m k else d k := by
  induction m with
  | nil => simp [sget]
  | cons c m ih =>
    obtain ⟨a, v⟩ := c
    by_cases ha : p a = true
    · rw [List.filter_cons_of_pos (by simpa using ha)]
      by_cases hk : a = k
      · subst hk; simp [sget, ha]
      · simp only [sget, hk, if_false, ih]
    · rw [List.filter_cons_of_neg (by simpa using ha), ih]
      by_cases hk : a = k
      · subst hk; simp [ha]
      · simp [sget, hk]

theorem memByte_memZero {m : List Host.Cell} {lo n a : Nat} :
    memByte (memZero m lo n) a = if lo ≤ a ∧ a < lo + n then 0 else memByte m a := by
  unfold memZero sclear memByte
  rw [sget_filter (fun k => k < lo || lo + n ≤ k)]
  by_cases h : lo ≤ a ∧ a < lo + n
  · rw [if_pos h, if_neg (by simp; omega)]; rfl
  · rw [if_neg h, if_pos (by simp; omega)]

/-- Every byte of a target range takes the source's byte, and no other byte changes. -/
theorem memByte_memCopy {m : List Host.Cell} {dst src n a : Nat} :
    memByte (memCopy m dst src n) a = if dst ≤ a ∧ a < dst + n then memByte m (src + (a - dst)) else memByte m a := by
  have key : ∀ (l : List Host.Cell) (z : List Host.Cell), (∀ c ∈ l, src ≤ c.1 ∧ c.1 < src + n) →
      memByte (l.foldr (fun c acc => memSetByte acc (c.1 - src + dst) c.2) z) a
        = if dst ≤ a ∧ a < dst + n then sget (fun _ => memByte z a) l (src + (a - dst)) else memByte z a := by
    intro l z hl
    induction l with
    | nil => simp [sget]
    | cons c l ih =>
      obtain ⟨k, v⟩ := c
      have hk := hl (k, v) (by simp)
      have ih := ih fun c hc => hl c (by simp [hc])
      rw [List.foldr_cons]
      by_cases he : a = k - src + dst
      · subst he
        rw [memByte_memSetByte_same, if_pos (by simp at hk; omega)]
        simp only [sget]
        rw [if_pos (by simp at hk; omega)]
      · rw [memByte_memSetByte_ne he, ih]
        by_cases hin : dst ≤ a ∧ a < dst + n
        · rw [if_pos hin, if_pos hin]
          simp only [sget]
          rw [if_neg (by simp at hk; omega)]
        · rw [if_neg hin, if_neg hin]
  unfold memCopy
  rw [key _ _ (fun c hc => by simpa [srange] using (List.mem_filter.mp hc).2), memByte_memZero]
  by_cases hin : dst ≤ a ∧ a < dst + n
  · rw [if_pos hin, if_pos hin, if_pos hin]
    have : sget (fun _ => (0 : Byte)) (srange m src (src + n)) (src + (a - dst)) = memByte m (src + (a - dst)) := by
      unfold srange memByte
      rw [show (fun _ => (0 : Byte)) = memDefault from rfl, sget_filter (fun k => src ≤ k && k < src + n), if_pos (by simp; omega)]
    exact this
  · rw [if_neg hin, if_neg hin, if_neg hin]

end Sys2Proof.Laws
end

