-- ==== Sys2Proof/Laws/State.lean ====
section
/-!
SUPPORT. What each operation on the part leaves as it is: one lemma for each component it does not change.
-/
namespace Sys2Proof.Laws
open Sys2Proof.Machine

/-- What no step of a fold changes, the fold does not change. -/
theorem foldl_keep {α β γ : Type} (g : β → γ) (f : β → α → β) (h : ∀ b a, g (f b a) = g b) (xs : List α) (b : β) :
    g (xs.foldl f b) = g b := by
  induction xs generalizing b with
  | nil => rfl
  | cons x xs ih => rw [List.foldl_cons, ih, h]

/-! ## `setReg` -/

@[simp] theorem setReg_mem (s : Sys) (a : Nat) (v : Word) : (s.setReg a v).mem = s.mem := rfl
@[simp] theorem setReg_hostMem (s : Sys) (a : Nat) (v : Word) : (s.setReg a v).hostMem = s.hostMem := rfl
@[simp] theorem setReg_response (s : Sys) (a : Nat) (v : Word) : (s.setReg a v).response = s.response := rfl
@[simp] theorem setReg_posts (s : Sys) (a : Nat) (v : Word) : (s.setReg a v).posts = s.posts := rfl
@[simp] theorem setReg_fclk (s : Sys) (a : Nat) (v : Word) : (s.setReg a v).fclk = s.fclk := rfl
@[simp] theorem setReg_lfxo (s : Sys) (a : Nat) (v : Word) : (s.setReg a v).lfxo = s.lfxo := rfl
@[simp] theorem setReg_limits (s : Sys) (a : Nat) (v : Word) : (s.setReg a v).limits = s.limits := rfl
@[simp] theorem setReg_draws (s : Sys) (a : Nat) (v : Word) : (s.setReg a v).draws = s.draws := rfl
@[simp] theorem setReg_signals (s : Sys) (a : Nat) (v : Word) : (s.setReg a v).signals = s.signals := rfl
@[simp] theorem setReg_ang (s : Sys) (a : Nat) (v : Word) : (s.setReg a v).ang = s.ang := rfl
@[simp] theorem setReg_ctx (s : Sys) (a : Nat) (v : Word) : (s.setReg a v).ctx = s.ctx := rfl
@[simp] theorem setReg_col (s : Sys) (a : Nat) (v : Word) : (s.setReg a v).col = s.col := rfl
@[simp] theorem setReg_lanes (s : Sys) (a : Nat) (v : Word) : (s.setReg a v).lanes = s.lanes := rfl
@[simp] theorem setReg_vot (s : Sys) (a : Nat) (v : Word) : (s.setReg a v).vot = s.vot := rfl
@[simp] theorem setReg_loft (s : Sys) (a : Nat) (v : Word) : (s.setReg a v).loft = s.loft := rfl
@[simp] theorem setReg_chg (s : Sys) (a : Nat) (v : Word) : (s.setReg a v).chg = s.chg := rfl
@[simp] theorem setReg_prog (s : Sys) (a : Nat) (v : Word) : (s.setReg a v).prog = s.prog := rfl
@[simp] theorem setReg_fe (s : Sys) (a : Nat) (v : Word) : (s.setReg a v).fe = s.fe := rfl
@[simp] theorem setReg_fab (s : Sys) (a : Nat) (v : Word) : (s.setReg a v).fab = s.fab := rfl
@[simp] theorem setReg_hit (s : Sys) (a : Nat) (v : Word) : (s.setReg a v).hit = s.hit := rfl
@[simp] theorem setReg_can (s : Sys) (a : Nat) (v : Word) : (s.setReg a v).can = s.can := rfl
@[simp] theorem setReg_ports (s : Sys) (a : Nat) (v : Word) : (s.setReg a v).ports = s.ports := rfl
@[simp] theorem setReg_dma (s : Sys) (a : Nat) (v : Word) : (s.setReg a v).dma = s.dma := rfl
@[simp] theorem setReg_arb (s : Sys) (a : Nat) (v : Word) : (s.setReg a v).arb = s.arb := rfl
@[simp] theorem setReg_mi (s : Sys) (a : Nat) (v : Word) : (s.setReg a v).mi = s.mi := rfl
@[simp] theorem setReg_clk (s : Sys) (a : Nat) (v : Word) : (s.setReg a v).clk = s.clk := rfl
@[simp] theorem setReg_pwr (s : Sys) (a : Nat) (v : Word) : (s.setReg a v).pwr = s.pwr := rfl
@[simp] theorem setReg_rtc (s : Sys) (a : Nat) (v : Word) : (s.setReg a v).rtc = s.rtc := rfl
@[simp] theorem setReg_keys (s : Sys) (a : Nat) (v : Word) : (s.setReg a v).keys = s.keys := rfl
@[simp] theorem setReg_lck (s : Sys) (a : Nat) (v : Word) : (s.setReg a v).lck = s.lck := rfl
@[simp] theorem setReg_upd (s : Sys) (a : Nat) (v : Word) : (s.setReg a v).upd = s.upd := rfl
@[simp] theorem setReg_evr (s : Sys) (a : Nat) (v : Word) : (s.setReg a v).evr = s.evr := rfl
@[simp] theorem setReg_mgt (s : Sys) (a : Nat) (v : Word) : (s.setReg a v).mgt = s.mgt := rfl
@[simp] theorem setReg_strap (s : Sys) (a : Nat) (v : Word) : (s.setReg a v).strap = s.strap := rfl

/-! ## `put` -/

@[simp] theorem put_mem (s : Sys) (f : Fld) (v : Nat) : (s.put f v).mem = s.mem := rfl
@[simp] theorem put_hostMem (s : Sys) (f : Fld) (v : Nat) : (s.put f v).hostMem = s.hostMem := rfl
@[simp] theorem put_response (s : Sys) (f : Fld) (v : Nat) : (s.put f v).response = s.response := rfl
@[simp] theorem put_posts (s : Sys) (f : Fld) (v : Nat) : (s.put f v).posts = s.posts := rfl
@[simp] theorem put_fclk (s : Sys) (f : Fld) (v : Nat) : (s.put f v).fclk = s.fclk := rfl
@[simp] theorem put_lfxo (s : Sys) (f : Fld) (v : Nat) : (s.put f v).lfxo = s.lfxo := rfl
@[simp] theorem put_limits (s : Sys) (f : Fld) (v : Nat) : (s.put f v).limits = s.limits := rfl
@[simp] theorem put_draws (s : Sys) (f : Fld) (v : Nat) : (s.put f v).draws = s.draws := rfl
@[simp] theorem put_signals (s : Sys) (f : Fld) (v : Nat) : (s.put f v).signals = s.signals := rfl
@[simp] theorem put_ang (s : Sys) (f : Fld) (v : Nat) : (s.put f v).ang = s.ang := rfl
@[simp] theorem put_ctx (s : Sys) (f : Fld) (v : Nat) : (s.put f v).ctx = s.ctx := rfl
@[simp] theorem put_col (s : Sys) (f : Fld) (v : Nat) : (s.put f v).col = s.col := rfl
@[simp] theorem put_lanes (s : Sys) (f : Fld) (v : Nat) : (s.put f v).lanes = s.lanes := rfl
@[simp] theorem put_vot (s : Sys) (f : Fld) (v : Nat) : (s.put f v).vot = s.vot := rfl
@[simp] theorem put_loft (s : Sys) (f : Fld) (v : Nat) : (s.put f v).loft = s.loft := rfl
@[simp] theorem put_chg (s : Sys) (f : Fld) (v : Nat) : (s.put f v).chg = s.chg := rfl
@[simp] theorem put_prog (s : Sys) (f : Fld) (v : Nat) : (s.put f v).prog = s.prog := rfl
@[simp] theorem put_fe (s : Sys) (f : Fld) (v : Nat) : (s.put f v).fe = s.fe := rfl
@[simp] theorem put_fab (s : Sys) (f : Fld) (v : Nat) : (s.put f v).fab = s.fab := rfl
@[simp] theorem put_hit (s : Sys) (f : Fld) (v : Nat) : (s.put f v).hit = s.hit := rfl
@[simp] theorem put_can (s : Sys) (f : Fld) (v : Nat) : (s.put f v).can = s.can := rfl
@[simp] theorem put_ports (s : Sys) (f : Fld) (v : Nat) : (s.put f v).ports = s.ports := rfl
@[simp] theorem put_dma (s : Sys) (f : Fld) (v : Nat) : (s.put f v).dma = s.dma := rfl
@[simp] theorem put_arb (s : Sys) (f : Fld) (v : Nat) : (s.put f v).arb = s.arb := rfl
@[simp] theorem put_mi (s : Sys) (f : Fld) (v : Nat) : (s.put f v).mi = s.mi := rfl
@[simp] theorem put_clk (s : Sys) (f : Fld) (v : Nat) : (s.put f v).clk = s.clk := rfl
@[simp] theorem put_pwr (s : Sys) (f : Fld) (v : Nat) : (s.put f v).pwr = s.pwr := rfl
@[simp] theorem put_rtc (s : Sys) (f : Fld) (v : Nat) : (s.put f v).rtc = s.rtc := rfl
@[simp] theorem put_keys (s : Sys) (f : Fld) (v : Nat) : (s.put f v).keys = s.keys := rfl
@[simp] theorem put_lck (s : Sys) (f : Fld) (v : Nat) : (s.put f v).lck = s.lck := rfl
@[simp] theorem put_upd (s : Sys) (f : Fld) (v : Nat) : (s.put f v).upd = s.upd := rfl
@[simp] theorem put_evr (s : Sys) (f : Fld) (v : Nat) : (s.put f v).evr = s.evr := rfl
@[simp] theorem put_mgt (s : Sys) (f : Fld) (v : Nat) : (s.put f v).mgt = s.mgt := rfl
@[simp] theorem put_strap (s : Sys) (f : Fld) (v : Nat) : (s.put f v).strap = s.strap := rfl

/-! ## `putB` -/

@[simp] theorem putB_mem (s : Sys) (f : Fld) (b : Bool) : (s.putB f b).mem = s.mem := rfl
@[simp] theorem putB_hostMem (s : Sys) (f : Fld) (b : Bool) : (s.putB f b).hostMem = s.hostMem := rfl
@[simp] theorem putB_response (s : Sys) (f : Fld) (b : Bool) : (s.putB f b).response = s.response := rfl
@[simp] theorem putB_posts (s : Sys) (f : Fld) (b : Bool) : (s.putB f b).posts = s.posts := rfl
@[simp] theorem putB_fclk (s : Sys) (f : Fld) (b : Bool) : (s.putB f b).fclk = s.fclk := rfl
@[simp] theorem putB_lfxo (s : Sys) (f : Fld) (b : Bool) : (s.putB f b).lfxo = s.lfxo := rfl
@[simp] theorem putB_limits (s : Sys) (f : Fld) (b : Bool) : (s.putB f b).limits = s.limits := rfl
@[simp] theorem putB_draws (s : Sys) (f : Fld) (b : Bool) : (s.putB f b).draws = s.draws := rfl
@[simp] theorem putB_signals (s : Sys) (f : Fld) (b : Bool) : (s.putB f b).signals = s.signals := rfl
@[simp] theorem putB_ang (s : Sys) (f : Fld) (b : Bool) : (s.putB f b).ang = s.ang := rfl
@[simp] theorem putB_ctx (s : Sys) (f : Fld) (b : Bool) : (s.putB f b).ctx = s.ctx := rfl
@[simp] theorem putB_col (s : Sys) (f : Fld) (b : Bool) : (s.putB f b).col = s.col := rfl
@[simp] theorem putB_lanes (s : Sys) (f : Fld) (b : Bool) : (s.putB f b).lanes = s.lanes := rfl
@[simp] theorem putB_vot (s : Sys) (f : Fld) (b : Bool) : (s.putB f b).vot = s.vot := rfl
@[simp] theorem putB_loft (s : Sys) (f : Fld) (b : Bool) : (s.putB f b).loft = s.loft := rfl
@[simp] theorem putB_chg (s : Sys) (f : Fld) (b : Bool) : (s.putB f b).chg = s.chg := rfl
@[simp] theorem putB_prog (s : Sys) (f : Fld) (b : Bool) : (s.putB f b).prog = s.prog := rfl
@[simp] theorem putB_fe (s : Sys) (f : Fld) (b : Bool) : (s.putB f b).fe = s.fe := rfl
@[simp] theorem putB_fab (s : Sys) (f : Fld) (b : Bool) : (s.putB f b).fab = s.fab := rfl
@[simp] theorem putB_hit (s : Sys) (f : Fld) (b : Bool) : (s.putB f b).hit = s.hit := rfl
@[simp] theorem putB_can (s : Sys) (f : Fld) (b : Bool) : (s.putB f b).can = s.can := rfl
@[simp] theorem putB_ports (s : Sys) (f : Fld) (b : Bool) : (s.putB f b).ports = s.ports := rfl
@[simp] theorem putB_dma (s : Sys) (f : Fld) (b : Bool) : (s.putB f b).dma = s.dma := rfl
@[simp] theorem putB_arb (s : Sys) (f : Fld) (b : Bool) : (s.putB f b).arb = s.arb := rfl
@[simp] theorem putB_mi (s : Sys) (f : Fld) (b : Bool) : (s.putB f b).mi = s.mi := rfl
@[simp] theorem putB_clk (s : Sys) (f : Fld) (b : Bool) : (s.putB f b).clk = s.clk := rfl
@[simp] theorem putB_pwr (s : Sys) (f : Fld) (b : Bool) : (s.putB f b).pwr = s.pwr := rfl
@[simp] theorem putB_rtc (s : Sys) (f : Fld) (b : Bool) : (s.putB f b).rtc = s.rtc := rfl
@[simp] theorem putB_keys (s : Sys) (f : Fld) (b : Bool) : (s.putB f b).keys = s.keys := rfl
@[simp] theorem putB_lck (s : Sys) (f : Fld) (b : Bool) : (s.putB f b).lck = s.lck := rfl
@[simp] theorem putB_upd (s : Sys) (f : Fld) (b : Bool) : (s.putB f b).upd = s.upd := rfl
@[simp] theorem putB_evr (s : Sys) (f : Fld) (b : Bool) : (s.putB f b).evr = s.evr := rfl
@[simp] theorem putB_mgt (s : Sys) (f : Fld) (b : Bool) : (s.putB f b).mgt = s.mgt := rfl
@[simp] theorem putB_strap (s : Sys) (f : Fld) (b : Bool) : (s.putB f b).strap = s.strap := rfl

/-! ## `incSat` -/

@[simp] theorem incSat_mem (s : Sys) (f : Fld) : (s.incSat f).mem = s.mem := rfl
@[simp] theorem incSat_hostMem (s : Sys) (f : Fld) : (s.incSat f).hostMem = s.hostMem := rfl
@[simp] theorem incSat_response (s : Sys) (f : Fld) : (s.incSat f).response = s.response := rfl
@[simp] theorem incSat_posts (s : Sys) (f : Fld) : (s.incSat f).posts = s.posts := rfl
@[simp] theorem incSat_fclk (s : Sys) (f : Fld) : (s.incSat f).fclk = s.fclk := rfl
@[simp] theorem incSat_lfxo (s : Sys) (f : Fld) : (s.incSat f).lfxo = s.lfxo := rfl
@[simp] theorem incSat_limits (s : Sys) (f : Fld) : (s.incSat f).limits = s.limits := rfl
@[simp] theorem incSat_draws (s : Sys) (f : Fld) : (s.incSat f).draws = s.draws := rfl
@[simp] theorem incSat_signals (s : Sys) (f : Fld) : (s.incSat f).signals = s.signals := rfl
@[simp] theorem incSat_ang (s : Sys) (f : Fld) : (s.incSat f).ang = s.ang := rfl
@[simp] theorem incSat_ctx (s : Sys) (f : Fld) : (s.incSat f).ctx = s.ctx := rfl
@[simp] theorem incSat_col (s : Sys) (f : Fld) : (s.incSat f).col = s.col := rfl
@[simp] theorem incSat_lanes (s : Sys) (f : Fld) : (s.incSat f).lanes = s.lanes := rfl
@[simp] theorem incSat_vot (s : Sys) (f : Fld) : (s.incSat f).vot = s.vot := rfl
@[simp] theorem incSat_loft (s : Sys) (f : Fld) : (s.incSat f).loft = s.loft := rfl
@[simp] theorem incSat_chg (s : Sys) (f : Fld) : (s.incSat f).chg = s.chg := rfl
@[simp] theorem incSat_prog (s : Sys) (f : Fld) : (s.incSat f).prog = s.prog := rfl
@[simp] theorem incSat_fe (s : Sys) (f : Fld) : (s.incSat f).fe = s.fe := rfl
@[simp] theorem incSat_fab (s : Sys) (f : Fld) : (s.incSat f).fab = s.fab := rfl
@[simp] theorem incSat_hit (s : Sys) (f : Fld) : (s.incSat f).hit = s.hit := rfl
@[simp] theorem incSat_can (s : Sys) (f : Fld) : (s.incSat f).can = s.can := rfl
@[simp] theorem incSat_ports (s : Sys) (f : Fld) : (s.incSat f).ports = s.ports := rfl
@[simp] theorem incSat_dma (s : Sys) (f : Fld) : (s.incSat f).dma = s.dma := rfl
@[simp] theorem incSat_arb (s : Sys) (f : Fld) : (s.incSat f).arb = s.arb := rfl
@[simp] theorem incSat_mi (s : Sys) (f : Fld) : (s.incSat f).mi = s.mi := rfl
@[simp] theorem incSat_clk (s : Sys) (f : Fld) : (s.incSat f).clk = s.clk := rfl
@[simp] theorem incSat_pwr (s : Sys) (f : Fld) : (s.incSat f).pwr = s.pwr := rfl
@[simp] theorem incSat_rtc (s : Sys) (f : Fld) : (s.incSat f).rtc = s.rtc := rfl
@[simp] theorem incSat_keys (s : Sys) (f : Fld) : (s.incSat f).keys = s.keys := rfl
@[simp] theorem incSat_lck (s : Sys) (f : Fld) : (s.incSat f).lck = s.lck := rfl
@[simp] theorem incSat_upd (s : Sys) (f : Fld) : (s.incSat f).upd = s.upd := rfl
@[simp] theorem incSat_evr (s : Sys) (f : Fld) : (s.incSat f).evr = s.evr := rfl
@[simp] theorem incSat_mgt (s : Sys) (f : Fld) : (s.incSat f).mgt = s.mgt := rfl
@[simp] theorem incSat_strap (s : Sys) (f : Fld) : (s.incSat f).strap = s.strap := rfl

/-! ## `incWrap` -/

@[simp] theorem incWrap_mem (s : Sys) (f : Fld) : (s.incWrap f).mem = s.mem := rfl
@[simp] theorem incWrap_hostMem (s : Sys) (f : Fld) : (s.incWrap f).hostMem = s.hostMem := rfl
@[simp] theorem incWrap_response (s : Sys) (f : Fld) : (s.incWrap f).response = s.response := rfl
@[simp] theorem incWrap_posts (s : Sys) (f : Fld) : (s.incWrap f).posts = s.posts := rfl
@[simp] theorem incWrap_fclk (s : Sys) (f : Fld) : (s.incWrap f).fclk = s.fclk := rfl
@[simp] theorem incWrap_lfxo (s : Sys) (f : Fld) : (s.incWrap f).lfxo = s.lfxo := rfl
@[simp] theorem incWrap_limits (s : Sys) (f : Fld) : (s.incWrap f).limits = s.limits := rfl
@[simp] theorem incWrap_draws (s : Sys) (f : Fld) : (s.incWrap f).draws = s.draws := rfl
@[simp] theorem incWrap_signals (s : Sys) (f : Fld) : (s.incWrap f).signals = s.signals := rfl
@[simp] theorem incWrap_ang (s : Sys) (f : Fld) : (s.incWrap f).ang = s.ang := rfl
@[simp] theorem incWrap_ctx (s : Sys) (f : Fld) : (s.incWrap f).ctx = s.ctx := rfl
@[simp] theorem incWrap_col (s : Sys) (f : Fld) : (s.incWrap f).col = s.col := rfl
@[simp] theorem incWrap_lanes (s : Sys) (f : Fld) : (s.incWrap f).lanes = s.lanes := rfl
@[simp] theorem incWrap_vot (s : Sys) (f : Fld) : (s.incWrap f).vot = s.vot := rfl
@[simp] theorem incWrap_loft (s : Sys) (f : Fld) : (s.incWrap f).loft = s.loft := rfl
@[simp] theorem incWrap_chg (s : Sys) (f : Fld) : (s.incWrap f).chg = s.chg := rfl
@[simp] theorem incWrap_prog (s : Sys) (f : Fld) : (s.incWrap f).prog = s.prog := rfl
@[simp] theorem incWrap_fe (s : Sys) (f : Fld) : (s.incWrap f).fe = s.fe := rfl
@[simp] theorem incWrap_fab (s : Sys) (f : Fld) : (s.incWrap f).fab = s.fab := rfl
@[simp] theorem incWrap_hit (s : Sys) (f : Fld) : (s.incWrap f).hit = s.hit := rfl
@[simp] theorem incWrap_can (s : Sys) (f : Fld) : (s.incWrap f).can = s.can := rfl
@[simp] theorem incWrap_ports (s : Sys) (f : Fld) : (s.incWrap f).ports = s.ports := rfl
@[simp] theorem incWrap_dma (s : Sys) (f : Fld) : (s.incWrap f).dma = s.dma := rfl
@[simp] theorem incWrap_arb (s : Sys) (f : Fld) : (s.incWrap f).arb = s.arb := rfl
@[simp] theorem incWrap_mi (s : Sys) (f : Fld) : (s.incWrap f).mi = s.mi := rfl
@[simp] theorem incWrap_clk (s : Sys) (f : Fld) : (s.incWrap f).clk = s.clk := rfl
@[simp] theorem incWrap_pwr (s : Sys) (f : Fld) : (s.incWrap f).pwr = s.pwr := rfl
@[simp] theorem incWrap_rtc (s : Sys) (f : Fld) : (s.incWrap f).rtc = s.rtc := rfl
@[simp] theorem incWrap_keys (s : Sys) (f : Fld) : (s.incWrap f).keys = s.keys := rfl
@[simp] theorem incWrap_lck (s : Sys) (f : Fld) : (s.incWrap f).lck = s.lck := rfl
@[simp] theorem incWrap_upd (s : Sys) (f : Fld) : (s.incWrap f).upd = s.upd := rfl
@[simp] theorem incWrap_evr (s : Sys) (f : Fld) : (s.incWrap f).evr = s.evr := rfl
@[simp] theorem incWrap_mgt (s : Sys) (f : Fld) : (s.incWrap f).mgt = s.mgt := rfl
@[simp] theorem incWrap_strap (s : Sys) (f : Fld) : (s.incWrap f).strap = s.strap := rfl

/-! ## `addSat` -/

@[simp] theorem addSat_mem (s : Sys) (f : Fld) (k : Nat) : (s.addSat f k).mem = s.mem := rfl
@[simp] theorem addSat_hostMem (s : Sys) (f : Fld) (k : Nat) : (s.addSat f k).hostMem = s.hostMem := rfl
@[simp] theorem addSat_response (s : Sys) (f : Fld) (k : Nat) : (s.addSat f k).response = s.response := rfl
@[simp] theorem addSat_posts (s : Sys) (f : Fld) (k : Nat) : (s.addSat f k).posts = s.posts := rfl
@[simp] theorem addSat_fclk (s : Sys) (f : Fld) (k : Nat) : (s.addSat f k).fclk = s.fclk := rfl
@[simp] theorem addSat_lfxo (s : Sys) (f : Fld) (k : Nat) : (s.addSat f k).lfxo = s.lfxo := rfl
@[simp] theorem addSat_limits (s : Sys) (f : Fld) (k : Nat) : (s.addSat f k).limits = s.limits := rfl
@[simp] theorem addSat_draws (s : Sys) (f : Fld) (k : Nat) : (s.addSat f k).draws = s.draws := rfl
@[simp] theorem addSat_signals (s : Sys) (f : Fld) (k : Nat) : (s.addSat f k).signals = s.signals := rfl
@[simp] theorem addSat_ang (s : Sys) (f : Fld) (k : Nat) : (s.addSat f k).ang = s.ang := rfl
@[simp] theorem addSat_ctx (s : Sys) (f : Fld) (k : Nat) : (s.addSat f k).ctx = s.ctx := rfl
@[simp] theorem addSat_col (s : Sys) (f : Fld) (k : Nat) : (s.addSat f k).col = s.col := rfl
@[simp] theorem addSat_lanes (s : Sys) (f : Fld) (k : Nat) : (s.addSat f k).lanes = s.lanes := rfl
@[simp] theorem addSat_vot (s : Sys) (f : Fld) (k : Nat) : (s.addSat f k).vot = s.vot := rfl
@[simp] theorem addSat_loft (s : Sys) (f : Fld) (k : Nat) : (s.addSat f k).loft = s.loft := rfl
@[simp] theorem addSat_chg (s : Sys) (f : Fld) (k : Nat) : (s.addSat f k).chg = s.chg := rfl
@[simp] theorem addSat_prog (s : Sys) (f : Fld) (k : Nat) : (s.addSat f k).prog = s.prog := rfl
@[simp] theorem addSat_fe (s : Sys) (f : Fld) (k : Nat) : (s.addSat f k).fe = s.fe := rfl
@[simp] theorem addSat_fab (s : Sys) (f : Fld) (k : Nat) : (s.addSat f k).fab = s.fab := rfl
@[simp] theorem addSat_hit (s : Sys) (f : Fld) (k : Nat) : (s.addSat f k).hit = s.hit := rfl
@[simp] theorem addSat_can (s : Sys) (f : Fld) (k : Nat) : (s.addSat f k).can = s.can := rfl
@[simp] theorem addSat_ports (s : Sys) (f : Fld) (k : Nat) : (s.addSat f k).ports = s.ports := rfl
@[simp] theorem addSat_dma (s : Sys) (f : Fld) (k : Nat) : (s.addSat f k).dma = s.dma := rfl
@[simp] theorem addSat_arb (s : Sys) (f : Fld) (k : Nat) : (s.addSat f k).arb = s.arb := rfl
@[simp] theorem addSat_mi (s : Sys) (f : Fld) (k : Nat) : (s.addSat f k).mi = s.mi := rfl
@[simp] theorem addSat_clk (s : Sys) (f : Fld) (k : Nat) : (s.addSat f k).clk = s.clk := rfl
@[simp] theorem addSat_pwr (s : Sys) (f : Fld) (k : Nat) : (s.addSat f k).pwr = s.pwr := rfl
@[simp] theorem addSat_rtc (s : Sys) (f : Fld) (k : Nat) : (s.addSat f k).rtc = s.rtc := rfl
@[simp] theorem addSat_keys (s : Sys) (f : Fld) (k : Nat) : (s.addSat f k).keys = s.keys := rfl
@[simp] theorem addSat_lck (s : Sys) (f : Fld) (k : Nat) : (s.addSat f k).lck = s.lck := rfl
@[simp] theorem addSat_upd (s : Sys) (f : Fld) (k : Nat) : (s.addSat f k).upd = s.upd := rfl
@[simp] theorem addSat_evr (s : Sys) (f : Fld) (k : Nat) : (s.addSat f k).evr = s.evr := rfl
@[simp] theorem addSat_mgt (s : Sys) (f : Fld) (k : Nat) : (s.addSat f k).mgt = s.mgt := rfl
@[simp] theorem addSat_strap (s : Sys) (f : Fld) (k : Nat) : (s.addSat f k).strap = s.strap := rfl

/-! ## `putBit` -/

@[simp] theorem putBit_mem (s : Sys) (f : Fld) (k : Nat) (b : Bool) : (s.putBit f k b).mem = s.mem := rfl
@[simp] theorem putBit_hostMem (s : Sys) (f : Fld) (k : Nat) (b : Bool) : (s.putBit f k b).hostMem = s.hostMem := rfl
@[simp] theorem putBit_response (s : Sys) (f : Fld) (k : Nat) (b : Bool) : (s.putBit f k b).response = s.response := rfl
@[simp] theorem putBit_posts (s : Sys) (f : Fld) (k : Nat) (b : Bool) : (s.putBit f k b).posts = s.posts := rfl
@[simp] theorem putBit_fclk (s : Sys) (f : Fld) (k : Nat) (b : Bool) : (s.putBit f k b).fclk = s.fclk := rfl
@[simp] theorem putBit_lfxo (s : Sys) (f : Fld) (k : Nat) (b : Bool) : (s.putBit f k b).lfxo = s.lfxo := rfl
@[simp] theorem putBit_limits (s : Sys) (f : Fld) (k : Nat) (b : Bool) : (s.putBit f k b).limits = s.limits := rfl
@[simp] theorem putBit_draws (s : Sys) (f : Fld) (k : Nat) (b : Bool) : (s.putBit f k b).draws = s.draws := rfl
@[simp] theorem putBit_signals (s : Sys) (f : Fld) (k : Nat) (b : Bool) : (s.putBit f k b).signals = s.signals := rfl
@[simp] theorem putBit_ang (s : Sys) (f : Fld) (k : Nat) (b : Bool) : (s.putBit f k b).ang = s.ang := rfl
@[simp] theorem putBit_ctx (s : Sys) (f : Fld) (k : Nat) (b : Bool) : (s.putBit f k b).ctx = s.ctx := rfl
@[simp] theorem putBit_col (s : Sys) (f : Fld) (k : Nat) (b : Bool) : (s.putBit f k b).col = s.col := rfl
@[simp] theorem putBit_lanes (s : Sys) (f : Fld) (k : Nat) (b : Bool) : (s.putBit f k b).lanes = s.lanes := rfl
@[simp] theorem putBit_vot (s : Sys) (f : Fld) (k : Nat) (b : Bool) : (s.putBit f k b).vot = s.vot := rfl
@[simp] theorem putBit_loft (s : Sys) (f : Fld) (k : Nat) (b : Bool) : (s.putBit f k b).loft = s.loft := rfl
@[simp] theorem putBit_chg (s : Sys) (f : Fld) (k : Nat) (b : Bool) : (s.putBit f k b).chg = s.chg := rfl
@[simp] theorem putBit_prog (s : Sys) (f : Fld) (k : Nat) (b : Bool) : (s.putBit f k b).prog = s.prog := rfl
@[simp] theorem putBit_fe (s : Sys) (f : Fld) (k : Nat) (b : Bool) : (s.putBit f k b).fe = s.fe := rfl
@[simp] theorem putBit_fab (s : Sys) (f : Fld) (k : Nat) (b : Bool) : (s.putBit f k b).fab = s.fab := rfl
@[simp] theorem putBit_hit (s : Sys) (f : Fld) (k : Nat) (b : Bool) : (s.putBit f k b).hit = s.hit := rfl
@[simp] theorem putBit_can (s : Sys) (f : Fld) (k : Nat) (b : Bool) : (s.putBit f k b).can = s.can := rfl
@[simp] theorem putBit_ports (s : Sys) (f : Fld) (k : Nat) (b : Bool) : (s.putBit f k b).ports = s.ports := rfl
@[simp] theorem putBit_dma (s : Sys) (f : Fld) (k : Nat) (b : Bool) : (s.putBit f k b).dma = s.dma := rfl
@[simp] theorem putBit_arb (s : Sys) (f : Fld) (k : Nat) (b : Bool) : (s.putBit f k b).arb = s.arb := rfl
@[simp] theorem putBit_mi (s : Sys) (f : Fld) (k : Nat) (b : Bool) : (s.putBit f k b).mi = s.mi := rfl
@[simp] theorem putBit_clk (s : Sys) (f : Fld) (k : Nat) (b : Bool) : (s.putBit f k b).clk = s.clk := rfl
@[simp] theorem putBit_pwr (s : Sys) (f : Fld) (k : Nat) (b : Bool) : (s.putBit f k b).pwr = s.pwr := rfl
@[simp] theorem putBit_rtc (s : Sys) (f : Fld) (k : Nat) (b : Bool) : (s.putBit f k b).rtc = s.rtc := rfl
@[simp] theorem putBit_keys (s : Sys) (f : Fld) (k : Nat) (b : Bool) : (s.putBit f k b).keys = s.keys := rfl
@[simp] theorem putBit_lck (s : Sys) (f : Fld) (k : Nat) (b : Bool) : (s.putBit f k b).lck = s.lck := rfl
@[simp] theorem putBit_upd (s : Sys) (f : Fld) (k : Nat) (b : Bool) : (s.putBit f k b).upd = s.upd := rfl
@[simp] theorem putBit_evr (s : Sys) (f : Fld) (k : Nat) (b : Bool) : (s.putBit f k b).evr = s.evr := rfl
@[simp] theorem putBit_mgt (s : Sys) (f : Fld) (k : Nat) (b : Bool) : (s.putBit f k b).mgt = s.mgt := rfl
@[simp] theorem putBit_strap (s : Sys) (f : Fld) (k : Nat) (b : Bool) : (s.putBit f k b).strap = s.strap := rfl

/-! ## `setWord` -/

@[simp] theorem setWord_mem (s : Sys) (a v : Nat) : (s.setWord a v).mem = s.mem := rfl
@[simp] theorem setWord_hostMem (s : Sys) (a v : Nat) : (s.setWord a v).hostMem = s.hostMem := rfl
@[simp] theorem setWord_response (s : Sys) (a v : Nat) : (s.setWord a v).response = s.response := rfl
@[simp] theorem setWord_posts (s : Sys) (a v : Nat) : (s.setWord a v).posts = s.posts := rfl
@[simp] theorem setWord_fclk (s : Sys) (a v : Nat) : (s.setWord a v).fclk = s.fclk := rfl
@[simp] theorem setWord_lfxo (s : Sys) (a v : Nat) : (s.setWord a v).lfxo = s.lfxo := rfl
@[simp] theorem setWord_limits (s : Sys) (a v : Nat) : (s.setWord a v).limits = s.limits := rfl
@[simp] theorem setWord_draws (s : Sys) (a v : Nat) : (s.setWord a v).draws = s.draws := rfl
@[simp] theorem setWord_signals (s : Sys) (a v : Nat) : (s.setWord a v).signals = s.signals := rfl
@[simp] theorem setWord_ang (s : Sys) (a v : Nat) : (s.setWord a v).ang = s.ang := rfl
@[simp] theorem setWord_ctx (s : Sys) (a v : Nat) : (s.setWord a v).ctx = s.ctx := rfl
@[simp] theorem setWord_col (s : Sys) (a v : Nat) : (s.setWord a v).col = s.col := rfl
@[simp] theorem setWord_lanes (s : Sys) (a v : Nat) : (s.setWord a v).lanes = s.lanes := rfl
@[simp] theorem setWord_vot (s : Sys) (a v : Nat) : (s.setWord a v).vot = s.vot := rfl
@[simp] theorem setWord_loft (s : Sys) (a v : Nat) : (s.setWord a v).loft = s.loft := rfl
@[simp] theorem setWord_chg (s : Sys) (a v : Nat) : (s.setWord a v).chg = s.chg := rfl
@[simp] theorem setWord_prog (s : Sys) (a v : Nat) : (s.setWord a v).prog = s.prog := rfl
@[simp] theorem setWord_fe (s : Sys) (a v : Nat) : (s.setWord a v).fe = s.fe := rfl
@[simp] theorem setWord_fab (s : Sys) (a v : Nat) : (s.setWord a v).fab = s.fab := rfl
@[simp] theorem setWord_hit (s : Sys) (a v : Nat) : (s.setWord a v).hit = s.hit := rfl
@[simp] theorem setWord_can (s : Sys) (a v : Nat) : (s.setWord a v).can = s.can := rfl
@[simp] theorem setWord_ports (s : Sys) (a v : Nat) : (s.setWord a v).ports = s.ports := rfl
@[simp] theorem setWord_dma (s : Sys) (a v : Nat) : (s.setWord a v).dma = s.dma := rfl
@[simp] theorem setWord_arb (s : Sys) (a v : Nat) : (s.setWord a v).arb = s.arb := rfl
@[simp] theorem setWord_mi (s : Sys) (a v : Nat) : (s.setWord a v).mi = s.mi := rfl
@[simp] theorem setWord_clk (s : Sys) (a v : Nat) : (s.setWord a v).clk = s.clk := rfl
@[simp] theorem setWord_pwr (s : Sys) (a v : Nat) : (s.setWord a v).pwr = s.pwr := rfl
@[simp] theorem setWord_rtc (s : Sys) (a v : Nat) : (s.setWord a v).rtc = s.rtc := rfl
@[simp] theorem setWord_keys (s : Sys) (a v : Nat) : (s.setWord a v).keys = s.keys := rfl
@[simp] theorem setWord_lck (s : Sys) (a v : Nat) : (s.setWord a v).lck = s.lck := rfl
@[simp] theorem setWord_upd (s : Sys) (a v : Nat) : (s.setWord a v).upd = s.upd := rfl
@[simp] theorem setWord_evr (s : Sys) (a v : Nat) : (s.setWord a v).evr = s.evr := rfl
@[simp] theorem setWord_mgt (s : Sys) (a v : Nat) : (s.setWord a v).mgt = s.mgt := rfl
@[simp] theorem setWord_strap (s : Sys) (a v : Nat) : (s.setWord a v).strap = s.strap := rfl

/-! ## `postBy` -/

@[simp] theorem postBy_regs (s : Sys) (q c l d : Nat) : (s.postBy q c l d).regs = s.regs := by unfold Sys.postBy; split <;> rfl
@[simp] theorem postBy_mem (s : Sys) (q c l d : Nat) : (s.postBy q c l d).mem = s.mem := by unfold Sys.postBy; split <;> rfl
@[simp] theorem postBy_hostMem (s : Sys) (q c l d : Nat) : (s.postBy q c l d).hostMem = s.hostMem := by unfold Sys.postBy; split <;> rfl
@[simp] theorem postBy_response (s : Sys) (q c l d : Nat) : (s.postBy q c l d).response = s.response := by unfold Sys.postBy; split <;> rfl
@[simp] theorem postBy_fclk (s : Sys) (q c l d : Nat) : (s.postBy q c l d).fclk = s.fclk := by unfold Sys.postBy; split <;> rfl
@[simp] theorem postBy_lfxo (s : Sys) (q c l d : Nat) : (s.postBy q c l d).lfxo = s.lfxo := by unfold Sys.postBy; split <;> rfl
@[simp] theorem postBy_limits (s : Sys) (q c l d : Nat) : (s.postBy q c l d).limits = s.limits := by unfold Sys.postBy; split <;> rfl
@[simp] theorem postBy_draws (s : Sys) (q c l d : Nat) : (s.postBy q c l d).draws = s.draws := by unfold Sys.postBy; split <;> rfl
@[simp] theorem postBy_signals (s : Sys) (q c l d : Nat) : (s.postBy q c l d).signals = s.signals := by unfold Sys.postBy; split <;> rfl
@[simp] theorem postBy_ang (s : Sys) (q c l d : Nat) : (s.postBy q c l d).ang = s.ang := by unfold Sys.postBy; split <;> rfl
@[simp] theorem postBy_ctx (s : Sys) (q c l d : Nat) : (s.postBy q c l d).ctx = s.ctx := by unfold Sys.postBy; split <;> rfl
@[simp] theorem postBy_col (s : Sys) (q c l d : Nat) : (s.postBy q c l d).col = s.col := by unfold Sys.postBy; split <;> rfl
@[simp] theorem postBy_lanes (s : Sys) (q c l d : Nat) : (s.postBy q c l d).lanes = s.lanes := by unfold Sys.postBy; split <;> rfl
@[simp] theorem postBy_vot (s : Sys) (q c l d : Nat) : (s.postBy q c l d).vot = s.vot := by unfold Sys.postBy; split <;> rfl
@[simp] theorem postBy_loft (s : Sys) (q c l d : Nat) : (s.postBy q c l d).loft = s.loft := by unfold Sys.postBy; split <;> rfl
@[simp] theorem postBy_chg (s : Sys) (q c l d : Nat) : (s.postBy q c l d).chg = s.chg := by unfold Sys.postBy; split <;> rfl
@[simp] theorem postBy_prog (s : Sys) (q c l d : Nat) : (s.postBy q c l d).prog = s.prog := by unfold Sys.postBy; split <;> rfl
@[simp] theorem postBy_fe (s : Sys) (q c l d : Nat) : (s.postBy q c l d).fe = s.fe := by unfold Sys.postBy; split <;> rfl
@[simp] theorem postBy_fab (s : Sys) (q c l d : Nat) : (s.postBy q c l d).fab = s.fab := by unfold Sys.postBy; split <;> rfl
@[simp] theorem postBy_hit (s : Sys) (q c l d : Nat) : (s.postBy q c l d).hit = s.hit := by unfold Sys.postBy; split <;> rfl
@[simp] theorem postBy_can (s : Sys) (q c l d : Nat) : (s.postBy q c l d).can = s.can := by unfold Sys.postBy; split <;> rfl
@[simp] theorem postBy_ports (s : Sys) (q c l d : Nat) : (s.postBy q c l d).ports = s.ports := by unfold Sys.postBy; split <;> rfl
@[simp] theorem postBy_dma (s : Sys) (q c l d : Nat) : (s.postBy q c l d).dma = s.dma := by unfold Sys.postBy; split <;> rfl
@[simp] theorem postBy_arb (s : Sys) (q c l d : Nat) : (s.postBy q c l d).arb = s.arb := by unfold Sys.postBy; split <;> rfl
@[simp] theorem postBy_mi (s : Sys) (q c l d : Nat) : (s.postBy q c l d).mi = s.mi := by unfold Sys.postBy; split <;> rfl
@[simp] theorem postBy_clk (s : Sys) (q c l d : Nat) : (s.postBy q c l d).clk = s.clk := by unfold Sys.postBy; split <;> rfl
@[simp] theorem postBy_pwr (s : Sys) (q c l d : Nat) : (s.postBy q c l d).pwr = s.pwr := by unfold Sys.postBy; split <;> rfl
@[simp] theorem postBy_rtc (s : Sys) (q c l d : Nat) : (s.postBy q c l d).rtc = s.rtc := by unfold Sys.postBy; split <;> rfl
@[simp] theorem postBy_keys (s : Sys) (q c l d : Nat) : (s.postBy q c l d).keys = s.keys := by unfold Sys.postBy; split <;> rfl
@[simp] theorem postBy_lck (s : Sys) (q c l d : Nat) : (s.postBy q c l d).lck = s.lck := by unfold Sys.postBy; split <;> rfl
@[simp] theorem postBy_upd (s : Sys) (q c l d : Nat) : (s.postBy q c l d).upd = s.upd := by unfold Sys.postBy; split <;> rfl
@[simp] theorem postBy_evr (s : Sys) (q c l d : Nat) : (s.postBy q c l d).evr = s.evr := by unfold Sys.postBy; split <;> rfl
@[simp] theorem postBy_mgt (s : Sys) (q c l d : Nat) : (s.postBy q c l d).mgt = s.mgt := by unfold Sys.postBy; split <;> rfl
@[simp] theorem postBy_strap (s : Sys) (q c l d : Nat) : (s.postBy q c l d).strap = s.strap := by unfold Sys.postBy; split <;> rfl
@[simp] theorem postBy_reg (s : Sys) (q c l d : Nat) (x : Nat) : (s.postBy q c l d).reg x = s.reg x := by unfold Sys.reg; rw [postBy_regs]
@[simp] theorem postBy_get (s : Sys) (q c l d : Nat) (g : Fld) : (s.postBy q c l d).get g = s.get g := by unfold Sys.get; rw [postBy_reg]
@[simp] theorem postBy_on (s : Sys) (q c l d : Nat) (g : Fld) : (s.postBy q c l d).on g = s.on g := by unfold Sys.on; rw [postBy_get]
@[simp] theorem postBy_bit (s : Sys) (q c l d : Nat) (g : Fld) (i : Nat) : (s.postBy q c l d).bit g i = s.bit g i := by unfold Sys.bit; rw [postBy_get]
@[simp] theorem postBy_word (s : Sys) (q c l d : Nat) (x : Nat) : (s.postBy q c l d).word x = s.word x := by unfold Sys.word; rw [postBy_reg]
@[simp] theorem postBy_domUp (s : Sys) (q c l d : Nat) (i : Nat) : (s.postBy q c l d).domUp i = s.domUp i := by unfold Sys.domUp; rw [postBy_bit]

/-! ## `post` -/

@[simp] theorem post_regs (s : Sys) (c l : Nat) (vs : List (Nat × Nat)) : (s.post c l vs).regs = s.regs := postBy_regs ..
@[simp] theorem post_mem (s : Sys) (c l : Nat) (vs : List (Nat × Nat)) : (s.post c l vs).mem = s.mem := postBy_mem ..
@[simp] theorem post_hostMem (s : Sys) (c l : Nat) (vs : List (Nat × Nat)) : (s.post c l vs).hostMem = s.hostMem := postBy_hostMem ..
@[simp] theorem post_response (s : Sys) (c l : Nat) (vs : List (Nat × Nat)) : (s.post c l vs).response = s.response := postBy_response ..
@[simp] theorem post_fclk (s : Sys) (c l : Nat) (vs : List (Nat × Nat)) : (s.post c l vs).fclk = s.fclk := postBy_fclk ..
@[simp] theorem post_lfxo (s : Sys) (c l : Nat) (vs : List (Nat × Nat)) : (s.post c l vs).lfxo = s.lfxo := postBy_lfxo ..
@[simp] theorem post_limits (s : Sys) (c l : Nat) (vs : List (Nat × Nat)) : (s.post c l vs).limits = s.limits := postBy_limits ..
@[simp] theorem post_draws (s : Sys) (c l : Nat) (vs : List (Nat × Nat)) : (s.post c l vs).draws = s.draws := postBy_draws ..
@[simp] theorem post_signals (s : Sys) (c l : Nat) (vs : List (Nat × Nat)) : (s.post c l vs).signals = s.signals := postBy_signals ..
@[simp] theorem post_ang (s : Sys) (c l : Nat) (vs : List (Nat × Nat)) : (s.post c l vs).ang = s.ang := postBy_ang ..
@[simp] theorem post_ctx (s : Sys) (c l : Nat) (vs : List (Nat × Nat)) : (s.post c l vs).ctx = s.ctx := postBy_ctx ..
@[simp] theorem post_col (s : Sys) (c l : Nat) (vs : List (Nat × Nat)) : (s.post c l vs).col = s.col := postBy_col ..
@[simp] theorem post_lanes (s : Sys) (c l : Nat) (vs : List (Nat × Nat)) : (s.post c l vs).lanes = s.lanes := postBy_lanes ..
@[simp] theorem post_vot (s : Sys) (c l : Nat) (vs : List (Nat × Nat)) : (s.post c l vs).vot = s.vot := postBy_vot ..
@[simp] theorem post_loft (s : Sys) (c l : Nat) (vs : List (Nat × Nat)) : (s.post c l vs).loft = s.loft := postBy_loft ..
@[simp] theorem post_chg (s : Sys) (c l : Nat) (vs : List (Nat × Nat)) : (s.post c l vs).chg = s.chg := postBy_chg ..
@[simp] theorem post_prog (s : Sys) (c l : Nat) (vs : List (Nat × Nat)) : (s.post c l vs).prog = s.prog := postBy_prog ..
@[simp] theorem post_fe (s : Sys) (c l : Nat) (vs : List (Nat × Nat)) : (s.post c l vs).fe = s.fe := postBy_fe ..
@[simp] theorem post_fab (s : Sys) (c l : Nat) (vs : List (Nat × Nat)) : (s.post c l vs).fab = s.fab := postBy_fab ..
@[simp] theorem post_hit (s : Sys) (c l : Nat) (vs : List (Nat × Nat)) : (s.post c l vs).hit = s.hit := postBy_hit ..
@[simp] theorem post_can (s : Sys) (c l : Nat) (vs : List (Nat × Nat)) : (s.post c l vs).can = s.can := postBy_can ..
@[simp] theorem post_ports (s : Sys) (c l : Nat) (vs : List (Nat × Nat)) : (s.post c l vs).ports = s.ports := postBy_ports ..
@[simp] theorem post_dma (s : Sys) (c l : Nat) (vs : List (Nat × Nat)) : (s.post c l vs).dma = s.dma := postBy_dma ..
@[simp] theorem post_arb (s : Sys) (c l : Nat) (vs : List (Nat × Nat)) : (s.post c l vs).arb = s.arb := postBy_arb ..
@[simp] theorem post_mi (s : Sys) (c l : Nat) (vs : List (Nat × Nat)) : (s.post c l vs).mi = s.mi := postBy_mi ..
@[simp] theorem post_clk (s : Sys) (c l : Nat) (vs : List (Nat × Nat)) : (s.post c l vs).clk = s.clk := postBy_clk ..
@[simp] theorem post_pwr (s : Sys) (c l : Nat) (vs : List (Nat × Nat)) : (s.post c l vs).pwr = s.pwr := postBy_pwr ..
@[simp] theorem post_rtc (s : Sys) (c l : Nat) (vs : List (Nat × Nat)) : (s.post c l vs).rtc = s.rtc := postBy_rtc ..
@[simp] theorem post_keys (s : Sys) (c l : Nat) (vs : List (Nat × Nat)) : (s.post c l vs).keys = s.keys := postBy_keys ..
@[simp] theorem post_lck (s : Sys) (c l : Nat) (vs : List (Nat × Nat)) : (s.post c l vs).lck = s.lck := postBy_lck ..
@[simp] theorem post_upd (s : Sys) (c l : Nat) (vs : List (Nat × Nat)) : (s.post c l vs).upd = s.upd := postBy_upd ..
@[simp] theorem post_evr (s : Sys) (c l : Nat) (vs : List (Nat × Nat)) : (s.post c l vs).evr = s.evr := postBy_evr ..
@[simp] theorem post_mgt (s : Sys) (c l : Nat) (vs : List (Nat × Nat)) : (s.post c l vs).mgt = s.mgt := postBy_mgt ..
@[simp] theorem post_strap (s : Sys) (c l : Nat) (vs : List (Nat × Nat)) : (s.post c l vs).strap = s.strap := postBy_strap ..
@[simp] theorem post_reg (s : Sys) (c l : Nat) (vs : List (Nat × Nat)) (x : Nat) : (s.post c l vs).reg x = s.reg x := by unfold Sys.reg; rw [post_regs]
@[simp] theorem post_get (s : Sys) (c l : Nat) (vs : List (Nat × Nat)) (g : Fld) : (s.post c l vs).get g = s.get g := by unfold Sys.get; rw [post_reg]
@[simp] theorem post_on (s : Sys) (c l : Nat) (vs : List (Nat × Nat)) (g : Fld) : (s.post c l vs).on g = s.on g := by unfold Sys.on; rw [post_get]
@[simp] theorem post_bit (s : Sys) (c l : Nat) (vs : List (Nat × Nat)) (g : Fld) (i : Nat) : (s.post c l vs).bit g i = s.bit g i := by unfold Sys.bit; rw [post_get]
@[simp] theorem post_word (s : Sys) (c l : Nat) (vs : List (Nat × Nat)) (x : Nat) : (s.post c l vs).word x = s.word x := by unfold Sys.word; rw [post_reg]
@[simp] theorem post_domUp (s : Sys) (c l : Nat) (vs : List (Nat × Nat)) (i : Nat) : (s.post c l vs).domUp i = s.domUp i := by unfold Sys.domUp; rw [post_bit]

/-! ## `note` -/

@[simp] theorem note_regs (s : Sys) (c : Nat) : (s.note c).regs = s.regs := postBy_regs ..
@[simp] theorem note_mem (s : Sys) (c : Nat) : (s.note c).mem = s.mem := postBy_mem ..
@[simp] theorem note_hostMem (s : Sys) (c : Nat) : (s.note c).hostMem = s.hostMem := postBy_hostMem ..
@[simp] theorem note_response (s : Sys) (c : Nat) : (s.note c).response = s.response := postBy_response ..
@[simp] theorem note_fclk (s : Sys) (c : Nat) : (s.note c).fclk = s.fclk := postBy_fclk ..
@[simp] theorem note_lfxo (s : Sys) (c : Nat) : (s.note c).lfxo = s.lfxo := postBy_lfxo ..
@[simp] theorem note_limits (s : Sys) (c : Nat) : (s.note c).limits = s.limits := postBy_limits ..
@[simp] theorem note_draws (s : Sys) (c : Nat) : (s.note c).draws = s.draws := postBy_draws ..
@[simp] theorem note_signals (s : Sys) (c : Nat) : (s.note c).signals = s.signals := postBy_signals ..
@[simp] theorem note_ang (s : Sys) (c : Nat) : (s.note c).ang = s.ang := postBy_ang ..
@[simp] theorem note_ctx (s : Sys) (c : Nat) : (s.note c).ctx = s.ctx := postBy_ctx ..
@[simp] theorem note_col (s : Sys) (c : Nat) : (s.note c).col = s.col := postBy_col ..
@[simp] theorem note_lanes (s : Sys) (c : Nat) : (s.note c).lanes = s.lanes := postBy_lanes ..
@[simp] theorem note_vot (s : Sys) (c : Nat) : (s.note c).vot = s.vot := postBy_vot ..
@[simp] theorem note_loft (s : Sys) (c : Nat) : (s.note c).loft = s.loft := postBy_loft ..
@[simp] theorem note_chg (s : Sys) (c : Nat) : (s.note c).chg = s.chg := postBy_chg ..
@[simp] theorem note_prog (s : Sys) (c : Nat) : (s.note c).prog = s.prog := postBy_prog ..
@[simp] theorem note_fe (s : Sys) (c : Nat) : (s.note c).fe = s.fe := postBy_fe ..
@[simp] theorem note_fab (s : Sys) (c : Nat) : (s.note c).fab = s.fab := postBy_fab ..
@[simp] theorem note_hit (s : Sys) (c : Nat) : (s.note c).hit = s.hit := postBy_hit ..
@[simp] theorem note_can (s : Sys) (c : Nat) : (s.note c).can = s.can := postBy_can ..
@[simp] theorem note_ports (s : Sys) (c : Nat) : (s.note c).ports = s.ports := postBy_ports ..
@[simp] theorem note_dma (s : Sys) (c : Nat) : (s.note c).dma = s.dma := postBy_dma ..
@[simp] theorem note_arb (s : Sys) (c : Nat) : (s.note c).arb = s.arb := postBy_arb ..
@[simp] theorem note_mi (s : Sys) (c : Nat) : (s.note c).mi = s.mi := postBy_mi ..
@[simp] theorem note_clk (s : Sys) (c : Nat) : (s.note c).clk = s.clk := postBy_clk ..
@[simp] theorem note_pwr (s : Sys) (c : Nat) : (s.note c).pwr = s.pwr := postBy_pwr ..
@[simp] theorem note_rtc (s : Sys) (c : Nat) : (s.note c).rtc = s.rtc := postBy_rtc ..
@[simp] theorem note_keys (s : Sys) (c : Nat) : (s.note c).keys = s.keys := postBy_keys ..
@[simp] theorem note_lck (s : Sys) (c : Nat) : (s.note c).lck = s.lck := postBy_lck ..
@[simp] theorem note_upd (s : Sys) (c : Nat) : (s.note c).upd = s.upd := postBy_upd ..
@[simp] theorem note_evr (s : Sys) (c : Nat) : (s.note c).evr = s.evr := postBy_evr ..
@[simp] theorem note_mgt (s : Sys) (c : Nat) : (s.note c).mgt = s.mgt := postBy_mgt ..
@[simp] theorem note_strap (s : Sys) (c : Nat) : (s.note c).strap = s.strap := postBy_strap ..
@[simp] theorem note_reg (s : Sys) (c : Nat) (x : Nat) : (s.note c).reg x = s.reg x := by unfold Sys.reg; rw [note_regs]
@[simp] theorem note_get (s : Sys) (c : Nat) (g : Fld) : (s.note c).get g = s.get g := by unfold Sys.get; rw [note_reg]
@[simp] theorem note_on (s : Sys) (c : Nat) (g : Fld) : (s.note c).on g = s.on g := by unfold Sys.on; rw [note_get]
@[simp] theorem note_bit (s : Sys) (c : Nat) (g : Fld) (i : Nat) : (s.note c).bit g i = s.bit g i := by unfold Sys.bit; rw [note_get]
@[simp] theorem note_word (s : Sys) (c : Nat) (x : Nat) : (s.note c).word x = s.word x := by unfold Sys.word; rw [note_reg]
@[simp] theorem note_domUp (s : Sys) (c : Nat) (i : Nat) : (s.note c).domUp i = s.domUp i := by unfold Sys.domUp; rw [note_bit]

/-! ## `postLimited` -/

@[simp] theorem postLimited_regs (s : Sys) (k p c l : Nat) (vs : List (Nat × Nat)) : (s.postLimited k p c l vs).regs = s.regs := by unfold Sys.postLimited; (repeat' split) <;> first | rfl | exact postBy_regs ..
@[simp] theorem postLimited_mem (s : Sys) (k p c l : Nat) (vs : List (Nat × Nat)) : (s.postLimited k p c l vs).mem = s.mem := by unfold Sys.postLimited; (repeat' split) <;> first | rfl | exact postBy_mem ..
@[simp] theorem postLimited_hostMem (s : Sys) (k p c l : Nat) (vs : List (Nat × Nat)) : (s.postLimited k p c l vs).hostMem = s.hostMem := by unfold Sys.postLimited; (repeat' split) <;> first | rfl | exact postBy_hostMem ..
@[simp] theorem postLimited_response (s : Sys) (k p c l : Nat) (vs : List (Nat × Nat)) : (s.postLimited k p c l vs).response = s.response := by unfold Sys.postLimited; (repeat' split) <;> first | rfl | exact postBy_response ..
@[simp] theorem postLimited_fclk (s : Sys) (k p c l : Nat) (vs : List (Nat × Nat)) : (s.postLimited k p c l vs).fclk = s.fclk := by unfold Sys.postLimited; (repeat' split) <;> first | rfl | exact postBy_fclk ..
@[simp] theorem postLimited_lfxo (s : Sys) (k p c l : Nat) (vs : List (Nat × Nat)) : (s.postLimited k p c l vs).lfxo = s.lfxo := by unfold Sys.postLimited; (repeat' split) <;> first | rfl | exact postBy_lfxo ..
@[simp] theorem postLimited_draws (s : Sys) (k p c l : Nat) (vs : List (Nat × Nat)) : (s.postLimited k p c l vs).draws = s.draws := by unfold Sys.postLimited; (repeat' split) <;> first | rfl | exact postBy_draws ..
@[simp] theorem postLimited_signals (s : Sys) (k p c l : Nat) (vs : List (Nat × Nat)) : (s.postLimited k p c l vs).signals = s.signals := by unfold Sys.postLimited; (repeat' split) <;> first | rfl | exact postBy_signals ..
@[simp] theorem postLimited_ang (s : Sys) (k p c l : Nat) (vs : List (Nat × Nat)) : (s.postLimited k p c l vs).ang = s.ang := by unfold Sys.postLimited; (repeat' split) <;> first | rfl | exact postBy_ang ..
@[simp] theorem postLimited_ctx (s : Sys) (k p c l : Nat) (vs : List (Nat × Nat)) : (s.postLimited k p c l vs).ctx = s.ctx := by unfold Sys.postLimited; (repeat' split) <;> first | rfl | exact postBy_ctx ..
@[simp] theorem postLimited_col (s : Sys) (k p c l : Nat) (vs : List (Nat × Nat)) : (s.postLimited k p c l vs).col = s.col := by unfold Sys.postLimited; (repeat' split) <;> first | rfl | exact postBy_col ..
@[simp] theorem postLimited_lanes (s : Sys) (k p c l : Nat) (vs : List (Nat × Nat)) : (s.postLimited k p c l vs).lanes = s.lanes := by unfold Sys.postLimited; (repeat' split) <;> first | rfl | exact postBy_lanes ..
@[simp] theorem postLimited_vot (s : Sys) (k p c l : Nat) (vs : List (Nat × Nat)) : (s.postLimited k p c l vs).vot = s.vot := by unfold Sys.postLimited; (repeat' split) <;> first | rfl | exact postBy_vot ..
@[simp] theorem postLimited_loft (s : Sys) (k p c l : Nat) (vs : List (Nat × Nat)) : (s.postLimited k p c l vs).loft = s.loft := by unfold Sys.postLimited; (repeat' split) <;> first | rfl | exact postBy_loft ..
@[simp] theorem postLimited_chg (s : Sys) (k p c l : Nat) (vs : List (Nat × Nat)) : (s.postLimited k p c l vs).chg = s.chg := by unfold Sys.postLimited; (repeat' split) <;> first | rfl | exact postBy_chg ..
@[simp] theorem postLimited_prog (s : Sys) (k p c l : Nat) (vs : List (Nat × Nat)) : (s.postLimited k p c l vs).prog = s.prog := by unfold Sys.postLimited; (repeat' split) <;> first | rfl | exact postBy_prog ..
@[simp] theorem postLimited_fe (s : Sys) (k p c l : Nat) (vs : List (Nat × Nat)) : (s.postLimited k p c l vs).fe = s.fe := by unfold Sys.postLimited; (repeat' split) <;> first | rfl | exact postBy_fe ..
@[simp] theorem postLimited_fab (s : Sys) (k p c l : Nat) (vs : List (Nat × Nat)) : (s.postLimited k p c l vs).fab = s.fab := by unfold Sys.postLimited; (repeat' split) <;> first | rfl | exact postBy_fab ..
@[simp] theorem postLimited_hit (s : Sys) (k p c l : Nat) (vs : List (Nat × Nat)) : (s.postLimited k p c l vs).hit = s.hit := by unfold Sys.postLimited; (repeat' split) <;> first | rfl | exact postBy_hit ..
@[simp] theorem postLimited_can (s : Sys) (k p c l : Nat) (vs : List (Nat × Nat)) : (s.postLimited k p c l vs).can = s.can := by unfold Sys.postLimited; (repeat' split) <;> first | rfl | exact postBy_can ..
@[simp] theorem postLimited_ports (s : Sys) (k p c l : Nat) (vs : List (Nat × Nat)) : (s.postLimited k p c l vs).ports = s.ports := by unfold Sys.postLimited; (repeat' split) <;> first | rfl | exact postBy_ports ..
@[simp] theorem postLimited_dma (s : Sys) (k p c l : Nat) (vs : List (Nat × Nat)) : (s.postLimited k p c l vs).dma = s.dma := by unfold Sys.postLimited; (repeat' split) <;> first | rfl | exact postBy_dma ..
@[simp] theorem postLimited_arb (s : Sys) (k p c l : Nat) (vs : List (Nat × Nat)) : (s.postLimited k p c l vs).arb = s.arb := by unfold Sys.postLimited; (repeat' split) <;> first | rfl | exact postBy_arb ..
@[simp] theorem postLimited_mi (s : Sys) (k p c l : Nat) (vs : List (Nat × Nat)) : (s.postLimited k p c l vs).mi = s.mi := by unfold Sys.postLimited; (repeat' split) <;> first | rfl | exact postBy_mi ..
@[simp] theorem postLimited_clk (s : Sys) (k p c l : Nat) (vs : List (Nat × Nat)) : (s.postLimited k p c l vs).clk = s.clk := by unfold Sys.postLimited; (repeat' split) <;> first | rfl | exact postBy_clk ..
@[simp] theorem postLimited_pwr (s : Sys) (k p c l : Nat) (vs : List (Nat × Nat)) : (s.postLimited k p c l vs).pwr = s.pwr := by unfold Sys.postLimited; (repeat' split) <;> first | rfl | exact postBy_pwr ..
@[simp] theorem postLimited_rtc (s : Sys) (k p c l : Nat) (vs : List (Nat × Nat)) : (s.postLimited k p c l vs).rtc = s.rtc := by unfold Sys.postLimited; (repeat' split) <;> first | rfl | exact postBy_rtc ..
@[simp] theorem postLimited_keys (s : Sys) (k p c l : Nat) (vs : List (Nat × Nat)) : (s.postLimited k p c l vs).keys = s.keys := by unfold Sys.postLimited; (repeat' split) <;> first | rfl | exact postBy_keys ..
@[simp] theorem postLimited_lck (s : Sys) (k p c l : Nat) (vs : List (Nat × Nat)) : (s.postLimited k p c l vs).lck = s.lck := by unfold Sys.postLimited; (repeat' split) <;> first | rfl | exact postBy_lck ..
@[simp] theorem postLimited_upd (s : Sys) (k p c l : Nat) (vs : List (Nat × Nat)) : (s.postLimited k p c l vs).upd = s.upd := by unfold Sys.postLimited; (repeat' split) <;> first | rfl | exact postBy_upd ..
@[simp] theorem postLimited_evr (s : Sys) (k p c l : Nat) (vs : List (Nat × Nat)) : (s.postLimited k p c l vs).evr = s.evr := by unfold Sys.postLimited; (repeat' split) <;> first | rfl | exact postBy_evr ..
@[simp] theorem postLimited_mgt (s : Sys) (k p c l : Nat) (vs : List (Nat × Nat)) : (s.postLimited k p c l vs).mgt = s.mgt := by unfold Sys.postLimited; (repeat' split) <;> first | rfl | exact postBy_mgt ..
@[simp] theorem postLimited_strap (s : Sys) (k p c l : Nat) (vs : List (Nat × Nat)) : (s.postLimited k p c l vs).strap = s.strap := by unfold Sys.postLimited; (repeat' split) <;> first | rfl | exact postBy_strap ..
@[simp] theorem postLimited_reg (s : Sys) (k p c l : Nat) (vs : List (Nat × Nat)) (x : Nat) : (s.postLimited k p c l vs).reg x = s.reg x := by unfold Sys.reg; rw [postLimited_regs]
@[simp] theorem postLimited_get (s : Sys) (k p c l : Nat) (vs : List (Nat × Nat)) (g : Fld) : (s.postLimited k p c l vs).get g = s.get g := by unfold Sys.get; rw [postLimited_reg]
@[simp] theorem postLimited_on (s : Sys) (k p c l : Nat) (vs : List (Nat × Nat)) (g : Fld) : (s.postLimited k p c l vs).on g = s.on g := by unfold Sys.on; rw [postLimited_get]
@[simp] theorem postLimited_bit (s : Sys) (k p c l : Nat) (vs : List (Nat × Nat)) (g : Fld) (i : Nat) : (s.postLimited k p c l vs).bit g i = s.bit g i := by unfold Sys.bit; rw [postLimited_get]
@[simp] theorem postLimited_word (s : Sys) (k p c l : Nat) (vs : List (Nat × Nat)) (x : Nat) : (s.postLimited k p c l vs).word x = s.word x := by unfold Sys.word; rw [postLimited_reg]
@[simp] theorem postLimited_domUp (s : Sys) (k p c l : Nat) (vs : List (Nat × Nat)) (i : Nat) : (s.postLimited k p c l vs).domUp i = s.domUp i := by unfold Sys.domUp; rw [postLimited_bit]

/-! ## `draw` -/

@[simp] theorem draw_regs (s : Sys) : (s.draw.2).regs = s.regs := rfl
@[simp] theorem draw_mem (s : Sys) : (s.draw.2).mem = s.mem := rfl
@[simp] theorem draw_hostMem (s : Sys) : (s.draw.2).hostMem = s.hostMem := rfl
@[simp] theorem draw_response (s : Sys) : (s.draw.2).response = s.response := rfl
@[simp] theorem draw_posts (s : Sys) : (s.draw.2).posts = s.posts := rfl
@[simp] theorem draw_fclk (s : Sys) : (s.draw.2).fclk = s.fclk := rfl
@[simp] theorem draw_lfxo (s : Sys) : (s.draw.2).lfxo = s.lfxo := rfl
@[simp] theorem draw_limits (s : Sys) : (s.draw.2).limits = s.limits := rfl
@[simp] theorem draw_signals (s : Sys) : (s.draw.2).signals = s.signals := rfl
@[simp] theorem draw_ang (s : Sys) : (s.draw.2).ang = s.ang := rfl
@[simp] theorem draw_ctx (s : Sys) : (s.draw.2).ctx = s.ctx := rfl
@[simp] theorem draw_col (s : Sys) : (s.draw.2).col = s.col := rfl
@[simp] theorem draw_lanes (s : Sys) : (s.draw.2).lanes = s.lanes := rfl
@[simp] theorem draw_vot (s : Sys) : (s.draw.2).vot = s.vot := rfl
@[simp] theorem draw_loft (s : Sys) : (s.draw.2).loft = s.loft := rfl
@[simp] theorem draw_chg (s : Sys) : (s.draw.2).chg = s.chg := rfl
@[simp] theorem draw_prog (s : Sys) : (s.draw.2).prog = s.prog := rfl
@[simp] theorem draw_fe (s : Sys) : (s.draw.2).fe = s.fe := rfl
@[simp] theorem draw_fab (s : Sys) : (s.draw.2).fab = s.fab := rfl
@[simp] theorem draw_hit (s : Sys) : (s.draw.2).hit = s.hit := rfl
@[simp] theorem draw_can (s : Sys) : (s.draw.2).can = s.can := rfl
@[simp] theorem draw_ports (s : Sys) : (s.draw.2).ports = s.ports := rfl
@[simp] theorem draw_dma (s : Sys) : (s.draw.2).dma = s.dma := rfl
@[simp] theorem draw_arb (s : Sys) : (s.draw.2).arb = s.arb := rfl
@[simp] theorem draw_mi (s : Sys) : (s.draw.2).mi = s.mi := rfl
@[simp] theorem draw_clk (s : Sys) : (s.draw.2).clk = s.clk := rfl
@[simp] theorem draw_pwr (s : Sys) : (s.draw.2).pwr = s.pwr := rfl
@[simp] theorem draw_rtc (s : Sys) : (s.draw.2).rtc = s.rtc := rfl
@[simp] theorem draw_keys (s : Sys) : (s.draw.2).keys = s.keys := rfl
@[simp] theorem draw_lck (s : Sys) : (s.draw.2).lck = s.lck := rfl
@[simp] theorem draw_upd (s : Sys) : (s.draw.2).upd = s.upd := rfl
@[simp] theorem draw_evr (s : Sys) : (s.draw.2).evr = s.evr := rfl
@[simp] theorem draw_mgt (s : Sys) : (s.draw.2).mgt = s.mgt := rfl
@[simp] theorem draw_strap (s : Sys) : (s.draw.2).strap = s.strap := rfl
@[simp] theorem draw_reg (s : Sys) (x : Nat) : (s.draw.2).reg x = s.reg x := by unfold Sys.reg; rw [draw_regs]
@[simp] theorem draw_get (s : Sys) (g : Fld) : (s.draw.2).get g = s.get g := by unfold Sys.get; rw [draw_reg]
@[simp] theorem draw_on (s : Sys) (g : Fld) : (s.draw.2).on g = s.on g := by unfold Sys.on; rw [draw_get]
@[simp] theorem draw_bit (s : Sys) (g : Fld) (i : Nat) : (s.draw.2).bit g i = s.bit g i := by unfold Sys.bit; rw [draw_get]
@[simp] theorem draw_word (s : Sys) (x : Nat) : (s.draw.2).word x = s.word x := by unfold Sys.word; rw [draw_reg]
@[simp] theorem draw_domUp (s : Sys) (i : Nat) : (s.draw.2).domUp i = s.domUp i := by unfold Sys.domUp; rw [draw_bit]

/-! ## `drawRandom` -/

@[simp] theorem drawRandom_regs (s : Sys) : (s.drawRandom.2).regs = s.regs := rfl
@[simp] theorem drawRandom_mem (s : Sys) : (s.drawRandom.2).mem = s.mem := rfl
@[simp] theorem drawRandom_hostMem (s : Sys) : (s.drawRandom.2).hostMem = s.hostMem := rfl
@[simp] theorem drawRandom_response (s : Sys) : (s.drawRandom.2).response = s.response := rfl
@[simp] theorem drawRandom_posts (s : Sys) : (s.drawRandom.2).posts = s.posts := rfl
@[simp] theorem drawRandom_fclk (s : Sys) : (s.drawRandom.2).fclk = s.fclk := rfl
@[simp] theorem drawRandom_lfxo (s : Sys) : (s.drawRandom.2).lfxo = s.lfxo := rfl
@[simp] theorem drawRandom_limits (s : Sys) : (s.drawRandom.2).limits = s.limits := rfl
@[simp] theorem drawRandom_signals (s : Sys) : (s.drawRandom.2).signals = s.signals := rfl
@[simp] theorem drawRandom_ang (s : Sys) : (s.drawRandom.2).ang = s.ang := rfl
@[simp] theorem drawRandom_ctx (s : Sys) : (s.drawRandom.2).ctx = s.ctx := rfl
@[simp] theorem drawRandom_col (s : Sys) : (s.drawRandom.2).col = s.col := rfl
@[simp] theorem drawRandom_lanes (s : Sys) : (s.drawRandom.2).lanes = s.lanes := rfl
@[simp] theorem drawRandom_vot (s : Sys) : (s.drawRandom.2).vot = s.vot := rfl
@[simp] theorem drawRandom_loft (s : Sys) : (s.drawRandom.2).loft = s.loft := rfl
@[simp] theorem drawRandom_chg (s : Sys) : (s.drawRandom.2).chg = s.chg := rfl
@[simp] theorem drawRandom_prog (s : Sys) : (s.drawRandom.2).prog = s.prog := rfl
@[simp] theorem drawRandom_fe (s : Sys) : (s.drawRandom.2).fe = s.fe := rfl
@[simp] theorem drawRandom_fab (s : Sys) : (s.drawRandom.2).fab = s.fab := rfl
@[simp] theorem drawRandom_hit (s : Sys) : (s.drawRandom.2).hit = s.hit := rfl
@[simp] theorem drawRandom_can (s : Sys) : (s.drawRandom.2).can = s.can := rfl
@[simp] theorem drawRandom_ports (s : Sys) : (s.drawRandom.2).ports = s.ports := rfl
@[simp] theorem drawRandom_dma (s : Sys) : (s.drawRandom.2).dma = s.dma := rfl
@[simp] theorem drawRandom_arb (s : Sys) : (s.drawRandom.2).arb = s.arb := rfl
@[simp] theorem drawRandom_mi (s : Sys) : (s.drawRandom.2).mi = s.mi := rfl
@[simp] theorem drawRandom_clk (s : Sys) : (s.drawRandom.2).clk = s.clk := rfl
@[simp] theorem drawRandom_pwr (s : Sys) : (s.drawRandom.2).pwr = s.pwr := rfl
@[simp] theorem drawRandom_rtc (s : Sys) : (s.drawRandom.2).rtc = s.rtc := rfl
@[simp] theorem drawRandom_keys (s : Sys) : (s.drawRandom.2).keys = s.keys := rfl
@[simp] theorem drawRandom_lck (s : Sys) : (s.drawRandom.2).lck = s.lck := rfl
@[simp] theorem drawRandom_upd (s : Sys) : (s.drawRandom.2).upd = s.upd := rfl
@[simp] theorem drawRandom_evr (s : Sys) : (s.drawRandom.2).evr = s.evr := rfl
@[simp] theorem drawRandom_mgt (s : Sys) : (s.drawRandom.2).mgt = s.mgt := rfl
@[simp] theorem drawRandom_strap (s : Sys) : (s.drawRandom.2).strap = s.strap := rfl
@[simp] theorem drawRandom_reg (s : Sys) (x : Nat) : (s.drawRandom.2).reg x = s.reg x := by unfold Sys.reg; rw [drawRandom_regs]
@[simp] theorem drawRandom_get (s : Sys) (g : Fld) : (s.drawRandom.2).get g = s.get g := by unfold Sys.get; rw [drawRandom_reg]
@[simp] theorem drawRandom_on (s : Sys) (g : Fld) : (s.drawRandom.2).on g = s.on g := by unfold Sys.on; rw [drawRandom_get]
@[simp] theorem drawRandom_bit (s : Sys) (g : Fld) (i : Nat) : (s.drawRandom.2).bit g i = s.bit g i := by unfold Sys.bit; rw [drawRandom_get]
@[simp] theorem drawRandom_word (s : Sys) (x : Nat) : (s.drawRandom.2).word x = s.word x := by unfold Sys.word; rw [drawRandom_reg]
@[simp] theorem drawRandom_domUp (s : Sys) (i : Nat) : (s.drawRandom.2).domUp i = s.domUp i := by unfold Sys.domUp; rw [drawRandom_bit]

/-! ## `elapse` -/

@[simp] theorem elapse_regs (s : Sys) (n : Nat) : (s.elapse n).regs = s.regs := rfl
@[simp] theorem elapse_mem (s : Sys) (n : Nat) : (s.elapse n).mem = s.mem := rfl
@[simp] theorem elapse_hostMem (s : Sys) (n : Nat) : (s.elapse n).hostMem = s.hostMem := rfl
@[simp] theorem elapse_response (s : Sys) (n : Nat) : (s.elapse n).response = s.response := rfl
@[simp] theorem elapse_posts (s : Sys) (n : Nat) : (s.elapse n).posts = s.posts := rfl
@[simp] theorem elapse_limits (s : Sys) (n : Nat) : (s.elapse n).limits = s.limits := rfl
@[simp] theorem elapse_draws (s : Sys) (n : Nat) : (s.elapse n).draws = s.draws := rfl
@[simp] theorem elapse_signals (s : Sys) (n : Nat) : (s.elapse n).signals = s.signals := rfl
@[simp] theorem elapse_ctx (s : Sys) (n : Nat) : (s.elapse n).ctx = s.ctx := rfl
@[simp] theorem elapse_col (s : Sys) (n : Nat) : (s.elapse n).col = s.col := rfl
@[simp] theorem elapse_lanes (s : Sys) (n : Nat) : (s.elapse n).lanes = s.lanes := rfl
@[simp] theorem elapse_vot (s : Sys) (n : Nat) : (s.elapse n).vot = s.vot := rfl
@[simp] theorem elapse_loft (s : Sys) (n : Nat) : (s.elapse n).loft = s.loft := rfl
@[simp] theorem elapse_chg (s : Sys) (n : Nat) : (s.elapse n).chg = s.chg := rfl
@[simp] theorem elapse_prog (s : Sys) (n : Nat) : (s.elapse n).prog = s.prog := rfl
@[simp] theorem elapse_fe (s : Sys) (n : Nat) : (s.elapse n).fe = s.fe := rfl
@[simp] theorem elapse_fab (s : Sys) (n : Nat) : (s.elapse n).fab = s.fab := rfl
@[simp] theorem elapse_hit (s : Sys) (n : Nat) : (s.elapse n).hit = s.hit := rfl
@[simp] theorem elapse_can (s : Sys) (n : Nat) : (s.elapse n).can = s.can := rfl
@[simp] theorem elapse_ports (s : Sys) (n : Nat) : (s.elapse n).ports = s.ports := rfl
@[simp] theorem elapse_dma (s : Sys) (n : Nat) : (s.elapse n).dma = s.dma := rfl
@[simp] theorem elapse_arb (s : Sys) (n : Nat) : (s.elapse n).arb = s.arb := rfl
@[simp] theorem elapse_mi (s : Sys) (n : Nat) : (s.elapse n).mi = s.mi := rfl
@[simp] theorem elapse_clk (s : Sys) (n : Nat) : (s.elapse n).clk = s.clk := rfl
@[simp] theorem elapse_pwr (s : Sys) (n : Nat) : (s.elapse n).pwr = s.pwr := rfl
@[simp] theorem elapse_keys (s : Sys) (n : Nat) : (s.elapse n).keys = s.keys := rfl
@[simp] theorem elapse_lck (s : Sys) (n : Nat) : (s.elapse n).lck = s.lck := rfl
@[simp] theorem elapse_upd (s : Sys) (n : Nat) : (s.elapse n).upd = s.upd := rfl
@[simp] theorem elapse_evr (s : Sys) (n : Nat) : (s.elapse n).evr = s.evr := rfl
@[simp] theorem elapse_mgt (s : Sys) (n : Nat) : (s.elapse n).mgt = s.mgt := rfl
@[simp] theorem elapse_strap (s : Sys) (n : Nat) : (s.elapse n).strap = s.strap := rfl
@[simp] theorem elapse_reg (s : Sys) (n : Nat) (x : Nat) : (s.elapse n).reg x = s.reg x := by unfold Sys.reg; rw [elapse_regs]
@[simp] theorem elapse_get (s : Sys) (n : Nat) (g : Fld) : (s.elapse n).get g = s.get g := by unfold Sys.get; rw [elapse_reg]
@[simp] theorem elapse_on (s : Sys) (n : Nat) (g : Fld) : (s.elapse n).on g = s.on g := by unfold Sys.on; rw [elapse_get]
@[simp] theorem elapse_bit (s : Sys) (n : Nat) (g : Fld) (i : Nat) : (s.elapse n).bit g i = s.bit g i := by unfold Sys.bit; rw [elapse_get]
@[simp] theorem elapse_word (s : Sys) (n : Nat) (x : Nat) : (s.elapse n).word x = s.word x := by unfold Sys.word; rw [elapse_reg]
@[simp] theorem elapse_domUp (s : Sys) (n : Nat) (i : Nat) : (s.elapse n).domUp i = s.domUp i := by unfold Sys.domUp; rw [elapse_bit]

/-! ## `reach` -/

@[simp] theorem reach_regs (s : Sys) (n : Nat) : (s.reach n).regs = s.regs := by unfold Sys.reach; split <;> rfl
@[simp] theorem reach_mem (s : Sys) (n : Nat) : (s.reach n).mem = s.mem := by unfold Sys.reach; split <;> rfl
@[simp] theorem reach_hostMem (s : Sys) (n : Nat) : (s.reach n).hostMem = s.hostMem := by unfold Sys.reach; split <;> rfl
@[simp] theorem reach_response (s : Sys) (n : Nat) : (s.reach n).response = s.response := by unfold Sys.reach; split <;> rfl
@[simp] theorem reach_posts (s : Sys) (n : Nat) : (s.reach n).posts = s.posts := by unfold Sys.reach; split <;> rfl
@[simp] theorem reach_limits (s : Sys) (n : Nat) : (s.reach n).limits = s.limits := by unfold Sys.reach; split <;> rfl
@[simp] theorem reach_draws (s : Sys) (n : Nat) : (s.reach n).draws = s.draws := by unfold Sys.reach; split <;> rfl
@[simp] theorem reach_signals (s : Sys) (n : Nat) : (s.reach n).signals = s.signals := by unfold Sys.reach; split <;> rfl
@[simp] theorem reach_ctx (s : Sys) (n : Nat) : (s.reach n).ctx = s.ctx := by unfold Sys.reach; split <;> rfl
@[simp] theorem reach_col (s : Sys) (n : Nat) : (s.reach n).col = s.col := by unfold Sys.reach; split <;> rfl
@[simp] theorem reach_lanes (s : Sys) (n : Nat) : (s.reach n).lanes = s.lanes := by unfold Sys.reach; split <;> rfl
@[simp] theorem reach_vot (s : Sys) (n : Nat) : (s.reach n).vot = s.vot := by unfold Sys.reach; split <;> rfl
@[simp] theorem reach_loft (s : Sys) (n : Nat) : (s.reach n).loft = s.loft := by unfold Sys.reach; split <;> rfl
@[simp] theorem reach_chg (s : Sys) (n : Nat) : (s.reach n).chg = s.chg := by unfold Sys.reach; split <;> rfl
@[simp] theorem reach_prog (s : Sys) (n : Nat) : (s.reach n).prog = s.prog := by unfold Sys.reach; split <;> rfl
@[simp] theorem reach_fe (s : Sys) (n : Nat) : (s.reach n).fe = s.fe := by unfold Sys.reach; split <;> rfl
@[simp] theorem reach_fab (s : Sys) (n : Nat) : (s.reach n).fab = s.fab := by unfold Sys.reach; split <;> rfl
@[simp] theorem reach_hit (s : Sys) (n : Nat) : (s.reach n).hit = s.hit := by unfold Sys.reach; split <;> rfl
@[simp] theorem reach_can (s : Sys) (n : Nat) : (s.reach n).can = s.can := by unfold Sys.reach; split <;> rfl
@[simp] theorem reach_ports (s : Sys) (n : Nat) : (s.reach n).ports = s.ports := by unfold Sys.reach; split <;> rfl
@[simp] theorem reach_dma (s : Sys) (n : Nat) : (s.reach n).dma = s.dma := by unfold Sys.reach; split <;> rfl
@[simp] theorem reach_arb (s : Sys) (n : Nat) : (s.reach n).arb = s.arb := by unfold Sys.reach; split <;> rfl
@[simp] theorem reach_mi (s : Sys) (n : Nat) : (s.reach n).mi = s.mi := by unfold Sys.reach; split <;> rfl
@[simp] theorem reach_clk (s : Sys) (n : Nat) : (s.reach n).clk = s.clk := by unfold Sys.reach; split <;> rfl
@[simp] theorem reach_pwr (s : Sys) (n : Nat) : (s.reach n).pwr = s.pwr := by unfold Sys.reach; split <;> rfl
@[simp] theorem reach_keys (s : Sys) (n : Nat) : (s.reach n).keys = s.keys := by unfold Sys.reach; split <;> rfl
@[simp] theorem reach_lck (s : Sys) (n : Nat) : (s.reach n).lck = s.lck := by unfold Sys.reach; split <;> rfl
@[simp] theorem reach_upd (s : Sys) (n : Nat) : (s.reach n).upd = s.upd := by unfold Sys.reach; split <;> rfl
@[simp] theorem reach_evr (s : Sys) (n : Nat) : (s.reach n).evr = s.evr := by unfold Sys.reach; split <;> rfl
@[simp] theorem reach_mgt (s : Sys) (n : Nat) : (s.reach n).mgt = s.mgt := by unfold Sys.reach; split <;> rfl
@[simp] theorem reach_strap (s : Sys) (n : Nat) : (s.reach n).strap = s.strap := by unfold Sys.reach; split <;> rfl
@[simp] theorem reach_reg (s : Sys) (n : Nat) (x : Nat) : (s.reach n).reg x = s.reg x := by unfold Sys.reg; rw [reach_regs]
@[simp] theorem reach_get (s : Sys) (n : Nat) (g : Fld) : (s.reach n).get g = s.get g := by unfold Sys.get; rw [reach_reg]
@[simp] theorem reach_on (s : Sys) (n : Nat) (g : Fld) : (s.reach n).on g = s.on g := by unfold Sys.on; rw [reach_get]
@[simp] theorem reach_bit (s : Sys) (n : Nat) (g : Fld) (i : Nat) : (s.reach n).bit g i = s.bit g i := by unfold Sys.bit; rw [reach_get]
@[simp] theorem reach_word (s : Sys) (n : Nat) (x : Nat) : (s.reach n).word x = s.word x := by unfold Sys.word; rw [reach_reg]
@[simp] theorem reach_domUp (s : Sys) (n : Nat) (i : Nat) : (s.reach n).domUp i = s.domUp i := by unfold Sys.domUp; rw [reach_bit]

/-! ## `wr` -/

@[simp] theorem wr_regs (s : Sys) (a n v : Nat) : (s.wr a n v).regs = s.regs := rfl
@[simp] theorem wr_hostMem (s : Sys) (a n v : Nat) : (s.wr a n v).hostMem = s.hostMem := rfl
@[simp] theorem wr_response (s : Sys) (a n v : Nat) : (s.wr a n v).response = s.response := rfl
@[simp] theorem wr_posts (s : Sys) (a n v : Nat) : (s.wr a n v).posts = s.posts := rfl
@[simp] theorem wr_fclk (s : Sys) (a n v : Nat) : (s.wr a n v).fclk = s.fclk := rfl
@[simp] theorem wr_lfxo (s : Sys) (a n v : Nat) : (s.wr a n v).lfxo = s.lfxo := rfl
@[simp] theorem wr_limits (s : Sys) (a n v : Nat) : (s.wr a n v).limits = s.limits := rfl
@[simp] theorem wr_draws (s : Sys) (a n v : Nat) : (s.wr a n v).draws = s.draws := rfl
@[simp] theorem wr_signals (s : Sys) (a n v : Nat) : (s.wr a n v).signals = s.signals := rfl
@[simp] theorem wr_ang (s : Sys) (a n v : Nat) : (s.wr a n v).ang = s.ang := rfl
@[simp] theorem wr_ctx (s : Sys) (a n v : Nat) : (s.wr a n v).ctx = s.ctx := rfl
@[simp] theorem wr_col (s : Sys) (a n v : Nat) : (s.wr a n v).col = s.col := rfl
@[simp] theorem wr_lanes (s : Sys) (a n v : Nat) : (s.wr a n v).lanes = s.lanes := rfl
@[simp] theorem wr_vot (s : Sys) (a n v : Nat) : (s.wr a n v).vot = s.vot := rfl
@[simp] theorem wr_loft (s : Sys) (a n v : Nat) : (s.wr a n v).loft = s.loft := rfl
@[simp] theorem wr_chg (s : Sys) (a n v : Nat) : (s.wr a n v).chg = s.chg := rfl
@[simp] theorem wr_prog (s : Sys) (a n v : Nat) : (s.wr a n v).prog = s.prog := rfl
@[simp] theorem wr_fe (s : Sys) (a n v : Nat) : (s.wr a n v).fe = s.fe := rfl
@[simp] theorem wr_fab (s : Sys) (a n v : Nat) : (s.wr a n v).fab = s.fab := rfl
@[simp] theorem wr_hit (s : Sys) (a n v : Nat) : (s.wr a n v).hit = s.hit := rfl
@[simp] theorem wr_can (s : Sys) (a n v : Nat) : (s.wr a n v).can = s.can := rfl
@[simp] theorem wr_ports (s : Sys) (a n v : Nat) : (s.wr a n v).ports = s.ports := rfl
@[simp] theorem wr_dma (s : Sys) (a n v : Nat) : (s.wr a n v).dma = s.dma := rfl
@[simp] theorem wr_arb (s : Sys) (a n v : Nat) : (s.wr a n v).arb = s.arb := rfl
@[simp] theorem wr_mi (s : Sys) (a n v : Nat) : (s.wr a n v).mi = s.mi := rfl
@[simp] theorem wr_clk (s : Sys) (a n v : Nat) : (s.wr a n v).clk = s.clk := rfl
@[simp] theorem wr_pwr (s : Sys) (a n v : Nat) : (s.wr a n v).pwr = s.pwr := rfl
@[simp] theorem wr_rtc (s : Sys) (a n v : Nat) : (s.wr a n v).rtc = s.rtc := rfl
@[simp] theorem wr_keys (s : Sys) (a n v : Nat) : (s.wr a n v).keys = s.keys := rfl
@[simp] theorem wr_lck (s : Sys) (a n v : Nat) : (s.wr a n v).lck = s.lck := rfl
@[simp] theorem wr_upd (s : Sys) (a n v : Nat) : (s.wr a n v).upd = s.upd := rfl
@[simp] theorem wr_evr (s : Sys) (a n v : Nat) : (s.wr a n v).evr = s.evr := rfl
@[simp] theorem wr_mgt (s : Sys) (a n v : Nat) : (s.wr a n v).mgt = s.mgt := rfl
@[simp] theorem wr_strap (s : Sys) (a n v : Nat) : (s.wr a n v).strap = s.strap := rfl
@[simp] theorem wr_reg (s : Sys) (a n v : Nat) (x : Nat) : (s.wr a n v).reg x = s.reg x := by unfold Sys.reg; rw [wr_regs]
@[simp] theorem wr_get (s : Sys) (a n v : Nat) (g : Fld) : (s.wr a n v).get g = s.get g := by unfold Sys.get; rw [wr_reg]
@[simp] theorem wr_on (s : Sys) (a n v : Nat) (g : Fld) : (s.wr a n v).on g = s.on g := by unfold Sys.on; rw [wr_get]
@[simp] theorem wr_bit (s : Sys) (a n v : Nat) (g : Fld) (i : Nat) : (s.wr a n v).bit g i = s.bit g i := by unfold Sys.bit; rw [wr_get]
@[simp] theorem wr_word (s : Sys) (a n v : Nat) (x : Nat) : (s.wr a n v).word x = s.word x := by unfold Sys.word; rw [wr_reg]
@[simp] theorem wr_domUp (s : Sys) (a n v : Nat) (i : Nat) : (s.wr a n v).domUp i = s.domUp i := by unfold Sys.domUp; rw [wr_bit]

/-! ## `heal` -/

@[simp] theorem heal_regs (s : Sys) (a n : Nat) : (s.heal a n).regs = s.regs := rfl
@[simp] theorem heal_mem (s : Sys) (a n : Nat) : (s.heal a n).mem = s.mem := rfl
@[simp] theorem heal_hostMem (s : Sys) (a n : Nat) : (s.heal a n).hostMem = s.hostMem := rfl
@[simp] theorem heal_response (s : Sys) (a n : Nat) : (s.heal a n).response = s.response := rfl
@[simp] theorem heal_posts (s : Sys) (a n : Nat) : (s.heal a n).posts = s.posts := rfl
@[simp] theorem heal_fclk (s : Sys) (a n : Nat) : (s.heal a n).fclk = s.fclk := rfl
@[simp] theorem heal_lfxo (s : Sys) (a n : Nat) : (s.heal a n).lfxo = s.lfxo := rfl
@[simp] theorem heal_limits (s : Sys) (a n : Nat) : (s.heal a n).limits = s.limits := rfl
@[simp] theorem heal_draws (s : Sys) (a n : Nat) : (s.heal a n).draws = s.draws := rfl
@[simp] theorem heal_signals (s : Sys) (a n : Nat) : (s.heal a n).signals = s.signals := rfl
@[simp] theorem heal_ang (s : Sys) (a n : Nat) : (s.heal a n).ang = s.ang := rfl
@[simp] theorem heal_ctx (s : Sys) (a n : Nat) : (s.heal a n).ctx = s.ctx := rfl
@[simp] theorem heal_col (s : Sys) (a n : Nat) : (s.heal a n).col = s.col := rfl
@[simp] theorem heal_lanes (s : Sys) (a n : Nat) : (s.heal a n).lanes = s.lanes := rfl
@[simp] theorem heal_vot (s : Sys) (a n : Nat) : (s.heal a n).vot = s.vot := rfl
@[simp] theorem heal_loft (s : Sys) (a n : Nat) : (s.heal a n).loft = s.loft := rfl
@[simp] theorem heal_chg (s : Sys) (a n : Nat) : (s.heal a n).chg = s.chg := rfl
@[simp] theorem heal_prog (s : Sys) (a n : Nat) : (s.heal a n).prog = s.prog := rfl
@[simp] theorem heal_fe (s : Sys) (a n : Nat) : (s.heal a n).fe = s.fe := rfl
@[simp] theorem heal_fab (s : Sys) (a n : Nat) : (s.heal a n).fab = s.fab := rfl
@[simp] theorem heal_hit (s : Sys) (a n : Nat) : (s.heal a n).hit = s.hit := rfl
@[simp] theorem heal_can (s : Sys) (a n : Nat) : (s.heal a n).can = s.can := rfl
@[simp] theorem heal_ports (s : Sys) (a n : Nat) : (s.heal a n).ports = s.ports := rfl
@[simp] theorem heal_dma (s : Sys) (a n : Nat) : (s.heal a n).dma = s.dma := rfl
@[simp] theorem heal_arb (s : Sys) (a n : Nat) : (s.heal a n).arb = s.arb := rfl
@[simp] theorem heal_clk (s : Sys) (a n : Nat) : (s.heal a n).clk = s.clk := rfl
@[simp] theorem heal_pwr (s : Sys) (a n : Nat) : (s.heal a n).pwr = s.pwr := rfl
@[simp] theorem heal_rtc (s : Sys) (a n : Nat) : (s.heal a n).rtc = s.rtc := rfl
@[simp] theorem heal_keys (s : Sys) (a n : Nat) : (s.heal a n).keys = s.keys := rfl
@[simp] theorem heal_lck (s : Sys) (a n : Nat) : (s.heal a n).lck = s.lck := rfl
@[simp] theorem heal_upd (s : Sys) (a n : Nat) : (s.heal a n).upd = s.upd := rfl
@[simp] theorem heal_evr (s : Sys) (a n : Nat) : (s.heal a n).evr = s.evr := rfl
@[simp] theorem heal_mgt (s : Sys) (a n : Nat) : (s.heal a n).mgt = s.mgt := rfl
@[simp] theorem heal_strap (s : Sys) (a n : Nat) : (s.heal a n).strap = s.strap := rfl
@[simp] theorem heal_reg (s : Sys) (a n : Nat) (x : Nat) : (s.heal a n).reg x = s.reg x := by unfold Sys.reg; rw [heal_regs]
@[simp] theorem heal_get (s : Sys) (a n : Nat) (g : Fld) : (s.heal a n).get g = s.get g := by unfold Sys.get; rw [heal_reg]
@[simp] theorem heal_on (s : Sys) (a n : Nat) (g : Fld) : (s.heal a n).on g = s.on g := by unfold Sys.on; rw [heal_get]
@[simp] theorem heal_bit (s : Sys) (a n : Nat) (g : Fld) (i : Nat) : (s.heal a n).bit g i = s.bit g i := by unfold Sys.bit; rw [heal_get]
@[simp] theorem heal_word (s : Sys) (a n : Nat) (x : Nat) : (s.heal a n).word x = s.word x := by unfold Sys.word; rw [heal_reg]
@[simp] theorem heal_domUp (s : Sys) (a n : Nat) (i : Nat) : (s.heal a n).domUp i = s.domUp i := by unfold Sys.domUp; rw [heal_bit]

/-! ## `putRow` -/

@[simp] theorem putRow_regs (s : Sys) (a : Nat) (bs : List Nat) : (s.putRow a bs).regs = s.regs := rfl
@[simp] theorem putRow_hostMem (s : Sys) (a : Nat) (bs : List Nat) : (s.putRow a bs).hostMem = s.hostMem := rfl
@[simp] theorem putRow_response (s : Sys) (a : Nat) (bs : List Nat) : (s.putRow a bs).response = s.response := rfl
@[simp] theorem putRow_posts (s : Sys) (a : Nat) (bs : List Nat) : (s.putRow a bs).posts = s.posts := rfl
@[simp] theorem putRow_fclk (s : Sys) (a : Nat) (bs : List Nat) : (s.putRow a bs).fclk = s.fclk := rfl
@[simp] theorem putRow_lfxo (s : Sys) (a : Nat) (bs : List Nat) : (s.putRow a bs).lfxo = s.lfxo := rfl
@[simp] theorem putRow_limits (s : Sys) (a : Nat) (bs : List Nat) : (s.putRow a bs).limits = s.limits := rfl
@[simp] theorem putRow_draws (s : Sys) (a : Nat) (bs : List Nat) : (s.putRow a bs).draws = s.draws := rfl
@[simp] theorem putRow_signals (s : Sys) (a : Nat) (bs : List Nat) : (s.putRow a bs).signals = s.signals := rfl
@[simp] theorem putRow_ang (s : Sys) (a : Nat) (bs : List Nat) : (s.putRow a bs).ang = s.ang := rfl
@[simp] theorem putRow_ctx (s : Sys) (a : Nat) (bs : List Nat) : (s.putRow a bs).ctx = s.ctx := rfl
@[simp] theorem putRow_col (s : Sys) (a : Nat) (bs : List Nat) : (s.putRow a bs).col = s.col := rfl
@[simp] theorem putRow_lanes (s : Sys) (a : Nat) (bs : List Nat) : (s.putRow a bs).lanes = s.lanes := rfl
@[simp] theorem putRow_vot (s : Sys) (a : Nat) (bs : List Nat) : (s.putRow a bs).vot = s.vot := rfl
@[simp] theorem putRow_loft (s : Sys) (a : Nat) (bs : List Nat) : (s.putRow a bs).loft = s.loft := rfl
@[simp] theorem putRow_chg (s : Sys) (a : Nat) (bs : List Nat) : (s.putRow a bs).chg = s.chg := rfl
@[simp] theorem putRow_prog (s : Sys) (a : Nat) (bs : List Nat) : (s.putRow a bs).prog = s.prog := rfl
@[simp] theorem putRow_fe (s : Sys) (a : Nat) (bs : List Nat) : (s.putRow a bs).fe = s.fe := rfl
@[simp] theorem putRow_fab (s : Sys) (a : Nat) (bs : List Nat) : (s.putRow a bs).fab = s.fab := rfl
@[simp] theorem putRow_hit (s : Sys) (a : Nat) (bs : List Nat) : (s.putRow a bs).hit = s.hit := rfl
@[simp] theorem putRow_can (s : Sys) (a : Nat) (bs : List Nat) : (s.putRow a bs).can = s.can := rfl
@[simp] theorem putRow_ports (s : Sys) (a : Nat) (bs : List Nat) : (s.putRow a bs).ports = s.ports := rfl
@[simp] theorem putRow_dma (s : Sys) (a : Nat) (bs : List Nat) : (s.putRow a bs).dma = s.dma := rfl
@[simp] theorem putRow_arb (s : Sys) (a : Nat) (bs : List Nat) : (s.putRow a bs).arb = s.arb := rfl
@[simp] theorem putRow_clk (s : Sys) (a : Nat) (bs : List Nat) : (s.putRow a bs).clk = s.clk := rfl
@[simp] theorem putRow_pwr (s : Sys) (a : Nat) (bs : List Nat) : (s.putRow a bs).pwr = s.pwr := rfl
@[simp] theorem putRow_rtc (s : Sys) (a : Nat) (bs : List Nat) : (s.putRow a bs).rtc = s.rtc := rfl
@[simp] theorem putRow_keys (s : Sys) (a : Nat) (bs : List Nat) : (s.putRow a bs).keys = s.keys := rfl
@[simp] theorem putRow_lck (s : Sys) (a : Nat) (bs : List Nat) : (s.putRow a bs).lck = s.lck := rfl
@[simp] theorem putRow_upd (s : Sys) (a : Nat) (bs : List Nat) : (s.putRow a bs).upd = s.upd := rfl
@[simp] theorem putRow_evr (s : Sys) (a : Nat) (bs : List Nat) : (s.putRow a bs).evr = s.evr := rfl
@[simp] theorem putRow_mgt (s : Sys) (a : Nat) (bs : List Nat) : (s.putRow a bs).mgt = s.mgt := rfl
@[simp] theorem putRow_strap (s : Sys) (a : Nat) (bs : List Nat) : (s.putRow a bs).strap = s.strap := rfl
@[simp] theorem putRow_reg (s : Sys) (a : Nat) (bs : List Nat) (x : Nat) : (s.putRow a bs).reg x = s.reg x := by unfold Sys.reg; rw [putRow_regs]
@[simp] theorem putRow_get (s : Sys) (a : Nat) (bs : List Nat) (g : Fld) : (s.putRow a bs).get g = s.get g := by unfold Sys.get; rw [putRow_reg]
@[simp] theorem putRow_on (s : Sys) (a : Nat) (bs : List Nat) (g : Fld) : (s.putRow a bs).on g = s.on g := by unfold Sys.on; rw [putRow_get]
@[simp] theorem putRow_bit (s : Sys) (a : Nat) (bs : List Nat) (g : Fld) (i : Nat) : (s.putRow a bs).bit g i = s.bit g i := by unfold Sys.bit; rw [putRow_get]
@[simp] theorem putRow_word (s : Sys) (a : Nat) (bs : List Nat) (x : Nat) : (s.putRow a bs).word x = s.word x := by unfold Sys.word; rw [putRow_reg]
@[simp] theorem putRow_domUp (s : Sys) (a : Nat) (bs : List Nat) (i : Nat) : (s.putRow a bs).domUp i = s.domUp i := by unfold Sys.domUp; rw [putRow_bit]

/-! ## `copyRow` -/

@[simp] theorem copyRow_regs (s : Sys) (d c n : Nat) : (s.copyRow d c n).regs = s.regs := rfl
@[simp] theorem copyRow_hostMem (s : Sys) (d c n : Nat) : (s.copyRow d c n).hostMem = s.hostMem := rfl
@[simp] theorem copyRow_response (s : Sys) (d c n : Nat) : (s.copyRow d c n).response = s.response := rfl
@[simp] theorem copyRow_posts (s : Sys) (d c n : Nat) : (s.copyRow d c n).posts = s.posts := rfl
@[simp] theorem copyRow_fclk (s : Sys) (d c n : Nat) : (s.copyRow d c n).fclk = s.fclk := rfl
@[simp] theorem copyRow_lfxo (s : Sys) (d c n : Nat) : (s.copyRow d c n).lfxo = s.lfxo := rfl
@[simp] theorem copyRow_limits (s : Sys) (d c n : Nat) : (s.copyRow d c n).limits = s.limits := rfl
@[simp] theorem copyRow_draws (s : Sys) (d c n : Nat) : (s.copyRow d c n).draws = s.draws := rfl
@[simp] theorem copyRow_signals (s : Sys) (d c n : Nat) : (s.copyRow d c n).signals = s.signals := rfl
@[simp] theorem copyRow_ang (s : Sys) (d c n : Nat) : (s.copyRow d c n).ang = s.ang := rfl
@[simp] theorem copyRow_ctx (s : Sys) (d c n : Nat) : (s.copyRow d c n).ctx = s.ctx := rfl
@[simp] theorem copyRow_col (s : Sys) (d c n : Nat) : (s.copyRow d c n).col = s.col := rfl
@[simp] theorem copyRow_lanes (s : Sys) (d c n : Nat) : (s.copyRow d c n).lanes = s.lanes := rfl
@[simp] theorem copyRow_vot (s : Sys) (d c n : Nat) : (s.copyRow d c n).vot = s.vot := rfl
@[simp] theorem copyRow_loft (s : Sys) (d c n : Nat) : (s.copyRow d c n).loft = s.loft := rfl
@[simp] theorem copyRow_chg (s : Sys) (d c n : Nat) : (s.copyRow d c n).chg = s.chg := rfl
@[simp] theorem copyRow_prog (s : Sys) (d c n : Nat) : (s.copyRow d c n).prog = s.prog := rfl
@[simp] theorem copyRow_fe (s : Sys) (d c n : Nat) : (s.copyRow d c n).fe = s.fe := rfl
@[simp] theorem copyRow_fab (s : Sys) (d c n : Nat) : (s.copyRow d c n).fab = s.fab := rfl
@[simp] theorem copyRow_hit (s : Sys) (d c n : Nat) : (s.copyRow d c n).hit = s.hit := rfl
@[simp] theorem copyRow_can (s : Sys) (d c n : Nat) : (s.copyRow d c n).can = s.can := rfl
@[simp] theorem copyRow_ports (s : Sys) (d c n : Nat) : (s.copyRow d c n).ports = s.ports := rfl
@[simp] theorem copyRow_dma (s : Sys) (d c n : Nat) : (s.copyRow d c n).dma = s.dma := rfl
@[simp] theorem copyRow_arb (s : Sys) (d c n : Nat) : (s.copyRow d c n).arb = s.arb := rfl
@[simp] theorem copyRow_clk (s : Sys) (d c n : Nat) : (s.copyRow d c n).clk = s.clk := rfl
@[simp] theorem copyRow_pwr (s : Sys) (d c n : Nat) : (s.copyRow d c n).pwr = s.pwr := rfl
@[simp] theorem copyRow_rtc (s : Sys) (d c n : Nat) : (s.copyRow d c n).rtc = s.rtc := rfl
@[simp] theorem copyRow_keys (s : Sys) (d c n : Nat) : (s.copyRow d c n).keys = s.keys := rfl
@[simp] theorem copyRow_lck (s : Sys) (d c n : Nat) : (s.copyRow d c n).lck = s.lck := rfl
@[simp] theorem copyRow_upd (s : Sys) (d c n : Nat) : (s.copyRow d c n).upd = s.upd := rfl
@[simp] theorem copyRow_evr (s : Sys) (d c n : Nat) : (s.copyRow d c n).evr = s.evr := rfl
@[simp] theorem copyRow_mgt (s : Sys) (d c n : Nat) : (s.copyRow d c n).mgt = s.mgt := rfl
@[simp] theorem copyRow_strap (s : Sys) (d c n : Nat) : (s.copyRow d c n).strap = s.strap := rfl
@[simp] theorem copyRow_reg (s : Sys) (d c n : Nat) (x : Nat) : (s.copyRow d c n).reg x = s.reg x := by unfold Sys.reg; rw [copyRow_regs]
@[simp] theorem copyRow_get (s : Sys) (d c n : Nat) (g : Fld) : (s.copyRow d c n).get g = s.get g := by unfold Sys.get; rw [copyRow_reg]
@[simp] theorem copyRow_on (s : Sys) (d c n : Nat) (g : Fld) : (s.copyRow d c n).on g = s.on g := by unfold Sys.on; rw [copyRow_get]
@[simp] theorem copyRow_bit (s : Sys) (d c n : Nat) (g : Fld) (i : Nat) : (s.copyRow d c n).bit g i = s.bit g i := by unfold Sys.bit; rw [copyRow_get]
@[simp] theorem copyRow_word (s : Sys) (d c n : Nat) (x : Nat) : (s.copyRow d c n).word x = s.word x := by unfold Sys.word; rw [copyRow_reg]
@[simp] theorem copyRow_domUp (s : Sys) (d c n : Nat) (i : Nat) : (s.copyRow d c n).domUp i = s.domUp i := by unfold Sys.domUp; rw [copyRow_bit]

/-! ## `setLane` -/

@[simp] theorem setLane_regs (s : Sys) (n : Fin 4) (l : Lane) : (s.setLane n l).regs = s.regs := rfl
@[simp] theorem setLane_mem (s : Sys) (n : Fin 4) (l : Lane) : (s.setLane n l).mem = s.mem := rfl
@[simp] theorem setLane_hostMem (s : Sys) (n : Fin 4) (l : Lane) : (s.setLane n l).hostMem = s.hostMem := rfl
@[simp] theorem setLane_response (s : Sys) (n : Fin 4) (l : Lane) : (s.setLane n l).response = s.response := rfl
@[simp] theorem setLane_posts (s : Sys) (n : Fin 4) (l : Lane) : (s.setLane n l).posts = s.posts := rfl
@[simp] theorem setLane_fclk (s : Sys) (n : Fin 4) (l : Lane) : (s.setLane n l).fclk = s.fclk := rfl
@[simp] theorem setLane_lfxo (s : Sys) (n : Fin 4) (l : Lane) : (s.setLane n l).lfxo = s.lfxo := rfl
@[simp] theorem setLane_limits (s : Sys) (n : Fin 4) (l : Lane) : (s.setLane n l).limits = s.limits := rfl
@[simp] theorem setLane_draws (s : Sys) (n : Fin 4) (l : Lane) : (s.setLane n l).draws = s.draws := rfl
@[simp] theorem setLane_signals (s : Sys) (n : Fin 4) (l : Lane) : (s.setLane n l).signals = s.signals := rfl
@[simp] theorem setLane_ang (s : Sys) (n : Fin 4) (l : Lane) : (s.setLane n l).ang = s.ang := rfl
@[simp] theorem setLane_ctx (s : Sys) (n : Fin 4) (l : Lane) : (s.setLane n l).ctx = s.ctx := rfl
@[simp] theorem setLane_col (s : Sys) (n : Fin 4) (l : Lane) : (s.setLane n l).col = s.col := rfl
@[simp] theorem setLane_vot (s : Sys) (n : Fin 4) (l : Lane) : (s.setLane n l).vot = s.vot := rfl
@[simp] theorem setLane_loft (s : Sys) (n : Fin 4) (l : Lane) : (s.setLane n l).loft = s.loft := rfl
@[simp] theorem setLane_chg (s : Sys) (n : Fin 4) (l : Lane) : (s.setLane n l).chg = s.chg := rfl
@[simp] theorem setLane_prog (s : Sys) (n : Fin 4) (l : Lane) : (s.setLane n l).prog = s.prog := rfl
@[simp] theorem setLane_fe (s : Sys) (n : Fin 4) (l : Lane) : (s.setLane n l).fe = s.fe := rfl
@[simp] theorem setLane_fab (s : Sys) (n : Fin 4) (l : Lane) : (s.setLane n l).fab = s.fab := rfl
@[simp] theorem setLane_hit (s : Sys) (n : Fin 4) (l : Lane) : (s.setLane n l).hit = s.hit := rfl
@[simp] theorem setLane_can (s : Sys) (n : Fin 4) (l : Lane) : (s.setLane n l).can = s.can := rfl
@[simp] theorem setLane_ports (s : Sys) (n : Fin 4) (l : Lane) : (s.setLane n l).ports = s.ports := rfl
@[simp] theorem setLane_dma (s : Sys) (n : Fin 4) (l : Lane) : (s.setLane n l).dma = s.dma := rfl
@[simp] theorem setLane_arb (s : Sys) (n : Fin 4) (l : Lane) : (s.setLane n l).arb = s.arb := rfl
@[simp] theorem setLane_mi (s : Sys) (n : Fin 4) (l : Lane) : (s.setLane n l).mi = s.mi := rfl
@[simp] theorem setLane_clk (s : Sys) (n : Fin 4) (l : Lane) : (s.setLane n l).clk = s.clk := rfl
@[simp] theorem setLane_pwr (s : Sys) (n : Fin 4) (l : Lane) : (s.setLane n l).pwr = s.pwr := rfl
@[simp] theorem setLane_rtc (s : Sys) (n : Fin 4) (l : Lane) : (s.setLane n l).rtc = s.rtc := rfl
@[simp] theorem setLane_keys (s : Sys) (n : Fin 4) (l : Lane) : (s.setLane n l).keys = s.keys := rfl
@[simp] theorem setLane_lck (s : Sys) (n : Fin 4) (l : Lane) : (s.setLane n l).lck = s.lck := rfl
@[simp] theorem setLane_upd (s : Sys) (n : Fin 4) (l : Lane) : (s.setLane n l).upd = s.upd := rfl
@[simp] theorem setLane_evr (s : Sys) (n : Fin 4) (l : Lane) : (s.setLane n l).evr = s.evr := rfl
@[simp] theorem setLane_mgt (s : Sys) (n : Fin 4) (l : Lane) : (s.setLane n l).mgt = s.mgt := rfl
@[simp] theorem setLane_strap (s : Sys) (n : Fin 4) (l : Lane) : (s.setLane n l).strap = s.strap := rfl
@[simp] theorem setLane_reg (s : Sys) (n : Fin 4) (l : Lane) (x : Nat) : (s.setLane n l).reg x = s.reg x := by unfold Sys.reg; rw [setLane_regs]
@[simp] theorem setLane_get (s : Sys) (n : Fin 4) (l : Lane) (g : Fld) : (s.setLane n l).get g = s.get g := by unfold Sys.get; rw [setLane_reg]
@[simp] theorem setLane_on (s : Sys) (n : Fin 4) (l : Lane) (g : Fld) : (s.setLane n l).on g = s.on g := by unfold Sys.on; rw [setLane_get]
@[simp] theorem setLane_bit (s : Sys) (n : Fin 4) (l : Lane) (g : Fld) (i : Nat) : (s.setLane n l).bit g i = s.bit g i := by unfold Sys.bit; rw [setLane_get]
@[simp] theorem setLane_word (s : Sys) (n : Fin 4) (l : Lane) (x : Nat) : (s.setLane n l).word x = s.word x := by unfold Sys.word; rw [setLane_reg]
@[simp] theorem setLane_domUp (s : Sys) (n : Fin 4) (l : Lane) (i : Nat) : (s.setLane n l).domUp i = s.domUp i := by unfold Sys.domUp; rw [setLane_bit]

/-! ## `modLane` -/

@[simp] theorem modLane_regs (s : Sys) (n : Fin 4) (f : Lane → Lane) : (s.modLane n f).regs = s.regs := rfl
@[simp] theorem modLane_mem (s : Sys) (n : Fin 4) (f : Lane → Lane) : (s.modLane n f).mem = s.mem := rfl
@[simp] theorem modLane_hostMem (s : Sys) (n : Fin 4) (f : Lane → Lane) : (s.modLane n f).hostMem = s.hostMem := rfl
@[simp] theorem modLane_response (s : Sys) (n : Fin 4) (f : Lane → Lane) : (s.modLane n f).response = s.response := rfl
@[simp] theorem modLane_posts (s : Sys) (n : Fin 4) (f : Lane → Lane) : (s.modLane n f).posts = s.posts := rfl
@[simp] theorem modLane_fclk (s : Sys) (n : Fin 4) (f : Lane → Lane) : (s.modLane n f).fclk = s.fclk := rfl
@[simp] theorem modLane_lfxo (s : Sys) (n : Fin 4) (f : Lane → Lane) : (s.modLane n f).lfxo = s.lfxo := rfl
@[simp] theorem modLane_limits (s : Sys) (n : Fin 4) (f : Lane → Lane) : (s.modLane n f).limits = s.limits := rfl
@[simp] theorem modLane_draws (s : Sys) (n : Fin 4) (f : Lane → Lane) : (s.modLane n f).draws = s.draws := rfl
@[simp] theorem modLane_signals (s : Sys) (n : Fin 4) (f : Lane → Lane) : (s.modLane n f).signals = s.signals := rfl
@[simp] theorem modLane_ang (s : Sys) (n : Fin 4) (f : Lane → Lane) : (s.modLane n f).ang = s.ang := rfl
@[simp] theorem modLane_ctx (s : Sys) (n : Fin 4) (f : Lane → Lane) : (s.modLane n f).ctx = s.ctx := rfl
@[simp] theorem modLane_col (s : Sys) (n : Fin 4) (f : Lane → Lane) : (s.modLane n f).col = s.col := rfl
@[simp] theorem modLane_vot (s : Sys) (n : Fin 4) (f : Lane → Lane) : (s.modLane n f).vot = s.vot := rfl
@[simp] theorem modLane_loft (s : Sys) (n : Fin 4) (f : Lane → Lane) : (s.modLane n f).loft = s.loft := rfl
@[simp] theorem modLane_chg (s : Sys) (n : Fin 4) (f : Lane → Lane) : (s.modLane n f).chg = s.chg := rfl
@[simp] theorem modLane_prog (s : Sys) (n : Fin 4) (f : Lane → Lane) : (s.modLane n f).prog = s.prog := rfl
@[simp] theorem modLane_fe (s : Sys) (n : Fin 4) (f : Lane → Lane) : (s.modLane n f).fe = s.fe := rfl
@[simp] theorem modLane_fab (s : Sys) (n : Fin 4) (f : Lane → Lane) : (s.modLane n f).fab = s.fab := rfl
@[simp] theorem modLane_hit (s : Sys) (n : Fin 4) (f : Lane → Lane) : (s.modLane n f).hit = s.hit := rfl
@[simp] theorem modLane_can (s : Sys) (n : Fin 4) (f : Lane → Lane) : (s.modLane n f).can = s.can := rfl
@[simp] theorem modLane_ports (s : Sys) (n : Fin 4) (f : Lane → Lane) : (s.modLane n f).ports = s.ports := rfl
@[simp] theorem modLane_dma (s : Sys) (n : Fin 4) (f : Lane → Lane) : (s.modLane n f).dma = s.dma := rfl
@[simp] theorem modLane_arb (s : Sys) (n : Fin 4) (f : Lane → Lane) : (s.modLane n f).arb = s.arb := rfl
@[simp] theorem modLane_mi (s : Sys) (n : Fin 4) (f : Lane → Lane) : (s.modLane n f).mi = s.mi := rfl
@[simp] theorem modLane_clk (s : Sys) (n : Fin 4) (f : Lane → Lane) : (s.modLane n f).clk = s.clk := rfl
@[simp] theorem modLane_pwr (s : Sys) (n : Fin 4) (f : Lane → Lane) : (s.modLane n f).pwr = s.pwr := rfl
@[simp] theorem modLane_rtc (s : Sys) (n : Fin 4) (f : Lane → Lane) : (s.modLane n f).rtc = s.rtc := rfl
@[simp] theorem modLane_keys (s : Sys) (n : Fin 4) (f : Lane → Lane) : (s.modLane n f).keys = s.keys := rfl
@[simp] theorem modLane_lck (s : Sys) (n : Fin 4) (f : Lane → Lane) : (s.modLane n f).lck = s.lck := rfl
@[simp] theorem modLane_upd (s : Sys) (n : Fin 4) (f : Lane → Lane) : (s.modLane n f).upd = s.upd := rfl
@[simp] theorem modLane_evr (s : Sys) (n : Fin 4) (f : Lane → Lane) : (s.modLane n f).evr = s.evr := rfl
@[simp] theorem modLane_mgt (s : Sys) (n : Fin 4) (f : Lane → Lane) : (s.modLane n f).mgt = s.mgt := rfl
@[simp] theorem modLane_strap (s : Sys) (n : Fin 4) (f : Lane → Lane) : (s.modLane n f).strap = s.strap := rfl
@[simp] theorem modLane_reg (s : Sys) (n : Fin 4) (f : Lane → Lane) (x : Nat) : (s.modLane n f).reg x = s.reg x := by unfold Sys.reg; rw [modLane_regs]
@[simp] theorem modLane_get (s : Sys) (n : Fin 4) (f : Lane → Lane) (g : Fld) : (s.modLane n f).get g = s.get g := by unfold Sys.get; rw [modLane_reg]
@[simp] theorem modLane_on (s : Sys) (n : Fin 4) (f : Lane → Lane) (g : Fld) : (s.modLane n f).on g = s.on g := by unfold Sys.on; rw [modLane_get]
@[simp] theorem modLane_bit (s : Sys) (n : Fin 4) (f : Lane → Lane) (g : Fld) (i : Nat) : (s.modLane n f).bit g i = s.bit g i := by unfold Sys.bit; rw [modLane_get]
@[simp] theorem modLane_word (s : Sys) (n : Fin 4) (f : Lane → Lane) (x : Nat) : (s.modLane n f).word x = s.word x := by unfold Sys.word; rw [modLane_reg]
@[simp] theorem modLane_domUp (s : Sys) (n : Fin 4) (f : Lane → Lane) (i : Nat) : (s.modLane n f).domUp i = s.domUp i := by unfold Sys.domUp; rw [modLane_bit]

/-! ## `noteWritten` -/

@[simp] theorem noteWritten_regs (s : Sys) (r : Reintegration) (q : Nat × Nat) : (Sys.noteWritten r s q).regs = s.regs := by unfold Sys.noteWritten; dsimp only; split <;> rfl
@[simp] theorem noteWritten_hostMem (s : Sys) (r : Reintegration) (q : Nat × Nat) : (Sys.noteWritten r s q).hostMem = s.hostMem := by unfold Sys.noteWritten; dsimp only; split <;> rfl
@[simp] theorem noteWritten_response (s : Sys) (r : Reintegration) (q : Nat × Nat) : (Sys.noteWritten r s q).response = s.response := by unfold Sys.noteWritten; dsimp only; split <;> rfl
@[simp] theorem noteWritten_posts (s : Sys) (r : Reintegration) (q : Nat × Nat) : (Sys.noteWritten r s q).posts = s.posts := by unfold Sys.noteWritten; dsimp only; split <;> rfl
@[simp] theorem noteWritten_fclk (s : Sys) (r : Reintegration) (q : Nat × Nat) : (Sys.noteWritten r s q).fclk = s.fclk := by unfold Sys.noteWritten; dsimp only; split <;> rfl
@[simp] theorem noteWritten_lfxo (s : Sys) (r : Reintegration) (q : Nat × Nat) : (Sys.noteWritten r s q).lfxo = s.lfxo := by unfold Sys.noteWritten; dsimp only; split <;> rfl
@[simp] theorem noteWritten_limits (s : Sys) (r : Reintegration) (q : Nat × Nat) : (Sys.noteWritten r s q).limits = s.limits := by unfold Sys.noteWritten; dsimp only; split <;> rfl
@[simp] theorem noteWritten_draws (s : Sys) (r : Reintegration) (q : Nat × Nat) : (Sys.noteWritten r s q).draws = s.draws := by unfold Sys.noteWritten; dsimp only; split <;> rfl
@[simp] theorem noteWritten_signals (s : Sys) (r : Reintegration) (q : Nat × Nat) : (Sys.noteWritten r s q).signals = s.signals := by unfold Sys.noteWritten; dsimp only; split <;> rfl
@[simp] theorem noteWritten_ang (s : Sys) (r : Reintegration) (q : Nat × Nat) : (Sys.noteWritten r s q).ang = s.ang := by unfold Sys.noteWritten; dsimp only; split <;> rfl
@[simp] theorem noteWritten_ctx (s : Sys) (r : Reintegration) (q : Nat × Nat) : (Sys.noteWritten r s q).ctx = s.ctx := by unfold Sys.noteWritten; dsimp only; split <;> rfl
@[simp] theorem noteWritten_col (s : Sys) (r : Reintegration) (q : Nat × Nat) : (Sys.noteWritten r s q).col = s.col := by unfold Sys.noteWritten; dsimp only; split <;> rfl
@[simp] theorem noteWritten_lanes (s : Sys) (r : Reintegration) (q : Nat × Nat) : (Sys.noteWritten r s q).lanes = s.lanes := by unfold Sys.noteWritten; dsimp only; split <;> rfl
@[simp] theorem noteWritten_loft (s : Sys) (r : Reintegration) (q : Nat × Nat) : (Sys.noteWritten r s q).loft = s.loft := by unfold Sys.noteWritten; dsimp only; split <;> rfl
@[simp] theorem noteWritten_chg (s : Sys) (r : Reintegration) (q : Nat × Nat) : (Sys.noteWritten r s q).chg = s.chg := by unfold Sys.noteWritten; dsimp only; split <;> rfl
@[simp] theorem noteWritten_prog (s : Sys) (r : Reintegration) (q : Nat × Nat) : (Sys.noteWritten r s q).prog = s.prog := by unfold Sys.noteWritten; dsimp only; split <;> rfl
@[simp] theorem noteWritten_fe (s : Sys) (r : Reintegration) (q : Nat × Nat) : (Sys.noteWritten r s q).fe = s.fe := by unfold Sys.noteWritten; dsimp only; split <;> rfl
@[simp] theorem noteWritten_fab (s : Sys) (r : Reintegration) (q : Nat × Nat) : (Sys.noteWritten r s q).fab = s.fab := by unfold Sys.noteWritten; dsimp only; split <;> rfl
@[simp] theorem noteWritten_hit (s : Sys) (r : Reintegration) (q : Nat × Nat) : (Sys.noteWritten r s q).hit = s.hit := by unfold Sys.noteWritten; dsimp only; split <;> rfl
@[simp] theorem noteWritten_can (s : Sys) (r : Reintegration) (q : Nat × Nat) : (Sys.noteWritten r s q).can = s.can := by unfold Sys.noteWritten; dsimp only; split <;> rfl
@[simp] theorem noteWritten_ports (s : Sys) (r : Reintegration) (q : Nat × Nat) : (Sys.noteWritten r s q).ports = s.ports := by unfold Sys.noteWritten; dsimp only; split <;> rfl
@[simp] theorem noteWritten_dma (s : Sys) (r : Reintegration) (q : Nat × Nat) : (Sys.noteWritten r s q).dma = s.dma := by unfold Sys.noteWritten; dsimp only; split <;> rfl
@[simp] theorem noteWritten_arb (s : Sys) (r : Reintegration) (q : Nat × Nat) : (Sys.noteWritten r s q).arb = s.arb := by unfold Sys.noteWritten; dsimp only; split <;> rfl
@[simp] theorem noteWritten_mi (s : Sys) (r : Reintegration) (q : Nat × Nat) : (Sys.noteWritten r s q).mi = s.mi := by unfold Sys.noteWritten; dsimp only; split <;> rfl
@[simp] theorem noteWritten_clk (s : Sys) (r : Reintegration) (q : Nat × Nat) : (Sys.noteWritten r s q).clk = s.clk := by unfold Sys.noteWritten; dsimp only; split <;> rfl
@[simp] theorem noteWritten_pwr (s : Sys) (r : Reintegration) (q : Nat × Nat) : (Sys.noteWritten r s q).pwr = s.pwr := by unfold Sys.noteWritten; dsimp only; split <;> rfl
@[simp] theorem noteWritten_rtc (s : Sys) (r : Reintegration) (q : Nat × Nat) : (Sys.noteWritten r s q).rtc = s.rtc := by unfold Sys.noteWritten; dsimp only; split <;> rfl
@[simp] theorem noteWritten_keys (s : Sys) (r : Reintegration) (q : Nat × Nat) : (Sys.noteWritten r s q).keys = s.keys := by unfold Sys.noteWritten; dsimp only; split <;> rfl
@[simp] theorem noteWritten_lck (s : Sys) (r : Reintegration) (q : Nat × Nat) : (Sys.noteWritten r s q).lck = s.lck := by unfold Sys.noteWritten; dsimp only; split <;> rfl
@[simp] theorem noteWritten_upd (s : Sys) (r : Reintegration) (q : Nat × Nat) : (Sys.noteWritten r s q).upd = s.upd := by unfold Sys.noteWritten; dsimp only; split <;> rfl
@[simp] theorem noteWritten_evr (s : Sys) (r : Reintegration) (q : Nat × Nat) : (Sys.noteWritten r s q).evr = s.evr := by unfold Sys.noteWritten; dsimp only; split <;> rfl
@[simp] theorem noteWritten_mgt (s : Sys) (r : Reintegration) (q : Nat × Nat) : (Sys.noteWritten r s q).mgt = s.mgt := by unfold Sys.noteWritten; dsimp only; split <;> rfl
@[simp] theorem noteWritten_strap (s : Sys) (r : Reintegration) (q : Nat × Nat) : (Sys.noteWritten r s q).strap = s.strap := by unfold Sys.noteWritten; dsimp only; split <;> rfl
@[simp] theorem noteWritten_reg (s : Sys) (r : Reintegration) (q : Nat × Nat) (x : Nat) : (Sys.noteWritten r s q).reg x = s.reg x := by unfold Sys.reg; rw [noteWritten_regs]
@[simp] theorem noteWritten_get (s : Sys) (r : Reintegration) (q : Nat × Nat) (g : Fld) : (Sys.noteWritten r s q).get g = s.get g := by unfold Sys.get; rw [noteWritten_reg]
@[simp] theorem noteWritten_on (s : Sys) (r : Reintegration) (q : Nat × Nat) (g : Fld) : (Sys.noteWritten r s q).on g = s.on g := by unfold Sys.on; rw [noteWritten_get]
@[simp] theorem noteWritten_bit (s : Sys) (r : Reintegration) (q : Nat × Nat) (g : Fld) (i : Nat) : (Sys.noteWritten r s q).bit g i = s.bit g i := by unfold Sys.bit; rw [noteWritten_get]
@[simp] theorem noteWritten_word (s : Sys) (r : Reintegration) (q : Nat × Nat) (x : Nat) : (Sys.noteWritten r s q).word x = s.word x := by unfold Sys.word; rw [noteWritten_reg]
@[simp] theorem noteWritten_domUp (s : Sys) (r : Reintegration) (q : Nat × Nat) (i : Nat) : (Sys.noteWritten r s q).domUp i = s.domUp i := by unfold Sys.domUp; rw [noteWritten_bit]

/-! ## `lsync` -/

@[simp] theorem lsync_regs (s : Sys) (n : Fin 4) (o k : Nat) : (s.lsync n o k).regs = s.regs := by unfold Sys.lsync; (repeat' split) <;> first | rfl | exact foldl_keep _ _ (fun y x => noteWritten_regs y _ x) _ _
@[simp] theorem lsync_hostMem (s : Sys) (n : Fin 4) (o k : Nat) : (s.lsync n o k).hostMem = s.hostMem := by unfold Sys.lsync; (repeat' split) <;> first | rfl | exact foldl_keep _ _ (fun y x => noteWritten_hostMem y _ x) _ _
@[simp] theorem lsync_response (s : Sys) (n : Fin 4) (o k : Nat) : (s.lsync n o k).response = s.response := by unfold Sys.lsync; (repeat' split) <;> first | rfl | exact foldl_keep _ _ (fun y x => noteWritten_response y _ x) _ _
@[simp] theorem lsync_posts (s : Sys) (n : Fin 4) (o k : Nat) : (s.lsync n o k).posts = s.posts := by unfold Sys.lsync; (repeat' split) <;> first | rfl | exact foldl_keep _ _ (fun y x => noteWritten_posts y _ x) _ _
@[simp] theorem lsync_fclk (s : Sys) (n : Fin 4) (o k : Nat) : (s.lsync n o k).fclk = s.fclk := by unfold Sys.lsync; (repeat' split) <;> first | rfl | exact foldl_keep _ _ (fun y x => noteWritten_fclk y _ x) _ _
@[simp] theorem lsync_lfxo (s : Sys) (n : Fin 4) (o k : Nat) : (s.lsync n o k).lfxo = s.lfxo := by unfold Sys.lsync; (repeat' split) <;> first | rfl | exact foldl_keep _ _ (fun y x => noteWritten_lfxo y _ x) _ _
@[simp] theorem lsync_limits (s : Sys) (n : Fin 4) (o k : Nat) : (s.lsync n o k).limits = s.limits := by unfold Sys.lsync; (repeat' split) <;> first | rfl | exact foldl_keep _ _ (fun y x => noteWritten_limits y _ x) _ _
@[simp] theorem lsync_draws (s : Sys) (n : Fin 4) (o k : Nat) : (s.lsync n o k).draws = s.draws := by unfold Sys.lsync; (repeat' split) <;> first | rfl | exact foldl_keep _ _ (fun y x => noteWritten_draws y _ x) _ _
@[simp] theorem lsync_signals (s : Sys) (n : Fin 4) (o k : Nat) : (s.lsync n o k).signals = s.signals := by unfold Sys.lsync; (repeat' split) <;> first | rfl | exact foldl_keep _ _ (fun y x => noteWritten_signals y _ x) _ _
@[simp] theorem lsync_ang (s : Sys) (n : Fin 4) (o k : Nat) : (s.lsync n o k).ang = s.ang := by unfold Sys.lsync; (repeat' split) <;> first | rfl | exact foldl_keep _ _ (fun y x => noteWritten_ang y _ x) _ _
@[simp] theorem lsync_ctx (s : Sys) (n : Fin 4) (o k : Nat) : (s.lsync n o k).ctx = s.ctx := by unfold Sys.lsync; (repeat' split) <;> first | rfl | exact foldl_keep _ _ (fun y x => noteWritten_ctx y _ x) _ _
@[simp] theorem lsync_col (s : Sys) (n : Fin 4) (o k : Nat) : (s.lsync n o k).col = s.col := by unfold Sys.lsync; (repeat' split) <;> first | rfl | exact foldl_keep _ _ (fun y x => noteWritten_col y _ x) _ _
@[simp] theorem lsync_lanes (s : Sys) (n : Fin 4) (o k : Nat) : (s.lsync n o k).lanes = s.lanes := by unfold Sys.lsync; (repeat' split) <;> first | rfl | exact foldl_keep _ _ (fun y x => noteWritten_lanes y _ x) _ _
@[simp] theorem lsync_loft (s : Sys) (n : Fin 4) (o k : Nat) : (s.lsync n o k).loft = s.loft := by unfold Sys.lsync; (repeat' split) <;> first | rfl | exact foldl_keep _ _ (fun y x => noteWritten_loft y _ x) _ _
@[simp] theorem lsync_chg (s : Sys) (n : Fin 4) (o k : Nat) : (s.lsync n o k).chg = s.chg := by unfold Sys.lsync; (repeat' split) <;> first | rfl | exact foldl_keep _ _ (fun y x => noteWritten_chg y _ x) _ _
@[simp] theorem lsync_prog (s : Sys) (n : Fin 4) (o k : Nat) : (s.lsync n o k).prog = s.prog := by unfold Sys.lsync; (repeat' split) <;> first | rfl | exact foldl_keep _ _ (fun y x => noteWritten_prog y _ x) _ _
@[simp] theorem lsync_fe (s : Sys) (n : Fin 4) (o k : Nat) : (s.lsync n o k).fe = s.fe := by unfold Sys.lsync; (repeat' split) <;> first | rfl | exact foldl_keep _ _ (fun y x => noteWritten_fe y _ x) _ _
@[simp] theorem lsync_fab (s : Sys) (n : Fin 4) (o k : Nat) : (s.lsync n o k).fab = s.fab := by unfold Sys.lsync; (repeat' split) <;> first | rfl | exact foldl_keep _ _ (fun y x => noteWritten_fab y _ x) _ _
@[simp] theorem lsync_hit (s : Sys) (n : Fin 4) (o k : Nat) : (s.lsync n o k).hit = s.hit := by unfold Sys.lsync; (repeat' split) <;> first | rfl | exact foldl_keep _ _ (fun y x => noteWritten_hit y _ x) _ _
@[simp] theorem lsync_can (s : Sys) (n : Fin 4) (o k : Nat) : (s.lsync n o k).can = s.can := by unfold Sys.lsync; (repeat' split) <;> first | rfl | exact foldl_keep _ _ (fun y x => noteWritten_can y _ x) _ _
@[simp] theorem lsync_ports (s : Sys) (n : Fin 4) (o k : Nat) : (s.lsync n o k).ports = s.ports := by unfold Sys.lsync; (repeat' split) <;> first | rfl | exact foldl_keep _ _ (fun y x => noteWritten_ports y _ x) _ _
@[simp] theorem lsync_dma (s : Sys) (n : Fin 4) (o k : Nat) : (s.lsync n o k).dma = s.dma := by unfold Sys.lsync; (repeat' split) <;> first | rfl | exact foldl_keep _ _ (fun y x => noteWritten_dma y _ x) _ _
@[simp] theorem lsync_arb (s : Sys) (n : Fin 4) (o k : Nat) : (s.lsync n o k).arb = s.arb := by unfold Sys.lsync; (repeat' split) <;> first | rfl | exact foldl_keep _ _ (fun y x => noteWritten_arb y _ x) _ _
@[simp] theorem lsync_mi (s : Sys) (n : Fin 4) (o k : Nat) : (s.lsync n o k).mi = s.mi := by unfold Sys.lsync; (repeat' split) <;> first | rfl | exact foldl_keep _ _ (fun y x => noteWritten_mi y _ x) _ _
@[simp] theorem lsync_clk (s : Sys) (n : Fin 4) (o k : Nat) : (s.lsync n o k).clk = s.clk := by unfold Sys.lsync; (repeat' split) <;> first | rfl | exact foldl_keep _ _ (fun y x => noteWritten_clk y _ x) _ _
@[simp] theorem lsync_pwr (s : Sys) (n : Fin 4) (o k : Nat) : (s.lsync n o k).pwr = s.pwr := by unfold Sys.lsync; (repeat' split) <;> first | rfl | exact foldl_keep _ _ (fun y x => noteWritten_pwr y _ x) _ _
@[simp] theorem lsync_rtc (s : Sys) (n : Fin 4) (o k : Nat) : (s.lsync n o k).rtc = s.rtc := by unfold Sys.lsync; (repeat' split) <;> first | rfl | exact foldl_keep _ _ (fun y x => noteWritten_rtc y _ x) _ _
@[simp] theorem lsync_keys (s : Sys) (n : Fin 4) (o k : Nat) : (s.lsync n o k).keys = s.keys := by unfold Sys.lsync; (repeat' split) <;> first | rfl | exact foldl_keep _ _ (fun y x => noteWritten_keys y _ x) _ _
@[simp] theorem lsync_lck (s : Sys) (n : Fin 4) (o k : Nat) : (s.lsync n o k).lck = s.lck := by unfold Sys.lsync; (repeat' split) <;> first | rfl | exact foldl_keep _ _ (fun y x => noteWritten_lck y _ x) _ _
@[simp] theorem lsync_upd (s : Sys) (n : Fin 4) (o k : Nat) : (s.lsync n o k).upd = s.upd := by unfold Sys.lsync; (repeat' split) <;> first | rfl | exact foldl_keep _ _ (fun y x => noteWritten_upd y _ x) _ _
@[simp] theorem lsync_evr (s : Sys) (n : Fin 4) (o k : Nat) : (s.lsync n o k).evr = s.evr := by unfold Sys.lsync; (repeat' split) <;> first | rfl | exact foldl_keep _ _ (fun y x => noteWritten_evr y _ x) _ _
@[simp] theorem lsync_mgt (s : Sys) (n : Fin 4) (o k : Nat) : (s.lsync n o k).mgt = s.mgt := by unfold Sys.lsync; (repeat' split) <;> first | rfl | exact foldl_keep _ _ (fun y x => noteWritten_mgt y _ x) _ _
@[simp] theorem lsync_strap (s : Sys) (n : Fin 4) (o k : Nat) : (s.lsync n o k).strap = s.strap := by unfold Sys.lsync; (repeat' split) <;> first | rfl | exact foldl_keep _ _ (fun y x => noteWritten_strap y _ x) _ _
@[simp] theorem lsync_reg (s : Sys) (n : Fin 4) (o k : Nat) (x : Nat) : (s.lsync n o k).reg x = s.reg x := by unfold Sys.reg; rw [lsync_regs]
@[simp] theorem lsync_get (s : Sys) (n : Fin 4) (o k : Nat) (g : Fld) : (s.lsync n o k).get g = s.get g := by unfold Sys.get; rw [lsync_reg]
@[simp] theorem lsync_on (s : Sys) (n : Fin 4) (o k : Nat) (g : Fld) : (s.lsync n o k).on g = s.on g := by unfold Sys.on; rw [lsync_get]
@[simp] theorem lsync_bit (s : Sys) (n : Fin 4) (o k : Nat) (g : Fld) (i : Nat) : (s.lsync n o k).bit g i = s.bit g i := by unfold Sys.bit; rw [lsync_get]
@[simp] theorem lsync_word (s : Sys) (n : Fin 4) (o k : Nat) (x : Nat) : (s.lsync n o k).word x = s.word x := by unfold Sys.word; rw [lsync_reg]
@[simp] theorem lsync_domUp (s : Sys) (n : Fin 4) (o k : Nat) (i : Nat) : (s.lsync n o k).domUp i = s.domUp i := by unfold Sys.domUp; rw [lsync_bit]

/-! ## `lwr` -/

@[simp] theorem lwr_regs (s : Sys) (n : Fin 4) (o k v : Nat) : (s.lwr n o k v).regs = s.regs := (lsync_regs ..).trans rfl
@[simp] theorem lwr_hostMem (s : Sys) (n : Fin 4) (o k v : Nat) : (s.lwr n o k v).hostMem = s.hostMem := (lsync_hostMem ..).trans rfl
@[simp] theorem lwr_response (s : Sys) (n : Fin 4) (o k v : Nat) : (s.lwr n o k v).response = s.response := (lsync_response ..).trans rfl
@[simp] theorem lwr_posts (s : Sys) (n : Fin 4) (o k v : Nat) : (s.lwr n o k v).posts = s.posts := (lsync_posts ..).trans rfl
@[simp] theorem lwr_fclk (s : Sys) (n : Fin 4) (o k v : Nat) : (s.lwr n o k v).fclk = s.fclk := (lsync_fclk ..).trans rfl
@[simp] theorem lwr_lfxo (s : Sys) (n : Fin 4) (o k v : Nat) : (s.lwr n o k v).lfxo = s.lfxo := (lsync_lfxo ..).trans rfl
@[simp] theorem lwr_limits (s : Sys) (n : Fin 4) (o k v : Nat) : (s.lwr n o k v).limits = s.limits := (lsync_limits ..).trans rfl
@[simp] theorem lwr_draws (s : Sys) (n : Fin 4) (o k v : Nat) : (s.lwr n o k v).draws = s.draws := (lsync_draws ..).trans rfl
@[simp] theorem lwr_signals (s : Sys) (n : Fin 4) (o k v : Nat) : (s.lwr n o k v).signals = s.signals := (lsync_signals ..).trans rfl
@[simp] theorem lwr_ang (s : Sys) (n : Fin 4) (o k v : Nat) : (s.lwr n o k v).ang = s.ang := (lsync_ang ..).trans rfl
@[simp] theorem lwr_ctx (s : Sys) (n : Fin 4) (o k v : Nat) : (s.lwr n o k v).ctx = s.ctx := (lsync_ctx ..).trans rfl
@[simp] theorem lwr_col (s : Sys) (n : Fin 4) (o k v : Nat) : (s.lwr n o k v).col = s.col := (lsync_col ..).trans rfl
@[simp] theorem lwr_lanes (s : Sys) (n : Fin 4) (o k v : Nat) : (s.lwr n o k v).lanes = s.lanes := (lsync_lanes ..).trans rfl
@[simp] theorem lwr_loft (s : Sys) (n : Fin 4) (o k v : Nat) : (s.lwr n o k v).loft = s.loft := (lsync_loft ..).trans rfl
@[simp] theorem lwr_chg (s : Sys) (n : Fin 4) (o k v : Nat) : (s.lwr n o k v).chg = s.chg := (lsync_chg ..).trans rfl
@[simp] theorem lwr_prog (s : Sys) (n : Fin 4) (o k v : Nat) : (s.lwr n o k v).prog = s.prog := (lsync_prog ..).trans rfl
@[simp] theorem lwr_fe (s : Sys) (n : Fin 4) (o k v : Nat) : (s.lwr n o k v).fe = s.fe := (lsync_fe ..).trans rfl
@[simp] theorem lwr_fab (s : Sys) (n : Fin 4) (o k v : Nat) : (s.lwr n o k v).fab = s.fab := (lsync_fab ..).trans rfl
@[simp] theorem lwr_hit (s : Sys) (n : Fin 4) (o k v : Nat) : (s.lwr n o k v).hit = s.hit := (lsync_hit ..).trans rfl
@[simp] theorem lwr_can (s : Sys) (n : Fin 4) (o k v : Nat) : (s.lwr n o k v).can = s.can := (lsync_can ..).trans rfl
@[simp] theorem lwr_ports (s : Sys) (n : Fin 4) (o k v : Nat) : (s.lwr n o k v).ports = s.ports := (lsync_ports ..).trans rfl
@[simp] theorem lwr_dma (s : Sys) (n : Fin 4) (o k v : Nat) : (s.lwr n o k v).dma = s.dma := (lsync_dma ..).trans rfl
@[simp] theorem lwr_arb (s : Sys) (n : Fin 4) (o k v : Nat) : (s.lwr n o k v).arb = s.arb := (lsync_arb ..).trans rfl
@[simp] theorem lwr_mi (s : Sys) (n : Fin 4) (o k v : Nat) : (s.lwr n o k v).mi = s.mi := (lsync_mi ..).trans rfl
@[simp] theorem lwr_clk (s : Sys) (n : Fin 4) (o k v : Nat) : (s.lwr n o k v).clk = s.clk := (lsync_clk ..).trans rfl
@[simp] theorem lwr_pwr (s : Sys) (n : Fin 4) (o k v : Nat) : (s.lwr n o k v).pwr = s.pwr := (lsync_pwr ..).trans rfl
@[simp] theorem lwr_rtc (s : Sys) (n : Fin 4) (o k v : Nat) : (s.lwr n o k v).rtc = s.rtc := (lsync_rtc ..).trans rfl
@[simp] theorem lwr_keys (s : Sys) (n : Fin 4) (o k v : Nat) : (s.lwr n o k v).keys = s.keys := (lsync_keys ..).trans rfl
@[simp] theorem lwr_lck (s : Sys) (n : Fin 4) (o k v : Nat) : (s.lwr n o k v).lck = s.lck := (lsync_lck ..).trans rfl
@[simp] theorem lwr_upd (s : Sys) (n : Fin 4) (o k v : Nat) : (s.lwr n o k v).upd = s.upd := (lsync_upd ..).trans rfl
@[simp] theorem lwr_evr (s : Sys) (n : Fin 4) (o k v : Nat) : (s.lwr n o k v).evr = s.evr := (lsync_evr ..).trans rfl
@[simp] theorem lwr_mgt (s : Sys) (n : Fin 4) (o k v : Nat) : (s.lwr n o k v).mgt = s.mgt := (lsync_mgt ..).trans rfl
@[simp] theorem lwr_strap (s : Sys) (n : Fin 4) (o k v : Nat) : (s.lwr n o k v).strap = s.strap := (lsync_strap ..).trans rfl
@[simp] theorem lwr_reg (s : Sys) (n : Fin 4) (o k v : Nat) (x : Nat) : (s.lwr n o k v).reg x = s.reg x := by unfold Sys.reg; rw [lwr_regs]
@[simp] theorem lwr_get (s : Sys) (n : Fin 4) (o k v : Nat) (g : Fld) : (s.lwr n o k v).get g = s.get g := by unfold Sys.get; rw [lwr_reg]
@[simp] theorem lwr_on (s : Sys) (n : Fin 4) (o k v : Nat) (g : Fld) : (s.lwr n o k v).on g = s.on g := by unfold Sys.on; rw [lwr_get]
@[simp] theorem lwr_bit (s : Sys) (n : Fin 4) (o k v : Nat) (g : Fld) (i : Nat) : (s.lwr n o k v).bit g i = s.bit g i := by unfold Sys.bit; rw [lwr_get]
@[simp] theorem lwr_word (s : Sys) (n : Fin 4) (o k v : Nat) (x : Nat) : (s.lwr n o k v).word x = s.word x := by unfold Sys.word; rw [lwr_reg]
@[simp] theorem lwr_domUp (s : Sys) (n : Fin 4) (o k v : Nat) (i : Nat) : (s.lwr n o k v).domUp i = s.domUp i := by unfold Sys.domUp; rw [lwr_bit]

/-! ## `answer` -/

@[simp] theorem answer_regs (s : Sys) (v : Nat) : (s.answer v).regs = s.regs := rfl
@[simp] theorem answer_mem (s : Sys) (v : Nat) : (s.answer v).mem = s.mem := rfl
@[simp] theorem answer_hostMem (s : Sys) (v : Nat) : (s.answer v).hostMem = s.hostMem := rfl
@[simp] theorem answer_posts (s : Sys) (v : Nat) : (s.answer v).posts = s.posts := rfl
@[simp] theorem answer_fclk (s : Sys) (v : Nat) : (s.answer v).fclk = s.fclk := rfl
@[simp] theorem answer_lfxo (s : Sys) (v : Nat) : (s.answer v).lfxo = s.lfxo := rfl
@[simp] theorem answer_limits (s : Sys) (v : Nat) : (s.answer v).limits = s.limits := rfl
@[simp] theorem answer_draws (s : Sys) (v : Nat) : (s.answer v).draws = s.draws := rfl
@[simp] theorem answer_signals (s : Sys) (v : Nat) : (s.answer v).signals = s.signals := rfl
@[simp] theorem answer_ang (s : Sys) (v : Nat) : (s.answer v).ang = s.ang := rfl
@[simp] theorem answer_ctx (s : Sys) (v : Nat) : (s.answer v).ctx = s.ctx := rfl
@[simp] theorem answer_col (s : Sys) (v : Nat) : (s.answer v).col = s.col := rfl
@[simp] theorem answer_lanes (s : Sys) (v : Nat) : (s.answer v).lanes = s.lanes := rfl
@[simp] theorem answer_vot (s : Sys) (v : Nat) : (s.answer v).vot = s.vot := rfl
@[simp] theorem answer_loft (s : Sys) (v : Nat) : (s.answer v).loft = s.loft := rfl
@[simp] theorem answer_chg (s : Sys) (v : Nat) : (s.answer v).chg = s.chg := rfl
@[simp] theorem answer_prog (s : Sys) (v : Nat) : (s.answer v).prog = s.prog := rfl
@[simp] theorem answer_fe (s : Sys) (v : Nat) : (s.answer v).fe = s.fe := rfl
@[simp] theorem answer_fab (s : Sys) (v : Nat) : (s.answer v).fab = s.fab := rfl
@[simp] theorem answer_hit (s : Sys) (v : Nat) : (s.answer v).hit = s.hit := rfl
@[simp] theorem answer_can (s : Sys) (v : Nat) : (s.answer v).can = s.can := rfl
@[simp] theorem answer_ports (s : Sys) (v : Nat) : (s.answer v).ports = s.ports := rfl
@[simp] theorem answer_dma (s : Sys) (v : Nat) : (s.answer v).dma = s.dma := rfl
@[simp] theorem answer_arb (s : Sys) (v : Nat) : (s.answer v).arb = s.arb := rfl
@[simp] theorem answer_mi (s : Sys) (v : Nat) : (s.answer v).mi = s.mi := rfl
@[simp] theorem answer_clk (s : Sys) (v : Nat) : (s.answer v).clk = s.clk := rfl
@[simp] theorem answer_pwr (s : Sys) (v : Nat) : (s.answer v).pwr = s.pwr := rfl
@[simp] theorem answer_rtc (s : Sys) (v : Nat) : (s.answer v).rtc = s.rtc := rfl
@[simp] theorem answer_keys (s : Sys) (v : Nat) : (s.answer v).keys = s.keys := rfl
@[simp] theorem answer_lck (s : Sys) (v : Nat) : (s.answer v).lck = s.lck := rfl
@[simp] theorem answer_upd (s : Sys) (v : Nat) : (s.answer v).upd = s.upd := rfl
@[simp] theorem answer_evr (s : Sys) (v : Nat) : (s.answer v).evr = s.evr := rfl
@[simp] theorem answer_mgt (s : Sys) (v : Nat) : (s.answer v).mgt = s.mgt := rfl
@[simp] theorem answer_strap (s : Sys) (v : Nat) : (s.answer v).strap = s.strap := rfl
@[simp] theorem answer_reg (s : Sys) (v : Nat) (x : Nat) : (s.answer v).reg x = s.reg x := by unfold Sys.reg; rw [answer_regs]
@[simp] theorem answer_get (s : Sys) (v : Nat) (g : Fld) : (s.answer v).get g = s.get g := by unfold Sys.get; rw [answer_reg]
@[simp] theorem answer_on (s : Sys) (v : Nat) (g : Fld) : (s.answer v).on g = s.on g := by unfold Sys.on; rw [answer_get]
@[simp] theorem answer_bit (s : Sys) (v : Nat) (g : Fld) (i : Nat) : (s.answer v).bit g i = s.bit g i := by unfold Sys.bit; rw [answer_get]
@[simp] theorem answer_word (s : Sys) (v : Nat) (x : Nat) : (s.answer v).word x = s.word x := by unfold Sys.word; rw [answer_reg]
@[simp] theorem answer_domUp (s : Sys) (v : Nat) (i : Nat) : (s.answer v).domUp i = s.domUp i := by unfold Sys.domUp; rw [answer_bit]

/-! ## `answerBytes` -/

@[simp] theorem answerBytes_regs (s : Sys) (bs : List Nat) : (s.answerBytes bs).regs = s.regs := rfl
@[simp] theorem answerBytes_mem (s : Sys) (bs : List Nat) : (s.answerBytes bs).mem = s.mem := rfl
@[simp] theorem answerBytes_hostMem (s : Sys) (bs : List Nat) : (s.answerBytes bs).hostMem = s.hostMem := rfl
@[simp] theorem answerBytes_posts (s : Sys) (bs : List Nat) : (s.answerBytes bs).posts = s.posts := rfl
@[simp] theorem answerBytes_fclk (s : Sys) (bs : List Nat) : (s.answerBytes bs).fclk = s.fclk := rfl
@[simp] theorem answerBytes_lfxo (s : Sys) (bs : List Nat) : (s.answerBytes bs).lfxo = s.lfxo := rfl
@[simp] theorem answerBytes_limits (s : Sys) (bs : List Nat) : (s.answerBytes bs).limits = s.limits := rfl
@[simp] theorem answerBytes_draws (s : Sys) (bs : List Nat) : (s.answerBytes bs).draws = s.draws := rfl
@[simp] theorem answerBytes_signals (s : Sys) (bs : List Nat) : (s.answerBytes bs).signals = s.signals := rfl
@[simp] theorem answerBytes_ang (s : Sys) (bs : List Nat) : (s.answerBytes bs).ang = s.ang := rfl
@[simp] theorem answerBytes_ctx (s : Sys) (bs : List Nat) : (s.answerBytes bs).ctx = s.ctx := rfl
@[simp] theorem answerBytes_col (s : Sys) (bs : List Nat) : (s.answerBytes bs).col = s.col := rfl
@[simp] theorem answerBytes_lanes (s : Sys) (bs : List Nat) : (s.answerBytes bs).lanes = s.lanes := rfl
@[simp] theorem answerBytes_vot (s : Sys) (bs : List Nat) : (s.answerBytes bs).vot = s.vot := rfl
@[simp] theorem answerBytes_loft (s : Sys) (bs : List Nat) : (s.answerBytes bs).loft = s.loft := rfl
@[simp] theorem answerBytes_chg (s : Sys) (bs : List Nat) : (s.answerBytes bs).chg = s.chg := rfl
@[simp] theorem answerBytes_prog (s : Sys) (bs : List Nat) : (s.answerBytes bs).prog = s.prog := rfl
@[simp] theorem answerBytes_fe (s : Sys) (bs : List Nat) : (s.answerBytes bs).fe = s.fe := rfl
@[simp] theorem answerBytes_fab (s : Sys) (bs : List Nat) : (s.answerBytes bs).fab = s.fab := rfl
@[simp] theorem answerBytes_hit (s : Sys) (bs : List Nat) : (s.answerBytes bs).hit = s.hit := rfl
@[simp] theorem answerBytes_can (s : Sys) (bs : List Nat) : (s.answerBytes bs).can = s.can := rfl
@[simp] theorem answerBytes_ports (s : Sys) (bs : List Nat) : (s.answerBytes bs).ports = s.ports := rfl
@[simp] theorem answerBytes_dma (s : Sys) (bs : List Nat) : (s.answerBytes bs).dma = s.dma := rfl
@[simp] theorem answerBytes_arb (s : Sys) (bs : List Nat) : (s.answerBytes bs).arb = s.arb := rfl
@[simp] theorem answerBytes_mi (s : Sys) (bs : List Nat) : (s.answerBytes bs).mi = s.mi := rfl
@[simp] theorem answerBytes_clk (s : Sys) (bs : List Nat) : (s.answerBytes bs).clk = s.clk := rfl
@[simp] theorem answerBytes_pwr (s : Sys) (bs : List Nat) : (s.answerBytes bs).pwr = s.pwr := rfl
@[simp] theorem answerBytes_rtc (s : Sys) (bs : List Nat) : (s.answerBytes bs).rtc = s.rtc := rfl
@[simp] theorem answerBytes_keys (s : Sys) (bs : List Nat) : (s.answerBytes bs).keys = s.keys := rfl
@[simp] theorem answerBytes_lck (s : Sys) (bs : List Nat) : (s.answerBytes bs).lck = s.lck := rfl
@[simp] theorem answerBytes_upd (s : Sys) (bs : List Nat) : (s.answerBytes bs).upd = s.upd := rfl
@[simp] theorem answerBytes_evr (s : Sys) (bs : List Nat) : (s.answerBytes bs).evr = s.evr := rfl
@[simp] theorem answerBytes_mgt (s : Sys) (bs : List Nat) : (s.answerBytes bs).mgt = s.mgt := rfl
@[simp] theorem answerBytes_strap (s : Sys) (bs : List Nat) : (s.answerBytes bs).strap = s.strap := rfl
@[simp] theorem answerBytes_reg (s : Sys) (bs : List Nat) (x : Nat) : (s.answerBytes bs).reg x = s.reg x := by unfold Sys.reg; rw [answerBytes_regs]
@[simp] theorem answerBytes_get (s : Sys) (bs : List Nat) (g : Fld) : (s.answerBytes bs).get g = s.get g := by unfold Sys.get; rw [answerBytes_reg]
@[simp] theorem answerBytes_on (s : Sys) (bs : List Nat) (g : Fld) : (s.answerBytes bs).on g = s.on g := by unfold Sys.on; rw [answerBytes_get]
@[simp] theorem answerBytes_bit (s : Sys) (bs : List Nat) (g : Fld) (i : Nat) : (s.answerBytes bs).bit g i = s.bit g i := by unfold Sys.bit; rw [answerBytes_get]
@[simp] theorem answerBytes_word (s : Sys) (bs : List Nat) (x : Nat) : (s.answerBytes bs).word x = s.word x := by unfold Sys.word; rw [answerBytes_reg]
@[simp] theorem answerBytes_domUp (s : Sys) (bs : List Nat) (i : Nat) : (s.answerBytes bs).domUp i = s.domUp i := by unfold Sys.domUp; rw [answerBytes_bit]

/-! ## `vector` -/

@[simp] theorem vector_mem (s : Sys) (k : Nat) : (s.vector k).mem = s.mem := by unfold Sys.vector; split <;> rfl
@[simp] theorem vector_hostMem (s : Sys) (k : Nat) : (s.vector k).hostMem = s.hostMem := by unfold Sys.vector; split <;> rfl
@[simp] theorem vector_response (s : Sys) (k : Nat) : (s.vector k).response = s.response := by unfold Sys.vector; split <;> rfl
@[simp] theorem vector_posts (s : Sys) (k : Nat) : (s.vector k).posts = s.posts := by unfold Sys.vector; split <;> rfl
@[simp] theorem vector_fclk (s : Sys) (k : Nat) : (s.vector k).fclk = s.fclk := by unfold Sys.vector; split <;> rfl
@[simp] theorem vector_lfxo (s : Sys) (k : Nat) : (s.vector k).lfxo = s.lfxo := by unfold Sys.vector; split <;> rfl
@[simp] theorem vector_limits (s : Sys) (k : Nat) : (s.vector k).limits = s.limits := by unfold Sys.vector; split <;> rfl
@[simp] theorem vector_draws (s : Sys) (k : Nat) : (s.vector k).draws = s.draws := by unfold Sys.vector; split <;> rfl
@[simp] theorem vector_ang (s : Sys) (k : Nat) : (s.vector k).ang = s.ang := by unfold Sys.vector; split <;> rfl
@[simp] theorem vector_ctx (s : Sys) (k : Nat) : (s.vector k).ctx = s.ctx := by unfold Sys.vector; split <;> rfl
@[simp] theorem vector_col (s : Sys) (k : Nat) : (s.vector k).col = s.col := by unfold Sys.vector; split <;> rfl
@[simp] theorem vector_lanes (s : Sys) (k : Nat) : (s.vector k).lanes = s.lanes := by unfold Sys.vector; split <;> rfl
@[simp] theorem vector_vot (s : Sys) (k : Nat) : (s.vector k).vot = s.vot := by unfold Sys.vector; split <;> rfl
@[simp] theorem vector_loft (s : Sys) (k : Nat) : (s.vector k).loft = s.loft := by unfold Sys.vector; split <;> rfl
@[simp] theorem vector_chg (s : Sys) (k : Nat) : (s.vector k).chg = s.chg := by unfold Sys.vector; split <;> rfl
@[simp] theorem vector_prog (s : Sys) (k : Nat) : (s.vector k).prog = s.prog := by unfold Sys.vector; split <;> rfl
@[simp] theorem vector_fe (s : Sys) (k : Nat) : (s.vector k).fe = s.fe := by unfold Sys.vector; split <;> rfl
@[simp] theorem vector_fab (s : Sys) (k : Nat) : (s.vector k).fab = s.fab := by unfold Sys.vector; split <;> rfl
@[simp] theorem vector_hit (s : Sys) (k : Nat) : (s.vector k).hit = s.hit := by unfold Sys.vector; split <;> rfl
@[simp] theorem vector_can (s : Sys) (k : Nat) : (s.vector k).can = s.can := by unfold Sys.vector; split <;> rfl
@[simp] theorem vector_ports (s : Sys) (k : Nat) : (s.vector k).ports = s.ports := by unfold Sys.vector; split <;> rfl
@[simp] theorem vector_dma (s : Sys) (k : Nat) : (s.vector k).dma = s.dma := by unfold Sys.vector; split <;> rfl
@[simp] theorem vector_arb (s : Sys) (k : Nat) : (s.vector k).arb = s.arb := by unfold Sys.vector; split <;> rfl
@[simp] theorem vector_mi (s : Sys) (k : Nat) : (s.vector k).mi = s.mi := by unfold Sys.vector; split <;> rfl
@[simp] theorem vector_clk (s : Sys) (k : Nat) : (s.vector k).clk = s.clk := by unfold Sys.vector; split <;> rfl
@[simp] theorem vector_pwr (s : Sys) (k : Nat) : (s.vector k).pwr = s.pwr := by unfold Sys.vector; split <;> rfl
@[simp] theorem vector_rtc (s : Sys) (k : Nat) : (s.vector k).rtc = s.rtc := by unfold Sys.vector; split <;> rfl
@[simp] theorem vector_keys (s : Sys) (k : Nat) : (s.vector k).keys = s.keys := by unfold Sys.vector; split <;> rfl
@[simp] theorem vector_lck (s : Sys) (k : Nat) : (s.vector k).lck = s.lck := by unfold Sys.vector; split <;> rfl
@[simp] theorem vector_upd (s : Sys) (k : Nat) : (s.vector k).upd = s.upd := by unfold Sys.vector; split <;> rfl
@[simp] theorem vector_evr (s : Sys) (k : Nat) : (s.vector k).evr = s.evr := by unfold Sys.vector; split <;> rfl
@[simp] theorem vector_mgt (s : Sys) (k : Nat) : (s.vector k).mgt = s.mgt := by unfold Sys.vector; split <;> rfl
@[simp] theorem vector_strap (s : Sys) (k : Nat) : (s.vector k).strap = s.strap := by unfold Sys.vector; split <;> rfl

/-! ## `signal` -/

@[simp] theorem signal_mem (s : Sys) (f : Fld) (e : Bool) (k : Nat) : (s.signal f e k).mem = s.mem := by unfold Sys.signal; dsimp only; (repeat' split) <;> first | rfl | exact vector_mem ..
@[simp] theorem signal_hostMem (s : Sys) (f : Fld) (e : Bool) (k : Nat) : (s.signal f e k).hostMem = s.hostMem := by unfold Sys.signal; dsimp only; (repeat' split) <;> first | rfl | exact vector_hostMem ..
@[simp] theorem signal_response (s : Sys) (f : Fld) (e : Bool) (k : Nat) : (s.signal f e k).response = s.response := by unfold Sys.signal; dsimp only; (repeat' split) <;> first | rfl | exact vector_response ..
@[simp] theorem signal_posts (s : Sys) (f : Fld) (e : Bool) (k : Nat) : (s.signal f e k).posts = s.posts := by unfold Sys.signal; dsimp only; (repeat' split) <;> first | rfl | exact vector_posts ..
@[simp] theorem signal_fclk (s : Sys) (f : Fld) (e : Bool) (k : Nat) : (s.signal f e k).fclk = s.fclk := by unfold Sys.signal; dsimp only; (repeat' split) <;> first | rfl | exact vector_fclk ..
@[simp] theorem signal_lfxo (s : Sys) (f : Fld) (e : Bool) (k : Nat) : (s.signal f e k).lfxo = s.lfxo := by unfold Sys.signal; dsimp only; (repeat' split) <;> first | rfl | exact vector_lfxo ..
@[simp] theorem signal_limits (s : Sys) (f : Fld) (e : Bool) (k : Nat) : (s.signal f e k).limits = s.limits := by unfold Sys.signal; dsimp only; (repeat' split) <;> first | rfl | exact vector_limits ..
@[simp] theorem signal_draws (s : Sys) (f : Fld) (e : Bool) (k : Nat) : (s.signal f e k).draws = s.draws := by unfold Sys.signal; dsimp only; (repeat' split) <;> first | rfl | exact vector_draws ..
@[simp] theorem signal_ang (s : Sys) (f : Fld) (e : Bool) (k : Nat) : (s.signal f e k).ang = s.ang := by unfold Sys.signal; dsimp only; (repeat' split) <;> first | rfl | exact vector_ang ..
@[simp] theorem signal_ctx (s : Sys) (f : Fld) (e : Bool) (k : Nat) : (s.signal f e k).ctx = s.ctx := by unfold Sys.signal; dsimp only; (repeat' split) <;> first | rfl | exact vector_ctx ..
@[simp] theorem signal_col (s : Sys) (f : Fld) (e : Bool) (k : Nat) : (s.signal f e k).col = s.col := by unfold Sys.signal; dsimp only; (repeat' split) <;> first | rfl | exact vector_col ..
@[simp] theorem signal_lanes (s : Sys) (f : Fld) (e : Bool) (k : Nat) : (s.signal f e k).lanes = s.lanes := by unfold Sys.signal; dsimp only; (repeat' split) <;> first | rfl | exact vector_lanes ..
@[simp] theorem signal_vot (s : Sys) (f : Fld) (e : Bool) (k : Nat) : (s.signal f e k).vot = s.vot := by unfold Sys.signal; dsimp only; (repeat' split) <;> first | rfl | exact vector_vot ..
@[simp] theorem signal_loft (s : Sys) (f : Fld) (e : Bool) (k : Nat) : (s.signal f e k).loft = s.loft := by unfold Sys.signal; dsimp only; (repeat' split) <;> first | rfl | exact vector_loft ..
@[simp] theorem signal_chg (s : Sys) (f : Fld) (e : Bool) (k : Nat) : (s.signal f e k).chg = s.chg := by unfold Sys.signal; dsimp only; (repeat' split) <;> first | rfl | exact vector_chg ..
@[simp] theorem signal_prog (s : Sys) (f : Fld) (e : Bool) (k : Nat) : (s.signal f e k).prog = s.prog := by unfold Sys.signal; dsimp only; (repeat' split) <;> first | rfl | exact vector_prog ..
@[simp] theorem signal_fe (s : Sys) (f : Fld) (e : Bool) (k : Nat) : (s.signal f e k).fe = s.fe := by unfold Sys.signal; dsimp only; (repeat' split) <;> first | rfl | exact vector_fe ..
@[simp] theorem signal_fab (s : Sys) (f : Fld) (e : Bool) (k : Nat) : (s.signal f e k).fab = s.fab := by unfold Sys.signal; dsimp only; (repeat' split) <;> first | rfl | exact vector_fab ..
@[simp] theorem signal_hit (s : Sys) (f : Fld) (e : Bool) (k : Nat) : (s.signal f e k).hit = s.hit := by unfold Sys.signal; dsimp only; (repeat' split) <;> first | rfl | exact vector_hit ..
@[simp] theorem signal_can (s : Sys) (f : Fld) (e : Bool) (k : Nat) : (s.signal f e k).can = s.can := by unfold Sys.signal; dsimp only; (repeat' split) <;> first | rfl | exact vector_can ..
@[simp] theorem signal_ports (s : Sys) (f : Fld) (e : Bool) (k : Nat) : (s.signal f e k).ports = s.ports := by unfold Sys.signal; dsimp only; (repeat' split) <;> first | rfl | exact vector_ports ..
@[simp] theorem signal_dma (s : Sys) (f : Fld) (e : Bool) (k : Nat) : (s.signal f e k).dma = s.dma := by unfold Sys.signal; dsimp only; (repeat' split) <;> first | rfl | exact vector_dma ..
@[simp] theorem signal_arb (s : Sys) (f : Fld) (e : Bool) (k : Nat) : (s.signal f e k).arb = s.arb := by unfold Sys.signal; dsimp only; (repeat' split) <;> first | rfl | exact vector_arb ..
@[simp] theorem signal_mi (s : Sys) (f : Fld) (e : Bool) (k : Nat) : (s.signal f e k).mi = s.mi := by unfold Sys.signal; dsimp only; (repeat' split) <;> first | rfl | exact vector_mi ..
@[simp] theorem signal_clk (s : Sys) (f : Fld) (e : Bool) (k : Nat) : (s.signal f e k).clk = s.clk := by unfold Sys.signal; dsimp only; (repeat' split) <;> first | rfl | exact vector_clk ..
@[simp] theorem signal_pwr (s : Sys) (f : Fld) (e : Bool) (k : Nat) : (s.signal f e k).pwr = s.pwr := by unfold Sys.signal; dsimp only; (repeat' split) <;> first | rfl | exact vector_pwr ..
@[simp] theorem signal_rtc (s : Sys) (f : Fld) (e : Bool) (k : Nat) : (s.signal f e k).rtc = s.rtc := by unfold Sys.signal; dsimp only; (repeat' split) <;> first | rfl | exact vector_rtc ..
@[simp] theorem signal_keys (s : Sys) (f : Fld) (e : Bool) (k : Nat) : (s.signal f e k).keys = s.keys := by unfold Sys.signal; dsimp only; (repeat' split) <;> first | rfl | exact vector_keys ..
@[simp] theorem signal_lck (s : Sys) (f : Fld) (e : Bool) (k : Nat) : (s.signal f e k).lck = s.lck := by unfold Sys.signal; dsimp only; (repeat' split) <;> first | rfl | exact vector_lck ..
@[simp] theorem signal_upd (s : Sys) (f : Fld) (e : Bool) (k : Nat) : (s.signal f e k).upd = s.upd := by unfold Sys.signal; dsimp only; (repeat' split) <;> first | rfl | exact vector_upd ..
@[simp] theorem signal_evr (s : Sys) (f : Fld) (e : Bool) (k : Nat) : (s.signal f e k).evr = s.evr := by unfold Sys.signal; dsimp only; (repeat' split) <;> first | rfl | exact vector_evr ..
@[simp] theorem signal_mgt (s : Sys) (f : Fld) (e : Bool) (k : Nat) : (s.signal f e k).mgt = s.mgt := by unfold Sys.signal; dsimp only; (repeat' split) <;> first | rfl | exact vector_mgt ..
@[simp] theorem signal_strap (s : Sys) (f : Fld) (e : Bool) (k : Nat) : (s.signal f e k).strap = s.strap := by unfold Sys.signal; dsimp only; (repeat' split) <;> first | rfl | exact vector_strap ..

end Sys2Proof.Laws
end

