-- ==== Sys2Proof/Laws/Regs.lean ====
section
/-!
SUPPORT. Registers and fields: what a read gives after a write of the same register or field, of another, and of a field beside it in
the same register.
-/
namespace Sys2Proof.Laws
open Sys2Proof.Machine

@[simp] theorem setReg_reg_same (s : Sys) (a : Nat) (v : Word) : (s.setReg a v).reg a = v := sget_sset_same

theorem setReg_reg_ne (s : Sys) {a b : Nat} (v : Word) (h : b ≠ a) : (s.setReg a v).reg b = s.reg b := sget_sset_ne h

@[simp] theorem setReg_reg (s : Sys) (a b : Nat) (v : Word) : (s.setReg a v).reg b = if b = a then v else s.reg b := by
  split
  · subst b; exact setReg_reg_same ..
  · exact setReg_reg_ne _ _ ‹_›

theorem put_reg_ne (s : Sys) (f : Fld) (v : Nat) {b : Nat} (h : b ≠ f.addr) : (s.put f v).reg b = s.reg b := setReg_reg_ne _ _ h

@[simp] theorem setWord_word_same (s : Sys) (a v : Nat) : (s.setWord a v).word a = v % 2 ^ 32 := by
  simp [Sys.word, Sys.setWord]

/-! ## Parts that share their registers

What a part reads of its registers depends on its register store alone: a record update of another component is looked through. -/

/-- A register of a store. -/
def rreg (r : List (Nat × Word)) (a : Nat) : Word := sget regReset r a

/-- A field of a store. -/
def rget (r : List (Nat × Word)) (f : Fld) : Nat := ((rreg r f.addr).extractLsb' f.lo f.width).toNat

@[simp] theorem mk_reg (r : List (Nat × Word)) x1 x2 x3 x4 x5 x6 x7 x8 x9 x10 x11 x12 x13 x14 x15 x16 x17 x18 x19 x20 x21 x22 x23 x24 x25 x26 x27 x28 x29 x30 x31 x32 x33 x34 (a : Nat) :
    (Sys.mk r x1 x2 x3 x4 x5 x6 x7 x8 x9 x10 x11 x12 x13 x14 x15 x16 x17 x18 x19 x20 x21 x22 x23 x24 x25 x26 x27 x28 x29 x30 x31 x32 x33 x34).reg a = rreg r a := rfl

@[simp] theorem mk_get (r : List (Nat × Word)) x1 x2 x3 x4 x5 x6 x7 x8 x9 x10 x11 x12 x13 x14 x15 x16 x17 x18 x19 x20 x21 x22 x23 x24 x25 x26 x27 x28 x29 x30 x31 x32 x33 x34 (f : Fld) :
    (Sys.mk r x1 x2 x3 x4 x5 x6 x7 x8 x9 x10 x11 x12 x13 x14 x15 x16 x17 x18 x19 x20 x21 x22 x23 x24 x25 x26 x27 x28 x29 x30 x31 x32 x33 x34).get f = rget r f := rfl

@[simp] theorem mk_on (r : List (Nat × Word)) x1 x2 x3 x4 x5 x6 x7 x8 x9 x10 x11 x12 x13 x14 x15 x16 x17 x18 x19 x20 x21 x22 x23 x24 x25 x26 x27 x28 x29 x30 x31 x32 x33 x34 (f : Fld) :
    (Sys.mk r x1 x2 x3 x4 x5 x6 x7 x8 x9 x10 x11 x12 x13 x14 x15 x16 x17 x18 x19 x20 x21 x22 x23 x24 x25 x26 x27 x28 x29 x30 x31 x32 x33 x34).on f = (rget r f != 0) := rfl

@[simp] theorem mk_word (r : List (Nat × Word)) x1 x2 x3 x4 x5 x6 x7 x8 x9 x10 x11 x12 x13 x14 x15 x16 x17 x18 x19 x20 x21 x22 x23 x24 x25 x26 x27 x28 x29 x30 x31 x32 x33 x34 (a : Nat) :
    (Sys.mk r x1 x2 x3 x4 x5 x6 x7 x8 x9 x10 x11 x12 x13 x14 x15 x16 x17 x18 x19 x20 x21 x22 x23 x24 x25 x26 x27 x28 x29 x30 x31 x32 x33 x34).word a = (rreg r a).toNat := rfl

@[simp] theorem mk_bit (r : List (Nat × Word)) x1 x2 x3 x4 x5 x6 x7 x8 x9 x10 x11 x12 x13 x14 x15 x16 x17 x18 x19 x20 x21 x22 x23 x24 x25 x26 x27 x28 x29 x30 x31 x32 x33 x34 (f : Fld) (k : Nat) :
    (Sys.mk r x1 x2 x3 x4 x5 x6 x7 x8 x9 x10 x11 x12 x13 x14 x15 x16 x17 x18 x19 x20 x21 x22 x23 x24 x25 x26 x27 x28 x29 x30 x31 x32 x33 x34).bit f k = (rget r f).testBit k := rfl

@[simp] theorem rreg_regs (s : Sys) (a : Nat) : rreg s.regs a = s.reg a := rfl

@[simp] theorem rget_regs (s : Sys) (f : Fld) : rget s.regs f = s.get f := rfl

/-- A bit of the mask of `[lo, lo + width)`. -/
theorem fieldMask_bit (lo width i : Nat) (hi : i < 32) :
    (fieldMask lo width).getLsbD i = (decide (lo ≤ i) && decide (i < lo + width)) := by
  simp only [fieldMask, BitVec.getLsbD_ofNat, hi, decide_true, Bool.true_and, Nat.testBit_shiftLeft, Nat.testBit_two_pow_sub_one]
  by_cases h : lo ≤ i
  · simp [h]; omega
  · simp [h]

/-- A bit of a word with a field put into it. -/
theorem putBits_bit (w : Word) (lo width v i : Nat) (hi : i < 32) :
    (putBits w lo width v).getLsbD i =
      if lo ≤ i ∧ i < lo + width then v.testBit (i - lo) else w.getLsbD i := by
  simp only [putBits, BitVec.getLsbD_or, BitVec.getLsbD_and, BitVec.getLsbD_not, fieldMask_bit lo width i hi,
    BitVec.getLsbD_shiftLeft, BitVec.getLsbD_ofNat, hi, decide_true, Bool.true_and]
  by_cases h1 : lo ≤ i
  · by_cases h2 : i < lo + width
    · have h3 : ¬ i < lo := by omega
      have h4 : i - lo < 32 := by omega
      simp [h1, h2, h3, h4]
    · simp [h1, h2]
  · simp [h1]

theorem extract_putBits_same (w : Word) (lo width v : Nat) (h : lo + width ≤ 32) :
    ((putBits w lo width v).extractLsb' lo width).toNat = v % 2 ^ width := by
  have : (putBits w lo width v).extractLsb' lo width = BitVec.ofNat width v := by
    apply BitVec.eq_of_getLsbD_eq
    intro i hi
    simp only [BitVec.getLsbD_extractLsb', hi, decide_true, Bool.true_and, BitVec.getLsbD_ofNat]
    rw [putBits_bit _ _ _ _ _ (by omega)]
    simp [hi]
  rw [this]; simp

theorem extract_putBits_disj (w : Word) (lo width v lo' width' : Nat) (h : lo + width ≤ lo' ∨ lo' + width' ≤ lo) :
    (putBits w lo width v).extractLsb' lo' width' = w.extractLsb' lo' width' := by
  apply BitVec.eq_of_getLsbD_eq
  intro i hi
  simp only [BitVec.getLsbD_extractLsb', hi, decide_true, Bool.true_and]
  by_cases h32 : lo' + i < 32
  · rw [putBits_bit _ _ _ _ _ h32, if_neg (by omega)]
  · simp [BitVec.getLsbD_of_ge _ _ (Nat.le_of_not_lt h32)]

/-- A field just given a value reads as the value modulo its width. -/
theorem put_get_same (s : Sys) (f : Fld) (v : Nat) (h : f.lo + f.width ≤ 32) : (s.put f v).get f = v % 2 ^ f.width := by
  unfold Sys.get Sys.put
  rw [setReg_reg_same]
  exact extract_putBits_same _ _ _ _ h

/-- A field of another register stays. -/
theorem put_get_ne (s : Sys) (f g : Fld) (v : Nat) (h : g.addr ≠ f.addr) : (s.put f v).get g = s.get g := by
  unfold Sys.get
  rw [put_reg_ne s f v h]

/-- A field beside it in the same register stays. -/
theorem put_get_disj (s : Sys) (f g : Fld) (v : Nat) (h : f.lo + f.width ≤ g.lo ∨ g.lo + g.width ≤ f.lo) :
    (s.put f v).get g = s.get g := by
  by_cases ha : g.addr = f.addr
  · unfold Sys.get Sys.put
    rw [ha, setReg_reg_same, extract_putBits_disj _ _ _ _ _ _ h]
  · exact put_get_ne s f g v ha

/-- What a field reads as after a field was given a value, by their places: for a goal whose two fields are written out. -/
theorem put_get (s : Sys) (f g : Fld) (v : Nat) (h : f.lo + f.width ≤ 32)
    (hd : g.addr ≠ f.addr ∨ g = f ∨ f.lo + f.width ≤ g.lo ∨ g.lo + g.width ≤ f.lo) :
    (s.put f v).get g = if g = f then v % 2 ^ f.width else s.get g := by
  split
  · subst g; exact put_get_same s f v h
  · rename_i hne
    rcases hd with hd | hd | hd
    · exact put_get_ne s f g v hd
    · exact absurd hd hne
    · exact put_get_disj s f g v hd

theorem putB_get_same (s : Sys) (f : Fld) (b : Bool) (h : f.lo + f.width ≤ 32) (hw : 0 < f.width) :
    (s.putB f b).get f = if b then 1 else 0 := by
  unfold Sys.putB
  rw [put_get_same s f _ h]
  have h2 : 1 < 2 ^ f.width := Nat.one_lt_two_pow (by omega)
  split
  · exact Nat.mod_eq_of_lt h2
  · simp

/-- A one-bit field just given a truth value reads as it. -/
theorem putB_on_same (s : Sys) (f : Fld) (b : Bool) (h : f.lo + f.width ≤ 32) (hw : 0 < f.width) : (s.putB f b).on f = b := by
  unfold Sys.on
  rw [putB_get_same s f b h hw]
  cases b <;> rfl

theorem putB_get_ne (s : Sys) (f g : Fld) (b : Bool) (h : g.addr ≠ f.addr) : (s.putB f b).get g = s.get g := put_get_ne s f g _ h

theorem putB_get_disj (s : Sys) (f g : Fld) (b : Bool) (h : f.lo + f.width ≤ g.lo ∨ g.lo + g.width ≤ f.lo) :
    (s.putB f b).get g = s.get g := put_get_disj s f g _ h

theorem setReg_get_ne (s : Sys) (a : Nat) (v : Word) (g : Fld) (h : g.addr ≠ a) : (s.setReg a v).get g = s.get g := by
  unfold Sys.get
  rw [setReg_reg_ne s v h]

theorem setWord_get_ne (s : Sys) (a v : Nat) (g : Fld) (h : g.addr ≠ a) : (s.setWord a v).get g = s.get g := setReg_get_ne s a _ g h

theorem setWord_reg_ne (s : Sys) (a v : Nat) {b : Nat} (h : b ≠ a) : (s.setWord a v).reg b = s.reg b := setReg_reg_ne s _ h

/-- A field is at most what its width holds. -/
theorem get_lt (s : Sys) (f : Fld) : s.get f < 2 ^ f.width := by
  unfold Sys.get; exact BitVec.isLt _

/-- A whole register just written. -/
theorem setWord_get_same (s : Sys) (a v lo width : Nat) (h : lo + width ≤ 32) :
    (s.setWord a v).get ⟨a, lo, width⟩ = v / 2 ^ lo % 2 ^ width := by
  unfold Sys.get Sys.setWord
  rw [setReg_reg_same]
  simp only [BitVec.extractLsb'_toNat, BitVec.toNat_ofNat, Nat.shiftRight_eq_div_pow]
  rw [← Nat.mod_mul_right_div_self, ← Nat.mod_mul_right_div_self, ← Nat.pow_add,
    Nat.mod_mod_of_dvd v (Nat.pow_dvd_pow 2 h)]

end Sys2Proof.Laws
end

