-- ==== Sys2Proof/Laws/Engine.lean ====
section
/-!
SUPPORT. The lanes and the cycle engine: what the shared operations of the logic image's instructions do, said once. `insn_go` is the
whole of an instruction that may run; `insn_overrun` and `insn_illegal` are the two ways it may not.
-/
namespace Sys2Proof.Laws
open Sys2Proof.Machine

/-! ## Lanes -/

@[simp] theorem lane_setLane (s : Sys) (n : Fin 4) (l : Lane) : (s.setLane n l).lane n = l := by
  simp [Sys.setLane, Sys.lane]

theorem lane_setLane_ne (s : Sys) {n m : Fin 4} (l : Lane) (h : m ≠ n) : (s.setLane n l).lane m = s.lane m := by
  have h' : n.val ≠ m.val := fun e => h (Fin.ext e.symm)
  simp [Sys.setLane, Sys.lane, h']

@[simp] theorem lane_modLane (s : Sys) (n : Fin 4) (f : Lane → Lane) : (s.modLane n f).lane n = f (s.lane n) := lane_setLane ..

theorem lane_modLane_ne (s : Sys) {n m : Fin 4} (f : Lane → Lane) (h : m ≠ n) : (s.modLane n f).lane m = s.lane m :=
  lane_setLane_ne s _ h

@[simp] theorem modLane_modLane (s : Sys) (n : Fin 4) (f g : Lane → Lane) :
    (s.modLane n f).modLane n g = s.modLane n fun l => g (f l) := by
  simp [Sys.modLane, Sys.setLane, Sys.lane]

@[simp] theorem modEngine_modEngine (s : Sys) (n : Fin 4) (f g : Engine → Engine) :
    (s.modEngine n f).modEngine n g = s.modEngine n fun e => g (f e) := by
  simp [Sys.modEngine]

@[simp] theorem engine_modEngine (s : Sys) (n : Fin 4) (f : Engine → Engine) :
    ((s.modEngine n f).lane n).engine = f (s.lane n).engine := by
  simp [Sys.modEngine]

theorem mem_modEngine (s : Sys) (n : Fin 4) (f : Engine → Engine) : (s.modEngine n f).mem = s.mem := rfl

/-! ## Operands -/

/-- The charge and the step of PC leave the registers. -/
@[simp] theorem w_past (s : Sys) (n : Fin 4) (c x : Nat) (r : Fin 8) : (s.modEngine n fun e => e.past c x).w n r = s.w n r := by
  unfold Sys.w
  rw [engine_modEngine]
  rfl

@[simp] theorem opB_past (s : Sys) (n : Fin 4) (c x : Nat) (o : OpR) : (s.modEngine n fun e => e.past c x).opB n o = s.opB n o := by
  simp [Sys.opB]

@[simp] theorem opK_past (s : Sys) (n : Fin 4) (c x : Nat) (o : OpM) : (s.modEngine n fun e => e.past c x).opK n o = s.opK n o := by
  simp [Sys.opK]

@[simp] theorem flags_past (s : Sys) (n : Fin 4) (c x : Nat) : (s.modEngine n fun e => e.past c x).flags n = s.flags n := by
  unfold Sys.flags
  rw [engine_modEngine]
  rfl

theorem writeAlu_past (s : Sys) (n : Fin 4) (c x : Nat) (d : Fin 8) (r : AluOut) :
    (s.modEngine n fun e => e.past c x).writeAlu n d r
      = (s.modEngine n fun e => ((e.past c x).give d r.res).setFlags r.fl, r.cls) := by
  simp only [Sys.writeAlu, Sys.setW, modEngine_modEngine]
  rfl

theorem writeD_past (s : Sys) (n : Fin 4) (c x : Nat) (d : Fin 8) (v : Nat) :
    (s.modEngine n fun e => e.past c x).writeD n d v = (s.modEngine n fun e => (e.past c x).give d v, 0) := by
  simp only [Sys.writeD, Sys.setW, modEngine_modEngine]
  rfl

/-! ## What an instruction reads of its lane

The engine's own registers are no part of memory: what is read through them stays when the engine changes. -/

@[simp] theorem lrd_modEngine (s : Sys) (n m : Fin 4) (f' : Engine → Engine) (o k : Nat) :
    (s.modEngine n f').lrd m o k = s.lrd m o k := rfl

@[simp] theorem vlen_modEngine (s : Sys) (n m : Fin 4) (f' : Engine → Engine) :
    (s.modEngine n f').vlen m = s.vlen m := rfl

@[simp] theorem logicTop_modEngine (s : Sys) (n m : Fin 4) (f' : Engine → Engine) :
    (s.modEngine n f').logicTop m = s.logicTop m := rfl

@[simp] theorem pointValue_modEngine (s : Sys) (n m : Fin 4) (f' : Engine → Engine) (k : Nat) :
    (s.modEngine n f').pointValue m k = s.pointValue m k := rfl

@[simp] theorem pointQuality_modEngine (s : Sys) (n m : Fin 4) (f' : Engine → Engine) (k : Nat) :
    (s.modEngine n f').pointQuality m k = s.pointQuality m k := rfl

@[simp] theorem pointClass_modEngine (s : Sys) (n m : Fin 4) (f' : Engine → Engine) (k : Nat) :
    (s.modEngine n f').pointClass m k = s.pointClass m k := rfl

@[simp] theorem timer_modEngine (s : Sys) (n m : Fin 4) (f' : Engine → Engine) (a : Nat) :
    (s.modEngine n f').timer m a = s.timer m a := rfl

@[simp] theorem counter_modEngine (s : Sys) (n m : Fin 4) (f' : Engine → Engine) (a : Nat) :
    (s.modEngine n f').counter m a = s.counter m a := rfl

@[simp] theorem ctxTime_modEngine (s : Sys) (n m : Fin 4) (f' : Engine → Engine) :
    (s.modEngine n f').ctxTime m = s.ctxTime m := rfl

@[simp] theorem slotUsed_modEngine (s : Sys) (n m : Fin 4) (f' : Engine → Engine) (k : Nat) :
    (s.modEngine n f').slotUsed m k = s.slotUsed m k := rfl

@[simp] theorem loopField_modEngine (s : Sys) (n m : Fin 4) (f' : Engine → Engine) (k f : Nat) :
    (s.modEngine n f').loopField m k f = s.loopField m k f := rfl

@[simp] theorem recOk_modEngine (s : Sys) (n m : Fin 4) (f' : Engine → Engine) (k r : Nat) :
    (s.modEngine n f').recOk m k r = s.recOk m k r := rfl

@[simp] theorem master_modEngine (s : Sys) (n m : Fin 4) (f' : Engine → Engine) (k : Nat) :
    (s.modEngine n f').master m k = s.master m k := rfl

@[simp] theorem ctxItem_past (s : Sys) (n : Fin 4) (c x k : Nat) : (s.modEngine n fun e => e.past c x).ctxItem n k = s.ctxItem n k := by
  unfold Sys.ctxItem
  split <;> first | rfl | (rw [engine_modEngine]; rfl)

theorem noteWritten_modEngine (r : Reintegration) (s : Sys) (q : Nat × Nat) (n : Fin 4) (f : Engine → Engine) :
    Sys.noteWritten r (s.modEngine n f) q = (Sys.noteWritten r s q).modEngine n f := by
  unfold Sys.noteWritten
  dsimp only
  split <;> rfl

theorem lsync_modEngine (s : Sys) (n m : Fin 4) (f : Engine → Engine) (o k : Nat) :
    (s.modEngine n f).lsync m o k = (s.lsync m o k).modEngine n f := by
  unfold Sys.lsync
  have h : (s.modEngine n f).vot = s.vot := rfl
  rw [h]
  cases s.vot.reint with
  | none => rfl
  | some r =>
    dsimp only
    split
    · generalize statePart o k = qs
      induction qs generalizing s with
      | nil => rfl
      | cons q qs ih => rw [List.foldl_cons, List.foldl_cons, noteWritten_modEngine, ih _ rfl]
    · rfl

/-- A store into a lane and a change of an engine do not meet. -/
theorem lwr_modEngine (s : Sys) (n m : Fin 4) (f : Engine → Engine) (o k v : Nat) :
    (s.modEngine n f).lwr m o k v = (s.lwr m o k v).modEngine n f := lsync_modEngine (s.wr (laneBase m + o) k v) n m f o k

theorem setTimer_modEngine (s : Sys) (n m : Fin 4) (f : Engine → Engine) (a : Nat) (r : TimerRec) :
    (s.modEngine n f).setTimer m a r = (s.setTimer m a r).modEngine n f := by
  simp only [Sys.setTimer, lwr_modEngine]

theorem setCounter_modEngine (s : Sys) (n m : Fin 4) (f : Engine → Engine) (a : Nat) (r : CounterRec) :
    (s.modEngine n f).setCounter m a r = (s.setCounter m a r).modEngine n f := by
  simp only [Sys.setCounter, lwr_modEngine]

theorem setMaster_modEngine (s : Sys) (n m : Fin 4) (f : Engine → Engine) (k v : Nat) :
    (s.modEngine n f).setMaster m k v = (s.setMaster m k v).modEngine n f := by
  simp only [Sys.setMaster, lwr_modEngine]

/-- The parts of the state region that a write touches lie within the write. -/
theorem statePart_within {o k : Nat} {q : Nat × Nat} (h : q ∈ statePart o k) : o ≤ q.1 ∧ q.1 + q.2 ≤ o + k := by
  obtain ⟨h1, h2⟩ := List.mem_filter.mp h
  obtain ⟨r, -, rfl⟩ := List.mem_map.mp h1
  have h3 : min (o + k) (r.1 + r.2) - max o r.1 ≠ 0 := by simpa using h2
  change o ≤ max o r.1 ∧ max o r.1 + (min (o + k) (r.1 + r.2) - max o r.1) ≤ o + k
  omega

/-- What a write of a donor brings to its target lies within the bytes written. -/
theorem lsync_memByte_out (s : Sys) (n : Fin 4) (o k a : Nat)
    (h : ∀ r, s.vot.reint = some r → a < laneBase r.target + o ∨ laneBase r.target + o + k ≤ a) :
    memByte (s.lsync n o k).mem a = memByte s.mem a := by
  unfold Sys.lsync
  cases hr : s.vot.reint with
  | none => rfl
  | some r =>
    have h' := h r hr
    dsimp only
    split
    · have hin : ∀ q ∈ statePart o k, o ≤ q.1 ∧ q.1 + q.2 ≤ o + k := fun q hq => statePart_within hq
      clear h hr
      generalize statePart o k = qs at hin
      induction qs generalizing s with
      | nil => rfl
      | cons q qs ih =>
        have hq := hin q (List.mem_cons_self ..)
        rw [List.foldl_cons, ih _ fun q' h1 => hin q' (List.mem_cons_of_mem _ h1)]
        unfold Sys.noteWritten
        dsimp only
        split
        · rw [memByte_memCopy, if_neg (by omega)]
        · rfl
    · rfl

/-- What a lane's store leaves of memory: the bytes stored, and where the lane is the donor of a reintegration whose writes are mirrored
the same bytes of the target, are all that change (R89). -/
theorem lwr_memByte_out (s : Sys) (n : Fin 4) (o k v a : Nat) (h1 : a < laneBase n + o ∨ laneBase n + o + k ≤ a)
    (h2 : ∀ r, s.vot.reint = some r → a < laneBase r.target + o ∨ laneBase r.target + o + k ≤ a) :
    memByte (s.lwr n o k v).mem a = memByte s.mem a :=
  (lsync_memByte_out (s.wr (laneBase n + o) k v) n o k a h2).trans (memByte_memWrite_out h1)

/-! ## One instruction -/

/-- An instruction that may run: it is charged, PC passes over it, its body acts, and the class the body answers is raised. -/
theorem insn_go (s : Sys) (n : Fin 4) (cost ext : Nat) (legal : Bool) (body : Sys → Sys × Nat) (h : s.canRun n cost ext)
    (hl : legal = true) :
    s.insn n cost ext legal body =
      if (body (s.modEngine n fun e => e.past cost ext)).2 = 0 then (body (s.modEngine n fun e => e.past cost ext)).1
      else (body (s.modEngine n fun e => e.past cost ext)).1.raise n (body (s.modEngine n fun e => e.past cost ext)).2
        (4 * (s.lane n).engine.pc) := by
  obtain ⟨h1, h2⟩ := h
  have h0 : ¬ (s.lane n).engine.clocks + cost > s.prog.allowance := by omega
  have h3 : (ext != 0 && decide (s.logicTop n ≤ (s.lane n).engine.pc + ext)) = false := by
    rcases h2 with h2 | h2
    · simp [h2]
    · simp; omega
  unfold Sys.insn
  simp only [h0, if_false, hl, h3]
  simp only [Bool.not_true, Bool.or_self, Bool.false_eq_true, if_false, modEngine_modEngine]
  rfl

/-- An instruction whose charge would pass the program allowance is not charged: class 4. -/
theorem insn_overrun (s : Sys) (n : Fin 4) (cost ext : Nat) (legal : Bool) (body : Sys → Sys × Nat)
    (h : s.prog.allowance < (s.lane n).engine.clocks + cost) :
    s.insn n cost ext legal body = s.raise n 4 (4 * (s.lane n).engine.pc) := by
  unfold Sys.insn
  simp [h]

/-- An instruction of no legal form is charged and raises class 5. -/
theorem insn_illegal (s : Sys) (n : Fin 4) (cost ext : Nat) (body : Sys → Sys × Nat)
    (h : (s.lane n).engine.clocks + cost ≤ s.prog.allowance) :
    s.insn n cost ext false body =
      (s.modEngine n fun e => { e with clocks := e.clocks + cost }).raise n 5 (4 * (s.lane n).engine.pc) := by
  have h0 : ¬ (s.lane n).engine.clocks + cost > s.prog.allowance := by omega
  unfold Sys.insn
  simp [h0]

end Sys2Proof.Laws
end

