-- ==== Sys2Proof/Laws/Frame.lean ====
section
/-!
SUPPORT. Frames: how `SysKeeps` composes, and what each shared operation keeps.
-/
namespace Sys2Proof.Laws
open Sys2Proof.Machine

variable {ps qs : List Part} {w v : Nat → Bool} {s t u : Sys}

theorem Part.same_refl (p : Part) (s : Sys) : p.same s s := by cases p <;> rfl

theorem Part.same_trans {p : Part} (h1 : p.same s t) (h2 : p.same t u) : p.same s u := by
  cases p <;> exact Eq.trans h2 h1

theorem keeps_refl : SysKeeps ps w s s := ⟨fun p _ => Part.same_refl p s, fun _ _ => rfl⟩

theorem keeps_trans (h1 : SysKeeps ps w s t) (h2 : SysKeeps ps w t u) : SysKeeps ps w s u :=
  ⟨fun p hp => Part.same_trans (h1.1 p hp) (h2.1 p hp), fun a ha => (h2.2 a ha).trans (h1.2 a ha)⟩

/-- A frame may be widened. -/
theorem keeps_mono (h : SysKeeps ps w s t) (hp : ∀ p, p ∈ ps → p ∈ qs) (hw : ∀ a, w a = true → v a = true) : SysKeeps qs v s t := by
  refine ⟨fun p hq => h.1 p fun hm => hq (hp p hm), fun a ha => h.2 a ?_⟩
  cases hb : w a with
  | false => rfl
  | true => rw [hw a hb] at ha; exact absurd ha (by decide)

/-- A command that changes the part alone keeps the rest of the state. -/
theorem run_keeps {x : State} (f : Sys → Sys) (h : SysKeeps ps w x.sys (f x.sys)) : Keeps ps w x { x with sys := f x.sys } := ⟨rfl, rfl, h⟩

theorem keeps_ite {c : Prop} [Decidable c] (h1 : c → SysKeeps ps w s t) (h2 : ¬c → SysKeeps ps w s u) :
    SysKeeps ps w s (if c then t else u) := by
  split
  · exact h1 ‹_›
  · exact h2 ‹_›

/-! ## The shared operations, at the end of a chain -/

theorem keeps_setReg {a : Nat} {x : Word} (h : w a = true) (k : SysKeeps ps w s t) : SysKeeps ps w s (t.setReg a x) := by
  refine keeps_trans k ⟨fun p _ => by cases p <;> rfl, fun b hb => setReg_reg_ne _ _ ?_⟩
  intro e
  rw [e, h] at hb
  exact absurd hb (by decide)

theorem keeps_put {f : Fld} {x : Nat} (h : w f.addr = true) (k : SysKeeps ps w s t) : SysKeeps ps w s (t.put f x) := keeps_setReg h k

theorem keeps_putB {f : Fld} {b : Bool} (h : w f.addr = true) (k : SysKeeps ps w s t) : SysKeeps ps w s (t.putB f b) := keeps_put h k

theorem keeps_putBit {f : Fld} {i : Nat} {b : Bool} (h : w f.addr = true) (k : SysKeeps ps w s t) : SysKeeps ps w s (t.putBit f i b) :=
  keeps_putB (f := ⟨f.addr, f.lo + i, 1⟩) h k

theorem keeps_incSat {f : Fld} (h : w f.addr = true) (k : SysKeeps ps w s t) : SysKeeps ps w s (t.incSat f) := keeps_put h k

theorem keeps_incWrap {f : Fld} (h : w f.addr = true) (k : SysKeeps ps w s t) : SysKeeps ps w s (t.incWrap f) := keeps_put h k

theorem keeps_addSat {f : Fld} {x : Nat} (h : w f.addr = true) (k : SysKeeps ps w s t) : SysKeeps ps w s (t.addSat f x) := keeps_put h k

theorem keeps_setWord {a x : Nat} (h : w a = true) (k : SysKeeps ps w s t) : SysKeeps ps w s (t.setWord a x) := keeps_setReg h k

/-- An operation that leaves the registers and every component outside `ps`. -/
theorem keeps_of_regs {f : Sys → Sys} (hr : (f t).regs = t.regs) (hp : ∀ p, p ∉ ps → p.same t (f t)) (k : SysKeeps ps w s t) :
    SysKeeps ps w s (f t) :=
  keeps_trans k ⟨hp, fun a _ => by unfold Sys.reg; rw [hr]⟩

theorem keeps_postBy {q c l d : Nat} (h : Part.posts ∈ ps) (k : SysKeeps ps w s t) : SysKeeps ps w s (t.postBy q c l d) := by
  refine keeps_of_regs (f := fun x => x.postBy q c l d) (postBy_regs ..) (fun p hp => ?_) k
  cases p <;> first | exact absurd h hp | exact (by simp [Part.same])

theorem keeps_post {c l : Nat} {vs : List (Nat × Nat)} (h : Part.posts ∈ ps) (k : SysKeeps ps w s t) : SysKeeps ps w s (t.post c l vs) :=
  keeps_postBy h k

theorem keeps_note {c : Nat} (h : Part.posts ∈ ps) (k : SysKeeps ps w s t) : SysKeeps ps w s (t.note c) := keeps_postBy h k

theorem keeps_answer {v : Nat} (h : Part.response ∈ ps) (k : SysKeeps ps w s t) : SysKeeps ps w s (t.answer v) := by
  refine keeps_of_regs (f := fun x => x.answer v) rfl (fun p hp => ?_) k
  cases p <;> first | exact absurd h hp | rfl

theorem keeps_wr {a n v : Nat} (h : Part.memory ∈ ps) (k : SysKeeps ps w s t) : SysKeeps ps w s (t.wr a n v) := by
  refine keeps_of_regs (f := fun x => x.wr a n v) rfl (fun p hp => ?_) k
  cases p <;> first | exact absurd h hp | rfl

theorem keeps_modLane {n : Fin 4} {g : Lane → Lane} (h : Part.lanes ∈ ps) (k : SysKeeps ps w s t) : SysKeeps ps w s (t.modLane n g) := by
  refine keeps_of_regs (f := fun x => x.modLane n g) rfl (fun p hp => ?_) k
  cases p <;> first | exact absurd h hp | rfl

/-- Time passes: TIME, the clock counts and the RTC's counters are all that change. -/
theorem keeps_elapse {n : Nat} (h1 : Part.ang ∈ ps) (h2 : Part.fclk ∈ ps) (h3 : Part.lfxo ∈ ps) (h4 : Part.rtc ∈ ps)
    (k : SysKeeps ps w s t) : SysKeeps ps w s (t.elapse n) := by
  refine keeps_of_regs (f := fun x => x.elapse n) rfl (fun p hp => ?_) k
  cases p <;> first | exact absurd h1 hp | exact absurd h2 hp | exact absurd h3 hp | exact absurd h4 hp | rfl

theorem keeps_reach {n : Nat} (h1 : Part.ang ∈ ps) (h2 : Part.fclk ∈ ps) (h3 : Part.lfxo ∈ ps) (h4 : Part.rtc ∈ ps)
    (k : SysKeeps ps w s t) : SysKeeps ps w s (t.reach n) := by
  unfold Sys.reach
  split
  · exact k
  · exact keeps_elapse h1 h2 h3 h4 k

end Sys2Proof.Laws
end

