-- ==== Sys2Proof/Tests/Slice0.lean ====
section
/-!
SUPPORT. The package's own tests: an ill-formed term for each check of WellFormed.lean, witnesses that the hypotheses of the statements are met
together (one theorem for each statement that has some, with the boundary values of its clauses), and small tests of single commands against
values taken from spec/.
-/
namespace Sys2Proof.Tests
open Sys2Proof Sys2Proof.Machine

-- One theorem after the other: the kernel evaluates most of these, and side by side they take much memory.
set_option Elab.async false

/-- The part at reset. -/
abbrev y0 : Sys := State.reset.sys
/-- The part with every domain out of reset and the DRAM running. -/
def up : Sys := (y0.setWord PWR_DOM 0x7FFF).put MEM_STAT_DRAM dramRun
/-- A state of a part. -/
def st (y : Sys) : State := { State.reset with sys := y }
/-- What a command leaves of a part. -/
def after (i : Instr) (y : Sys) : Sys :=
  match exec i (st y) with
  | .next t => t.sys
  | _ => y

/-! ## The checks of WellFormed.lean -/

theorem test_wf_word32 : (Instr.pciDwbWrite .mgmt 0x100000000).wellFormed = false ∧ (Instr.pciDwbWrite .mgmt 0xFFFFFFFF).wellFormed = true := by decide
theorem test_wf_size : (Instr.rcRegisterRead .mgmt 0 0).wellFormed = false ∧ (Instr.rcRegisterRead .mgmt 0 9).wellFormed = false
    ∧ (Instr.rcRegisterRead .mgmt 0 8).wellFormed = true := by decide
theorem test_wf_fits : (Instr.registerWrite .mgmt 0 1 256).wellFormed = false ∧ (Instr.registerWrite .mgmt 0 1 255).wellFormed = true := by decide
theorem test_wf_bytes : (Instr.netFrameReceived 0 ⟨[256], 0⟩ false false 0).wellFormed = false ∧ (Instr.netFrameReceived 0 ⟨[255], 0⟩ false false 0).wellFormed = true
    ∧ (Instr.netFrameReceived 0 ⟨[], 0⟩ false false 32769).wellFormed = false := by decide
theorem test_wf_poisonedByte : (Instr.hostDramWindowAccess true 0 0 [257]).wellFormed = false ∧ (Instr.hostDramWindowAccess true 0 0 [256]).wellFormed = true
    ∧ (Instr.hostDramWindowAccess true 0 4097 []).wellFormed = false := by decide
theorem test_wf_short16 : (Instr.rtcTempMeasure 32768).wellFormed = false ∧ (Instr.rtcTempMeasure (-32769)).wellFormed = false
    ∧ (Instr.rtcTempMeasure (-32768)).wellFormed = true := by decide
theorem test_wf_cause : (Instr.cellFailed 0 4).wellFormed = false ∧ (Instr.cellFailed 0 0).wellFormed = false ∧ (Instr.cellFailed 200 1).wellFormed = false
    ∧ (Instr.canControllerFailed 0 4).wellFormed = true ∧ (Instr.canControllerFailed 0 5).wellFormed = false := by decide
theorem test_wf_block : (Instr.sampleBlock []).wellFormed = false ∧ (Instr.sampleBlock (List.replicate 16 (List.replicate 53 0))).wellFormed = false
    ∧ (Instr.sampleBlock (List.replicate 16 (List.replicate 54 0x1000000))).wellFormed = false
    ∧ (Instr.sampleBlock (List.replicate 16 (List.replicate 54 0xFFFFFF))).wellFormed = true := by decide +kernel
theorem test_wf_conversions : (Instr.channelSample [(192, [])]).wellFormed = false ∧ (Instr.channelSample [(0, [65536])]).wellFormed = false
    ∧ (Instr.channelSample [(191, [65535])]).wellFormed = true := by decide
theorem test_wf_fault : (Instr.scrubWord 0 0 (List.replicate 37 0)).wellFormed = false ∧ (Instr.scrubWord 0 0 [256]).wellFormed = false
    ∧ (Instr.scrubWord 7 0 []).wellFormed = false ∧ (Instr.scrubWord 6 0 (List.replicate 36 255)).wellFormed = true := by decide
theorem test_wf_opR : (⟨4, 0, 0, 0, 0, 0⟩ : OpR).ok = false ∧ (⟨0, 0, 0, 4, 0, 0⟩ : OpR).ok = false ∧ (⟨0, 0, 0, 0, 65536, 0⟩ : OpR).ok = false
    ∧ (⟨0, 0, 0, 0, 0, 2 ^ 64⟩ : OpR).ok = false ∧ (⟨3, 7, 7, 3, 65535, 2 ^ 64 - 1⟩ : OpR).ok = true := by decide
theorem test_wf_opMK : (⟨4, 0, 0, true, 0⟩ : OpM).ok = false ∧ (⟨0, 0, 0, true, 131072⟩ : OpM).ok = false ∧ (⟨4, 0, 0, true, 0⟩ : OpK).ok = false
    ∧ (⟨0, 0, 0, false, 131072⟩ : OpK).ok = false ∧ (⟨3, 7, 7, true, 131071⟩ : OpK).ok = true := by decide
theorem test_wf_opJZ : (⟨16, 0, false, 0⟩ : OpJ).ok = false ∧ (⟨0, 0, false, 262144⟩ : OpJ).ok = false ∧ (⟨2 ^ 26⟩ : OpZ).ok = false
    ∧ (⟨15, 7, true, 262143⟩ : OpJ).ok = true := by decide
theorem test_wf_hitilInput : (⟨9, 0, 0, 0, 0, 0, 0, 0, [], 0⟩ : HitilInput).ok = false ∧ (⟨8, 0, 0, 0, 0, 0, 0, 256, [], 0⟩ : HitilInput).ok = false
    ∧ (⟨8, 0, 0, 0, 0, 0, 0, 0, [2 ^ 32], 0⟩ : HitilInput).ok = false ∧ (⟨8, 2 ^ 48, 255, 65535, 65535, 65535, 2 ^ 64 - 1, 255, [2 ^ 32 - 1], 2 ^ 128 - 1⟩ : HitilInput).ok = true := by decide
theorem test_wf_joinInput : (⟨9, 0, 1, 0, 0, 16, 0, [], 0⟩ : JoinInput).ok = false ∧ (⟨8, 0, 1, 0, 0, 16, 0, [256], 0⟩ : JoinInput).ok = false
    ∧ (⟨8, 0, 1, 0, 0, 16, 0, [], 2 ^ 128⟩ : JoinInput).ok = false ∧ (⟨8, 0, 1, 1279, 0, 16, 0, [255], 0⟩ : JoinInput).ok = true := by decide
theorem test_wf_canInput : (⟨0x800, false, false, 0, false, false, false, [], true, true, 0⟩ : CanInput).ok = false
    ∧ (⟨0x20000000, true, false, 0, false, false, false, [], true, true, 0⟩ : CanInput).ok = false
    ∧ (⟨0, false, false, 16, false, false, false, [], true, true, 0⟩ : CanInput).ok = false
    ∧ (⟨0, false, false, 15, true, false, false, List.replicate 65 0, true, true, 0⟩ : CanInput).ok = false
    ∧ (⟨0x1FFFFFFF, true, false, 15, true, true, true, List.replicate 64 255, true, true, 0⟩ : CanInput).ok = true := by decide
theorem test_wf_findings : (⟨[0, 0, 0, 0], [], []⟩ : ClockFindings).ok = false ∧ (⟨[], [5], []⟩ : ClockFindings).ok = false ∧ (⟨[], [], [5]⟩ : ClockFindings).ok = false
    ∧ (⟨⟨[], [], []⟩, true, [258048], [], [], [], []⟩ : StartFindings).ok = false ∧ (⟨⟨[], [], []⟩, true, [], [4096], [], [], []⟩ : StartFindings).ok = false
    ∧ (⟨⟨[], [], []⟩, true, [], [], [32768], [], []⟩ : StartFindings).ok = false ∧ (⟨⟨[], [], []⟩, true, [], [], [], [200], []⟩ : StartFindings).ok = false
    ∧ (⟨⟨[], [], []⟩, true, [], [], [], [], [9]⟩ : StartFindings).ok = false
    ∧ (⟨⟨[1, 2, 3], [4], [4]⟩, false, [258047], [4095], [32767], [199], [8]⟩ : StartFindings).ok = true := by decide
theorem test_wf_bounds : (Instr.laneWindowAccess true 0 0x1000000 1 0).wellFormed = false ∧ (Instr.portalRead 0 0x100000 1).wellFormed = false
    ∧ (Instr.refchWrite 8).wellFormed = false ∧ (Instr.metTrimWrite 78 0).wellFormed = false ∧ (Instr.metTrimWrite 0 0x20000).wellFormed = false
    ∧ (Instr.outputApply 0x400000).wellFormed = false ∧ (Instr.pinEdge 192 true 0).wellFormed = false ∧ (Instr.daliBackwardFrame 0 256 false).wellFormed = false
    ∧ (Instr.bankSupplyLost 0 65536).wellFormed = false ∧ (Instr.admitStation 1280).wellFormed = false ∧ (Instr.canBusError 0 ⟨7, .frame⟩ false false).wellFormed = false
    ∧ (Instr.canModeWrite .mgmt 0 4).wellFormed = false ∧ (Instr.linkUp 0 128).wellFormed = false ∧ (Instr.mdioRead .mgmt 0 32).wellFormed = false
    ∧ (Instr.arbitration [32]).wellFormed = false ∧ (Instr.pageRetired 0x40000 []).wellFormed = false ∧ (Instr.pageRetired 0 [128]).wellFormed = false
    ∧ (Instr.rowRepairDone 0 8192 false).wellFormed = false ∧ (Instr.sectorReplaced 3840 []).wellFormed = false := by decide
theorem test_wf_bounds2 : (Instr.freqMeterGo 8 0).wellFormed = false ∧ (Instr.freqMeterGo 0 65536).wellFormed = false ∧ (Instr.fuseBurn 64 0).wellFormed = false
    ∧ (Instr.derive 32 0 0).wellFormed = false ∧ (Instr.derive 0 0 16).wellFormed = false ∧ (Instr.ecdh 0 16).wellFormed = false
    ∧ (Instr.bindingExpiry 0 0).wellFormed = false ∧ (Instr.bindingExpiry 1 16).wellFormed = false ∧ (Instr.bindingExpiry 2 8).wellFormed = false
    ∧ (Instr.bindingExpiry 1 15).wellFormed = true ∧ (Instr.watchdogKick 65536).wellFormed = false ∧ (Instr.sensorSample (List.replicate 12 0)).wellFormed = false
    ∧ (Instr.mdioReadDone 0 65536).wellFormed = false ∧ (Instr.cellMeasurement 65536).wellFormed = false := by decide

/-! ## The queue and the accesses -/

theorem test_step_front : step { State.reset with pending := [.watchdogKick 0, .mrst] } = exec (.watchdogKick 0) { State.reset with pending := [.mrst] } := rfl
theorem witness_BlownFusesStayBlown : (∃ t, step State.reset = .next t) ∧ Reaches State.reset State.reset := ⟨⟨_, rfl⟩, .here⟩
theorem witness_OnlyBurnsTouchFuses : (∀ r, Instr.brownOut ≠ .fuseBurnDone r) ∧ (∀ w, Instr.brownOut ≠ .owner w) ∧ Instr.brownOut ≠ .larderCopyDone
    ∧ Instr.brownOut ≠ .mailboxCommandDone ∧ (∀ w a n v, Instr.brownOut ≠ .registerWrite w a n v) ∧ (∀ w a v, Instr.brownOut ≠ .hostBlockedAccess w a v)
    ∧ (∀ w x a v, Instr.brownOut ≠ .unmappedAccess w x a v) ∧ ∃ t, exec .brownOut State.reset = .next t := by
  refine ⟨nofun, nofun, nofun, nofun, nofun, nofun, nofun, _, rfl⟩
theorem witness_RegisterWriteByAccessType : (regAt ANG_OFS).isSome = true ∧ up.peerUp (regDomain ANG_OFS) = true ∧ up.domUp 0 = true ∧ 2 ^ 32 - 1 < 2 ^ 32
    ∧ up.locked ANG_OFS = false := by decide +kernel
/-- A lock with a changed RWL bit, and one without. -/
theorem witness_RegisterWriteByAccessType_locked : (up.put ANG_CTL_LOCK 1).locked ANG_OFS = true
    ∧ ((regAt ANG_OFS).map fun d => d.rwl.testBit 0) = some true ∧ ((up.put ANG_CTL_LOCK 1).reg ANG_OFS).getLsbD 0 ≠ (1 : Nat).testBit 0 := by decide +kernel
theorem witness_RegisterWriteByAccessType_rc : ∀ a ∈ [EVR_RLOST, EVR_LLOST, MEM_DCE, MEM_DUE, MEM_LUE, NET_RUNT 0, NET_FILT 1, CAN_RXDROP 3, LOOP_EVLOST],
    up.peerUp (regDomain a) = true := by decide +kernel
theorem witness_AccessesRefused : (inBlocks 0x40000001 = true ∧ 0x40000001 % 4 ≠ 0) ∧ (inBlocks 0x40FFFFFC = true ∧ (2 : Nat) ≠ 4)
    ∧ (0x40000 % 4 = 0 ∧ 0x0FFFFFFC < 0x10000000 ∧ 0x41000000 < 0x50000000)
    ∧ (KEY_CTL % 4 = 0 ∧ (inBlock 2 KEY_CTL || inBlock 6 KEY_CTL || inBlock 7 KEY_CTL) = true ∧ (regAt KEY_CTL).isSome = true)
    ∧ (SYS_ID % 4 = 0 ∧ inBlocks SYS_ID = true ∧ blockMapped (regBlock SYS_ID) = true ∧ (regAt SYS_ID).map (·.host) = some .read ∧ chReserved SYS_ID = false)
    ∧ (0x40180000 % 4 = 0 ∧ inBlocks 0x40180000 = true ∧ 0x18 ≤ regBlock 0x40180000 ∧ regBlock 0x40000000 = 0)
    ∧ (0x400CFFFC % 4 = 0 ∧ inBlocks 0x400CFFFC = true ∧ blockHost (regBlock 0x400CFFFC) = .read ∧ regAt 0x400CFFFC = none) := by decide +kernel
theorem witness_LaneWindow : 0x3FFFFC < 0x800000 ∧ 0x3FFFFC % 4 = 0 ∧ up.laneState 3 ≠ laneRetired ∧ up.peerUp (2 + 3) = true ∧ up.laneState 3 ∉ [laneFinal, laneShadow, laneVoting]
    ∧ (up.put (VOT_LSTAT_STATE 3) laneShadow).laneState 3 ∈ [laneFinal, laneShadow, laneVoting] ∧ (up.put (VOT_LSTAT_STATE 3) laneVoting).laneState 3 = laneVoting
    ∧ (up.put (VOT_LSTAT_STATE 0) laneRetired).laneState 0 = laneRetired ∧ (up.putBit PWR_DOM_UP 5 false).peerUp (2 + 3) = false
    ∧ ¬ ((3 : Nat) = 1 ∨ (3 : Nat) = 2 ∨ (3 : Nat) = 4) ∧ 0x800000 ≤ 0xFFFFFC ∧ 0xFFFFFC % 4 = 0 := by decide +kernel
theorem witness_DramWindowClosed : up.on PCI_DWB_EN = false ∧ 0x3FFFFFC + 4 ≤ 0x4000000 ∧ 0x3FFFFFF + [255].length ≤ 0x4000000 := by decide +kernel
/-- The first and the last base that the window takes, and the two next to them. -/
theorem witness_DramWindow : up.peerUp 14 = true ∧ up.domUp 0 = true ∧ (0x84000001 / 2 ^ 26 = 0x21 ∧ 0xAC000001 / 2 ^ 26 = 0x2B ∧ 0x80000001 / 2 ^ 26 < 0x21 ∧ 0x2B < 0xB0000001 / 2 ^ 26)
    ∧ (up.put PCI_DWB_EN 1).on PCI_DWB_EN = true ∧ (up.put PCI_DWB_EN 1).dramGap = none ∧ (up.put PCI_DWB_EN 1).mi.poison = []
    ∧ 0x3FFFFE0 + 32 ≤ 0x4000000 ∧ 0x3FFFFE0 % 32 + (List.replicate 32 7).length ≤ 32 ∧ 0x4000000 < 0x3FFFFFF + 2
    ∧ (let y := (up.put PCI_DWB_EN 1).put PCI_DWB_BASE 0x21
      ({ y with mi := { y.mi with poison := [0x84000020] } } : Sys).mi.poison.contains ((y.get PCI_DWB_BASE * 2 ^ 26 + 0x22) / 32 * 32) = true)
    ∧ ((y0.put PCI_DWB_EN 1).dramGap = some 9 ∧ ((y0.put PCI_DWB_EN 1).setWord PWR_DOM 0x7FFF).dramGap = some 10) := by decide +kernel

/-- A portal bound to a locker, for writing. -/
def portal (locker : Nat) : Sys := ((up.put (LCK_PBIND_VALID 15) 1).put (LCK_PBIND_WRITE 15) 1).put (LCK_PBIND_LOCKER 15) locker
theorem witness_Portals : 0xFFFF8 < 2 ^ 20 ∧ 15 * 2 ^ 20 + 0xFFFF8 + 8 ≤ 2 ^ 24 ∧ ¬ (15 * 2 ^ 20 + 0xFFFFC + 8 ≤ 2 ^ 24) ∧ (portal 0).domUp 0 = true
    ∧ (portal 0).dramGap = none ∧ y0.dramGap = some 9
    ∧ ((portal 0).on (LCK_PBIND_VALID 15) = true ∧ (portal 0).get (LCK_PBIND_LOCKER 15) = 0 ∧ (portal 0).on (LCK_PBIND_WRITE 15) = true
      ∧ (portal 0).lockerWrites 0 = true ∧ (portal 0).chg.queue.length < 4096 ∧ 0xFFFF8 % 8 = 0)
    ∧ ((portal 1023).get (LCK_PBIND_LOCKER 15) = 1023 ∧ (portal 1023).rd (0x80000000 + 32 * 131071 + 6) 2 % 1024 ≠ 1023)
    ∧ (portal 0).on (LCK_PBIND_WRITE 14) = false ∧ (portal 0).on (LCK_PBIND_VALID 14) = false
    ∧ (∃ g ∈ ({ portal 0 with mi := { (portal 0).mi with poison := [0x803FFFE0] } } : Sys).mi.poison, ¬ (g + 32 ≤ 0x80000000 + 32 * 131071 ∨ 0x80000000 + 32 * 131071 + 32 ≤ g)) := by
  decide +kernel
/-- A queue with no room. -/
theorem witness_Portals_full : 4096 ≤ ({ portal 0 with chg := { (portal 0).chg with queue := List.replicate 4096 ⟨0, 0, 1, 0, false, 1, 0⟩ } } : Sys).chg.queue.length := by
  decide +kernel

/-! ## The logic instructions -/

/-- A lane that may charge exactly `cost` more. -/
def eng (cost : Nat) : Sys := { up with prog := { up.prog with allowance := cost } }
/-- A lane's engine given W registers. -/
def withW (y : Sys) (a b : Nat) : Sys :=
  y.modEngine 0 fun e => { e with w := (e.w.set 1 (BitVec.ofNat 64 a)).set 2 (BitVec.ofNat 64 b) }
/-- W0 := W1 op W2 of a type, and W0 := op W1. -/
def two (t : Nat) : OpR := ⟨t, 0, 1, 0, 2, 0⟩
def one (t : Nat) : OpR := ⟨t, 0, 1, 0, 0, 0⟩
/-- The same with a long immediate. -/
def long (t v : Nat) : OpR := ⟨t, 0, 1, 3, 0, v⟩
/-- Lane 0 with a logic image of a length in bytes, and a variable store of 256 bytes. -/
def imaged (y : Sys) (len : Nat) : Sys := (y.lwr 0 (logicBase + 4) 4 len).lwr 0 (logicBase + 8) 4 256

theorem witness_IntegerArithmetic : ((two 0).twoSource = true ∧ (one 1).oneSource = true ∧ (two 3).twoSource = true ∧ (long 3 5).twoSource = true)
    ∧ ((eng 1).canRun 0 (1 + (two 0).ext) (two 0).ext ∧ (eng 4).canRun 0 (4 + (two 3).ext) (two 3).ext ∧ (eng 2).canRun 0 (1 + (two 1).t + (two 1).ext) (two 1).ext
      ∧ (eng 1).canRun 0 1 0) ∧ (imaged (eng 3) 12).canRun 0 (1 + (long 3 5).ext) (long 3 5).ext := by
  unfold Sys.canRun; decide +kernel
theorem witness_IntegerDivision : (two 1).twoSource = true ∧ (withW (eng 18) 7 (2 ^ 32 - 1)).opB 0 (two 1) % 2 ^ typeWidth 1 ≠ 0
    ∧ (withW (eng 18) 7 (2 ^ 32 - 1)).canRun 0 18 0 ∧ (withW (eng 34) 7 1).opB 0 (two 3) % 2 ^ typeWidth 3 ≠ 0 ∧ (withW (eng 34) 7 1).canRun 0 34 0 := by
  unfold Sys.canRun; decide +kernel
theorem witness_DivisionByZero : (two 0).twoSource = true ∧ (withW (eng 10) 7 65536).opB 0 (two 0) % 2 ^ typeWidth 0 = 0 ∧ (withW (eng 10) 7 65536).canRun 0 10 0 := by
  unfold Sys.canRun; decide +kernel
theorem witness_IntegerSelection : (two 1).twoSource = true ∧ (two 1).d = 0 ∧ (one 1).oneSource = true ∧ (eng 2).canRun 0 (2 + (two 1).ext) (two 1).ext
    ∧ (eng 1).canRun 0 (1 + (two 3).ext) (two 3).ext ∧ (eng 1).canRun 0 1 0 := by
  unfold Sys.canRun; decide +kernel
theorem witness_RealArithmetic : (two 2).t = 2 ∧ (two 2).twoSource = true ∧ (one 2).oneSource = true ∧ (eng 3).canRun 0 (3 + (two 2).ext) (two 2).ext
    ∧ (eng 14).canRun 0 (14 + (two 2).ext) (two 2).ext ∧ (eng 16).canRun 0 16 0 := by
  unfold Sys.canRun; decide +kernel
theorem witness_LogicShiftsBits : (two 1).twoSource = true ∧ (one 1).oneSource = true ∧ (withW (eng 1) 1 31).canRun 0 (1 + (two 1).ext) (two 1).ext
    ∧ (withW (eng 1) 1 31).opB 0 (two 1) % 2 ^ typeWidth 1 < typeWidth 1 ∧ typeWidth 1 ≤ (withW (eng 1) 1 32).opB 0 (two 1) % 2 ^ typeWidth 1 := by
  unfold Sys.canRun; decide +kernel
theorem witness_LoadsMovesConversions : (⟨1, 0, 0, false, 5⟩ : OpM).formOk = true ∧ (⟨3, 0, 1, true, 5⟩ : OpM).formOk = true
    ∧ ((eng 2).canRun 0 (2 + (⟨1, 0, 0, false, 5⟩ : OpM).extra) 0 ∧ (eng 4).canRun 0 (3 + (⟨3, 0, 1, true, 5⟩ : OpM).extra) 0 ∧ (eng 4).canRun 0 4 0)
    ∧ ((⟨1, 0, 0, 1, 65535, 0⟩ : OpR).twoSource = true ∧ (⟨1, 0, 0, 1, 65535, 0⟩ : OpR).a = 0) ∧ (eng 2).canRun 0 2 0 ∧ (eng 3).canRun 0 3 0 ∧ (eng 1).canRun 0 1 0 := by
  unfold Sys.canRun; decide +kernel
theorem witness_IntegerConversion : ((0 : Nat) = 0 ∨ (0 : Nat) = 1 ∨ (0 : Nat) = 3) ∧ (3 ≠ 0) ∧ (⟨0, 0, 1, 1, 3, 0⟩ : OpR).f = 1 ∧ (eng 3).canRun 0 3 0 := by
  unfold Sys.canRun; decide +kernel
/-- The last target below the end of the code, and the first beyond. -/
theorem witness_ControlFlow : (⟨12, 0, false, 0⟩ : OpJ).reserved = false ∧ (eng 1).canRun 0 1 0 ∧ (eng 2).canRun 0 2 0 ∧ (eng 3).canRun 0 3 0
    ∧ 2 < (imaged (eng 3) 12).logicTop 0 ∧ ¬ 3 < (imaged (eng 3) 12).logicTop 0 := by
  unfold Sys.canRun; decide +kernel
theorem witness_FunctionBlocks : (⟨0, 0, 1, false, 7⟩ : OpK).timerRef = true ∧ (7 + 1) * 32 ≤ (imaged (eng 12) 12).vlen 0 ∧ (imaged (eng 12) 12).vlen 0 < (8 + 1) * 32
    ∧ (eng 12).canRun 0 12 0 ∧ (eng 2).canRun 0 2 0 ∧ (eng 4).canRun 0 4 0
    ∧ (⟨1, 0, 1, false, 15⟩ : OpK).counterRef = true ∧ (15 + 1) * 16 ≤ (imaged (eng 6) 12).vlen 0 ∧ (imaged (eng 6) 12).vlen 0 < (16 + 1) * 16
    ∧ (eng 6).canRun 0 6 0 ∧ (imaged (eng 3) 12).vlen 0 < (64 + 1) * 4 ∧ (eng 3).canRun 0 3 0 := by
  unfold Sys.canRun; decide +kernel
theorem witness_EdgeInstructions : (⟨1, 0, 1, false, 63⟩ : OpK).reserved = false ∧ (63 + 1) * 4 ≤ (imaged (eng 3) 12).vlen 0 ∧ (imaged (eng 3) 12).canRun 0 3 0 := by
  unfold Sys.canRun; decide +kernel
/-- Slot 0 used: its directory entry's bits 18:17 are 1. -/
def looped (cost : Nat) : Sys := (eng cost).lwr 0 0x592000 8 0x20000
theorem witness_LaneStores : (⟨3, 0, 0, false, 62⟩ : OpM).formOk = true ∧ (eng 3).canRun 0 (3 + (⟨3, 0, 0, false, 62⟩ : OpM).extra) 0
    ∧ (62 + 2) * 4 ≤ (imaged (eng 3) 12).vlen 0 ∧ ¬ (64 + 2) * 4 ≤ (imaged (eng 3) 12).vlen 0
    ∧ (eng 4).canRun 0 4 0 ∧ (eng 5).canRun 0 5 0 ∧ (eng 6).canRun 0 6 0 ∧ 4 * 8192 + 8191 < 131072 ∧ (looped 6).slotUsed 0 0 = true ∧ (looped 6).slotUsed 0 1 = false := by
  unfold Sys.canRun; decide +kernel
theorem witness_LoopReadAndCalendar : (⟨1, 0, 0, false, 10 * 8192 + 8191⟩ : OpK).reserved = false ∧ 8191 < 8192 ∧ (eng 4).canRun 0 4 0 ∧ (eng 24).canRun 0 24 0
    ∧ (looped 4).slotUsed 0 0 = true := by
  unfold Sys.canRun; decide +kernel
theorem witness_InstructionRefused : ((eng 1).lane 0).engine.clocks + 1 ≤ (eng 1).prog.allowance ∧ (eng 0).prog.allowance < ((eng 0).lane 0).engine.clocks + 1
    ∧ (⟨0, 0, 0, 2, 0, 0⟩ : OpR).twoSource = false ∧ (⟨0, 0, 0, 1, 0, 0⟩ : OpR).oneSource = false ∧ (long 3 5).ext ≠ 0
    ∧ (imaged (eng 3) 12).logicTop 0 ≤ ((imaged (eng 3) 12).lane 0).engine.pc + 3 ∧ (⟨0, 0, 1, false, 0⟩ : OpM).formOk = false
    ∧ (⟨0, 0, 0, false, 2 ^ 14⟩ : OpK).timerRef = false ∧ (⟨0, 0, 0, false, 2 ^ 15⟩ : OpK).counterRef = false
    ∧ loopFieldType (11 * 8192 / 8192) ≠ some 1 ∧ loopFieldWritable (5 * 8192 / 8192) = false := by decide +kernel
theorem witness_OperandWordsRoundTrip : 63 < 64 ∧ (⟨3, 7, 7, 3, 65535, 2 ^ 64 - 1⟩ : OpR).ok = true ∧ (⟨3, 7, 7, true, 131071⟩ : OpM).ok = true
    ∧ (⟨3, 7, 7, true, 131071⟩ : OpK).ok = true ∧ (⟨15, 7, true, 262143⟩ : OpJ).ok = true ∧ (⟨2 ^ 26 - 1⟩ : OpZ).ok = true := by decide

/-! ## The angle clock, the cycle, the lanes and the vote -/

/-- The angle clock running, in a state. -/
def ang (state : Nat) : Sys := (up.put ANG_CTL_RUN 1).put ANG_STAT_STATE state
/-- The angle clock running, with its fabric clock. -/
def ticking : Sys := ((up.put CLK_GATE_CTL 1).put CLK_STAT_SEL 7).put ANG_CTL_RUN 1
theorem witness_AngleClockCommands : up.on ANG_CTL_RUN = false
    ∧ ((ang angLocked).on ANG_CTL_RUN = true ∧ (ang angLocked).get ANG_STAT_STATE ≠ angHoldover ∧ (ang angLocked).domUp 0 = true ∧ 5 < 6 ∧ (ang angLocked).on ANG_CTL_LOCK = false)
    ∧ (let y := { ticking with ang := { ticking.ang with corr := 1 } }; y.ang.corr ≠ 0 ∧ y.arrives ((y.ang.time / 32768 + 1) * 32768) = true)
    ∧ up.arrives 32768 = false := by decide +kernel
theorem witness_AngleReadsAndEvents : (let y := { ticking.put ANG_STAT_STATE angLocked with ang := { up.ang with crossed := true } }
      y.on ANG_CTL_RUN = true ∧ y.ang.crossed = true ∧ y.arrives (y.ang.expect + 40960) = true ∧ y.get ANG_STAT_STATE = angLocked ∧ y.domUp 0 = true)
    ∧ (let y := { ticking with prog := { up.prog with active := true } }
      y.waitingForLock = true ∧ y.arrives y.lockWait = true ∧ y.ang.frac < 2 ^ 32 ∧ y.ang.corr.natAbs ≤ 32768 ∧ y.domUp 0 = true)
    ∧ up.waitingForLock = false ∧ up.ang.crossed = false := by decide +kernel
/-- 50 Hz, and the first interval below 45 Hz with the last that is not. -/
theorem witness_ZeroCrossing : up.on ANG_CTL_RUN = false ∧ (ang angAcquire).on ANG_CTL_RUN = true ∧ (1 : Nat) ≠ 0
    ∧ (let z := (ang angAcquire).elapse 0
      (z.get ANG_VMIN_PCT * nth 0 z.fe.unom (z.get ANG_CTL_REFCH) ≤ 2 ^ 31 * 100 ∧ z.ang.crossed = false ∧ 45 * 65536 ≤ 8000 * 2 ^ 32 / 10485760 ∧ 8000 * 2 ^ 32 / 10485760 ≤ 65 * 65536
        ∧ 45 * 65536 ≤ 8000 * 2 ^ 32 / 11650844)
      ∧ ¬ 45 * 65536 ≤ 8000 * 2 ^ 32 / 11650845) := by decide +kernel

/-- A cycling control plane with lanes in states. -/
def cyc (states : List Nat) : Sys :=
  let y := { up with prog := { up.prog with active := true }, ang := { up.ang with requested := true, begun := true, n := 1 } }
  let y := ((y.put CLK_GATE_CTL 1).put CLK_STAT_SEL 7).put ANG_CTL_RUN 1
  (List.zip allLanes states).foldl (fun y x => y.put (VOT_LSTAT_STATE x.1.val) x.2) y
/-- The same with the bank of the cycle closed. -/
def closed (states : List Nat) : Sys := { cyc states with col := { (cyc states).col with closed := true } }
def three : List Nat := [laneVoting, laneVoting, laneVoting, laneShelved]

theorem witness_CycleSteps : (cyc three).mayStart = true ∧ up.mayStart = false
    ∧ ((cyc three).cycling = true ∧ (cyc three).ang.begun = true ∧ (cyc three).col.closed = false ∧ (cyc three).chg.queue.length ≤ 4096)
    ∧ (closed three).computes 2 = true ∧ (closed three).computes 3 = false := by decide +kernel
theorem witness_LaneCommands_remove : (cyc three).runs 1 = true ∧ (cyc three).domUp 0 = true ∧ (∀ r ∈ (cyc three).vot.reint, r.target ≠ 1) ∧ (cyc three).vot.flushDue = false
    ∧ 1 ∉ (cyc three).vot.shelfQueue ∧ (cyc three).runs 3 = false := by decide +kernel
/-- Lane 2 removed: a free lane manager, and one that copies into lane 1. -/
theorem witness_LaneCommands_rejoin : (let y := cyc [5, 5, 0, 6]
      y.laneState 2 = laneReset ∧ y.reintegrating = false ∧ y.dramUp = true ∧ y.vot.restart = false ∧ y.vot.shelfQueue = [] ∧ y.vot.waiting = [] ∧ y.rowPending 2 = false
        ∧ y.vot.resetting = [] ∧ (y.put VOT_CTL_AUTO 1).on VOT_CTL_AUTO = true ∧ (y.put VOT_CTL_AUTO 0).on VOT_CTL_AUTO = false ∧ y.domUp (2 + 2) = true ∧ y.laneState 0 ≠ laneReset
        ∧ ([2] : List (Fin 4)).contains 2 = true ∧ (y.put MEM_STAT_DRAM dramFailed).dramUp = false)
    ∧ (let y := cyc [5, 2, 0, 6]; y.laneState 2 = laneReset ∧ y.reintegrating = true ∧ y.dramUp = true ∧ y.vot.restart = false ∧ 2 ∉ y.vot.waiting) := by decide +kernel
/-- Lane 2 reloading, and copying in its last and its only round. -/
def copying (state : Nat) (dirty : List Nat) : Sys :=
  let y := cyc [5, 5, state, 6]
  { y with vot := { y.vot with reint := some ⟨2, 0, 1, dirty, [7], false, false, false⟩ } }
theorem witness_LaneCommands_copy : (let y := cyc [5, 5, 1, 6]; y.laneState 2 = laneReload ∧ y.donorOf = some 0 ∧ y.dramUp = true ∧ y.domUp 0 = true ∧ 2 ∉ y.vot.shelfQueue)
    ∧ (cyc [0, 6, 1, 6]).donorOf = none
    ∧ (let y := (copying lanePrecopy [0, 1]).put VOT_RCFG_FINMAX 2
      y.vot.reint = some ⟨2, 0, 1, [0, 1], [7], false, false, false⟩ ∧ y.laneState 2 = lanePrecopy ∧ Nat.min [0, 1].length 174080 ≤ y.get VOT_RCFG_FINMAX)
    ∧ (let y := ((copying lanePrecopy [0, 1, 2]).put VOT_RCFG_FINMAX 2).put VOT_RCFG_ROUNDS 2
      ¬ (Nat.min [0, 1, 2].length 174080 ≤ y.get VOT_RCFG_FINMAX ∨ 1 = y.get VOT_RCFG_ROUNDS))
    ∧ (copying laneFinal []).laneState 2 = laneFinal ∧ (∀ g ∈ [7], g < 0x40000) := by decide +kernel
/-- The donor of a target in its last round, in the span of R90 of the cycle in progress. -/
theorem witness_LaneCommands_handover : (let y := (copying laneFinal []).modLane 0 fun l => { l with jobs := [⟨2, 0, 9, 0, true⟩], doneCycle := some 0 }
    let r : Reintegration := ⟨2, 0, 1, [], [], true, true, false⟩
    let y := { y with vot := { y.vot with reint := some r } }
    (y.lane 0).jobs = [⟨2, 0, 9, 0, true⟩] ∧ y.runs 0 = true ∧ y.vot.reint = some r ∧ r.donor = 0 ∧ r.finalDone = true ∧ (y.lane 0).doneCycle = some 0
      ∧ y.inSpan (y.lane 0) = true ∧ ({ y with ang := { y.ang with cycle := 5 } } : Sys).inSpan (y.lane 0) = false) := by decide +kernel
theorem witness_LaneCommands_jobs : ∀ k ∈ [1, 2, 3], (let y := (cyc three).modLane 0 fun l => { l with jobs := [⟨k, 0, 9, 0, true⟩] }
    (y.lane 0).jobs = [⟨k, 0, 9, 0, true⟩] ∧ y.runs 0 = true ∧ y.vot.reint = none ∧ y.vot.flushDue = false ∧ y.runs 3 = false) := by decide +kernel

/-- The part at PHC of its cycle. -/
def atPhc (y : Sys) : Sys := (y.reach (y.ang.start + y.ang.phc)).abortHitil true
def inTime (states : List Nat) : Sys :=
  allLanes.foldl (fun y n => y.modLane n fun l => { l with done := true, doneCycle := some 0 }) (closed states)
theorem witness_VoteAndEmit_due : (closed three).cycling = true ∧ (closed three).ang.begun = true ∧ (closed three).vot.emitted = false
    ∧ (closed three).col.closed = true ∧ (closed three).vot.voted = false ∧ (closed three).pwr.standby ≠ 1 := by decide +kernel
theorem witness_VoteAndEmit_none : (let v := atPhc (inTime [6, 0, 0, 7]); v.voters = [] ∧ ∀ n, v.runs n = true → v.inTime n = true) := by
  decide +kernel
theorem witness_VoteAndEmit_one : (let v := atPhc (inTime [0, 0, 5, 0]); v.voters = [2] ∧ v.vot.flushDue = false ∧ ∀ n, v.runs n = true → v.inTime n = true) := by
  decide +kernel
theorem witness_VoteAndEmit_two : (let v := atPhc (inTime [5, 0, 5, 0]); v.voters = [0, 2] ∧ (∀ n, v.laneState n ≠ laneShadow ∧ (v.runs n = true → v.inTime n = true))
    ∧ (∀ k ∈ regionsOf v.ang.cycle, (v.regionWords 0 k).length = (v.regionWords 2 k).length) ∧ ∀ k ∈ regionsOf v.ang.cycle, v.regionWords 0 k = v.regionWords 2 k) := by decide +kernel
/-- In cycle 15 the digests are compared too: lane 2's differs. -/
theorem witness_VoteAndEmit_differ : (let y := inTime [5, 0, 5, 0]
    let y := allLanes.foldl (fun y n => y.modLane n fun l => { l with doneCycle := some 15 }) { y with ang := { y.ang with cycle := 15 } }
    let v := atPhc (y.setWord (VOT_LDIGL 2) 1)
    v.voters = [0, 2] ∧ (∀ n, v.laneState n ≠ laneShadow ∧ (v.runs n = true → v.inTime n = true))
      ∧ (∀ k ∈ regionsOf v.ang.cycle, (v.regionWords 0 k).length = (v.regionWords 2 k).length)
      ∧ (regionsOf v.ang.cycle).find? (fun k => v.regionWords 0 k != v.regionWords 2 k) = some 2 ∧ v.domUp 0 = true) := by decide +kernel
/-- Three lanes of which the last holds another digest. -/
def threeLanes : Sys :=
  let y := inTime [5, 5, 5, 6]
  let y := allLanes.foldl (fun y n => y.modLane n fun l => { l with doneCycle := some 15 }) { y with ang := { y.ang with cycle := 15 } }
  atPhc (y.setWord (VOT_LDIGL 2) 1)
theorem witness_VoteAndEmit_three : (let v := threeLanes
    v.voters = [0, 1, 2] ∧ (∀ n, v.runs n = true → v.inTime n = true) ∧ v.domUp 0 = true
      ∧ (∀ k ∈ regionsOf v.ang.cycle, (v.regionWords 0 k).length = (v.regionWords 1 k).length ∧ (v.regionWords 0 k).length = (v.regionWords 2 k).length)
      ∧ (∀ k ∈ regionsOf v.ang.cycle, v.regionWords 0 k = v.regionWords 1 k)
      ∧ (regionsOf v.ang.cycle).find? (fun k => v.regionWords 2 k != v.regionWords 0 k) = some 2) ∧ ([0, 1, 2] : List (Fin 4)).Perm [0, 1, 2] := by decide +kernel
/-- A lane that misses PHC. -/
theorem witness_VoteAndEmit_late : (let v := atPhc (closed three); v.runs 1 = true ∧ v.inTime 1 = false) := by decide +kernel
/-- A valid image; an invalid one with the permit refused, in a live, a holding and a released cuff; no vote with three lanes; and a standby that waits. -/
theorem witness_VoteAndEmit_emit : (let y := closed three; let y := { y with vot := { y.vot with voted := true, valid := true } }; y.vot.voted = true ∧ y.vot.valid = true
      ∧ y.get VOT_STAT_CUFF = cuffReleased ∧ y.pwr.standby ≠ 1)
    ∧ (let y := closed three; let y := { y with vot := { y.vot with voted := true, valid := false, refused := true } }; y.vot.voted = true ∧ y.vot.refused = true)
    ∧ (let y := (closed three).put VOT_STAT_CUFF cuffLive; y.vot.valid = false ∧ y.vot.refused = false ∧ y.get VOT_STAT_CUFF = cuffLive)
    ∧ ((closed three).put VOT_STAT_CUFF cuffHolding).get VOT_STAT_CUFF = cuffHolding
    ∧ (let y := inTime [5, 5, 5, 6]; y.vot.voted = false ∧ 2 ≤ y.atPhc.voters.length ∧ y.domUp 0 = true)
    ∧ ({ closed three with pwr := { (closed three).pwr with standby := 1 } } : Sys).pwr.standby = 1 := by decide +kernel
theorem witness_VoteAndEmit_restart : (let y := { cyc three with pwr := { up.pwr with inReset := false }, clk := { up.clk with planesHeld := false } }
      y.pwr.inReset = false ∧ y.clk.planesHeld = false ∧ y.pwr.standby ≠ 3 ∧ y.get MEM_STAT_DRAM ≠ dramFailed
        ∧ (y.put MEM_STAT_DRAM dramFailed).get MEM_STAT_DRAM = dramFailed ∧ y.pwr.stopped = false ∧ y.domUp 0 = true)
    ∧ ({ y0 with pwr := { y0.pwr with inReset := true } } : Sys).pwr.inReset = true := by decide +kernel
theorem witness_MajorityOfWords : (0 : Fin 4) ≠ 1 ∧ (0 : Fin 4) ≠ 3 ∧ (1 : Fin 4) ≠ 3 ∧ [1, 2].length = [1, 2].length ∧ [1, 2].length = [1, 3].length ∧ [1, 3] ≠ [1, 2]
    ∧ (∃ i, ∃ h : i < [1, 2].length, ∃ h' : i < [1, 3].length, ∃ h'' : i < [1, 4].length, [1, 2][i] ≠ [1, 3][i] ∧ [1, 2][i] ≠ [1, 4][i] ∧ [1, 3][i] ≠ [1, 4][i]) :=
  ⟨by decide, by decide, by decide, by decide, by decide, by decide, 1, by decide, by decide, by decide, by decide, by decide, by decide⟩

/-! ## Changes, metering and the fabric -/

/-- A lane in the agreeing group. -/
def agreeing : Sys := cyc three |>.putBit VOT_STAT_AGREE 0 true
theorem witness_ChangesAndReports_submit : ¬ (up.get CYC_HSUBT_KIND = 3 ∧ up.get CYC_HSUBT_INDEX ≠ 1 ∧ up.get CYC_HSUBT_INDEX ≠ 2) ∧ up.chg.queue.length < 4096 ∧ up.chg.nextSeq < 2 ^ 32
    ∧ (let y := up.put CYC_HSUBT_KIND 3; y.get CYC_HSUBT_KIND = 3 ∧ y.get CYC_HSUBT_INDEX ≠ 1 ∧ y.get CYC_HSUBT_INDEX ≠ 2)
    ∧ 4096 ≤ (List.replicate 4096 (⟨0, 0, 1, 0, false, 1, 0⟩ : Change)).length := by decide +kernel
theorem witness_ChangesAndReports_agree : agreeing.agreeLane = some 0 ∧ agreeing.domUp 0 = true
    ∧ (let y := { agreeing with vot := { agreeing.vot with refusedDue := true, metersDue := true, loopsDue := true } }
      y.vot.refusedDue = true ∧ y.vot.metersDue = true ∧ (y.lane 0).dp.snapLost = 0 ∧ y.vot.loopsDue = true ∧ (y.lane 0).loopLost = 0) := by decide +kernel
/-- A retentive store of the largest size. -/
theorem witness_ChangesAndReports_save : (let y := { cyc three with prog := { (cyc three).prog with snapCycle := some 100 } }
    let y := (y.lwr 0 (logicBase + 0x34) 4 1).lwr 0 logicBase 8 (0x40000 * 2 ^ 32)
    y.prog.snapCycle = some 100 ∧ y.votes 0 = true ∧ retBytes (y.retRanges 0) = 0x40000 ∧ y.logic 0 0x34 ≤ 256) := by decide +kernel
/-- The front end on. -/
def fe (state : Nat) : Sys := (up.put MET_STAT_FE state).put MET_CTL_RUN 1
theorem witness_MeteringBlocks : (fe feRun).get MET_STAT_FE = feRun ∧ (fe feRun).on MET_CTL_RUN = true ∧ (fe feFrozen).get MET_STAT_FE ≠ feRun ∧ up.on MET_CTL_RUN = false
    ∧ (∀ k ∈ [2, 3], let y := (cyc three).modLane 1 fun l => { l with jobs := [⟨1, 0, 9, 0, true⟩, ⟨k, 0, 9, 0, false⟩] }
      y.runs 1 = true ∧ (∃ j ∈ (y.lane 1).jobs, j.kind = k ∧ j.ran = false) ∧ y.vot.reint = none ∧ (y.lane 1).meterArmed = false ∧ y.blockWaits 1 ⟨k, 0, y.ang.cycle, 0, false⟩ = false
        ∧ y.blockWaits 1 ⟨k, 0, y.ang.cycle + 2, 0, false⟩ = true ∧ y.runs 3 = false)
    ∧ (let y := up.modLane 3 fun l => { l with meterPending := true }; (y.lane 3).meterPending = true ∧ (y.lane 0).meterPending = false ∧ (y.lane 3).dp.atBoundary = true
      ∧ ({ (y.lane 3).dp with waiting := false } : Datapath).atBoundary = false) := by decide +kernel
theorem witness_MeteringCommands : 77 < 78 ∧ (up.put MET_TAPP_CAUSE 1).get MET_TAPP_CAUSE ≠ 0 ∧ (fe feRun).get MET_STAT_FE ≠ feFailed ∧ (fe feRun).domUp 0 = true
    ∧ ((fe feRun).put ANG_STAT_STATE angLocked).get ANG_STAT_STATE = angLocked ∧ (fe feRun).get ANG_STAT_STATE ≠ angLocked ∧ (fe feFailed).get MET_STAT_FE = feFailed
    ∧ up.get MET_TAPP_CAUSE = 0 ∧ up.fe.flushing = false ∧ ({ up with fe := { up.fe with flushing := true } } : Sys).fe.flushing = true ∧ up.energyLane = none
    ∧ agreeing.energyLane = some 0 ∧ (agreeing.laneMeter 0).energyEnd ≤ 0xD000 := by decide +kernel

/-- A structure image in words: a directory of sections 1 (6 banks of 3.3 V), 2 (two channels), 3 (one DALI line) and 8 (station 5 on NET2 with two input words, and station 1024 on segment 0 with 16). -/
def image : List Host.Cell :=
  ([(8, 4), (0x10, 100), (0x14, 200), (0x40, 1), (0x44, 0x100), (0x48, 6), (0x4C, 4), (0x50, 2), (0x54, 0x200), (0x58, 2), (0x5C, 32),
    (0x60, 3), (0x64, 0x1A00), (0x68, 1), (0x6C, 16), (0x70, 8), (0x74, 0x1B00), (0x78, 2), (0x7C, 32),
    (0x100, 2), (0x104, 2), (0x108, 2), (0x10C, 2), (0x110, 2), (0x114, 2),
    (0x200, 0x100), (0x204, 7), (0x208, 1), (0x210, 0x100), (0x220, 0x201), (0x224, 8), (0x228, 1),
    (0x1A00, 0x302), (0x1A04, 9), (0x1A08, 10),
    (0x1B00, 5), (0x1B04, 2), (0x1B08, 20), (0x1B20, 1024), (0x1B24, 16), (0x1B28, 40)] : List (Nat × Nat)).foldl (fun m x => memWrite m x.1 4 x.2) []
/-- The fabric running with that image, a live cuff and a channel. -/
def fab (k : Nat) (c : Channel) : Sys :=
  let y := (((cyc three).put FAB_STAT_STATE fabRun).put VOT_STAT_CUFF cuffLive)
  { y with fab := { y.fab with image := image, channels := [(k, c)] } }
theorem witness_FabricChannels_pins : 191 < 192 ∧ ((fab 191 Channel.zero).chan 191).level ≠ true
    ∧ (let y := fab 0 { Channel.zero with level := true }; (y.chan 0).level ≠ (y.chan 0).accepted ∧ (y.chanRec 0).digital = true ∧ y.chanFails 0 = false)
    ∧ (let y := fab 0 { Channel.zero with quiet := 1 }; (y.chanRec 0).func = 1 ∧ (y.chanRec 0).tout ≠ 0 ∧ (y.chanRec 0).tout ≤ (y.chan 0).quiet ∧ (y.chan 0).stuck = false
      ∧ y.domUp 0 = true) := by decide +kernel
theorem witness_FabricChannels_drive : ((fab 1 { Channel.zero with pwmNext := some 65535 }).chan 1).pwmNext = some 65535
    ∧ (let y := fab 1 { Channel.zero with pending := some ⟨true, 1000, 7⟩ }; (y.chan 1).pending = some ⟨true, 1000, 7⟩ ∧ 1000 ≤ ((y.put ANG_CTL_RUN 1).reach 1000).ang.time
      ∧ ((y.put CLK_GATE_CTL 0).reach 1000).ang.time < 1000)
    ∧ ((fab 1 Channel.zero).chan 1).pwmNext = none ∧ ((fab 1 Channel.zero).chan 1).pending = none
    ∧ (let y := fab 1 Channel.zero
      y.applyAngle (y.chanRec 1) = 0 ∧ y.mayDrive 1 = true ∧ y.wordLost (y.chanRec 1).point = false ∧ (y.chanRec 1).func = 2 ∧ structApply y.image = 200) := by decide +kernel
theorem witness_FabricChannels_sample : (fab 0 Channel.zero).angleComes (structSample image) = true ∧ (fab 0 Channel.zero).angleComes 200 = true
    ∧ ((fab 0 Channel.zero).put CLK_GATE_CTL 0).angleComes 200 = false
    ∧ (let y := fab 0 Channel.zero
      (y.chanRec 0).func = 1 ∧ y.chanFails 0 = false ∧ y.get FAB_STAT_STATE = fabRun
        ∧ (y.chan 0).due (y.chanRec 0) (y.reachAngle (structSample y.image)).fclk = false
        ∧ (∀ j, j < 192 → j ≠ 0 → (y.chanRec j).point ≠ (y.chanRec 0).point) ∧ (∀ j, j < 192 → (y.chanRec j).auxpt ≠ (y.chanRec 0).point)
        ∧ ∀ r ∈ lineRecs y.image, r.rsppt ≠ (y.chanRec 0).point)
    ∧ (let y := fab 0 { Channel.zero with cellFailed := true }; (y.chanRec 0).func ≠ 0 ∧ y.chanFails 0 = true) := by decide +kernel

/-- A DALI line with a frame of a form on the bus. -/
def dali (d : DaliLine) : Sys := let y := fab 0 Channel.zero; { y with fab := { y.fab with lines := [(0, d)] } }
def sends (form attempts copy : Nat) : Sys := dali { DaliLine.zero with sending := some ⟨5, form, 3⟩, onBus := true, attempts := attempts, copy := copy }
theorem witness_DaliFrames_send : (let y := dali { DaliLine.zero with queue := [⟨1, 2, 3⟩] }
      (lineRec y.image 0).map (fun r => (r.line, y.mayDrive r.tx)) = some (0, true) ∧ (y.dali 0).failed = false ∧ (y.dali 0).sending = none ∧ (y.dali 0).queue = [⟨1, 2, 3⟩])
    ∧ (∀ form ∈ [0, 1, 2, 3], ∀ copy ∈ [1, 2], ((sends form 0 copy).dali 0).sending = some ⟨5, form, 3⟩ ∧ ((sends form 0 copy).dali 0).onBus = true ∧ ((sends form 0 copy).dali 0).copy = copy)
    ∧ ((sends 1 1 1).dali 0).attempts < 2 ∧ 2 ≤ ((sends 1 2 1).dali 0).attempts ∧ (sends 1 2 1).domUp 0 = true := by decide +kernel
theorem witness_DaliFrames_lines : ((dali { DaliLine.zero with retrying := true }).dali 0).retrying = true
    ∧ (let y := dali { DaliLine.zero with sending := some ⟨5, 1, 3⟩, answering := true }; (y.dali 0).sending = some ⟨5, 1, 3⟩ ∧ (y.dali 0).answering = true)
    ∧ (let y := dali DaliLine.zero; (lineRec y.image 0).isSome = true ∧ (y.dali 0).failed = false ∧ y.domUp 0 = true ∧ lineRec y.image 1 = none
      ∧ (lineRec y.image 0).map (fun r => y.busHigh r) = some false)
    ∧ (let y := (dali { DaliLine.zero with failed := true }).setChan 3 { Channel.zero with level := true }; (y.dali 0).failed = true ∧ (lineRec y.image 0).map (fun r => y.busHigh r) = some true)
    ∧ ((dali { DaliLine.zero with failed := true }).dali 0).failed = true := by decide +kernel
/-- The failure of a cell with a spare cell free and with none, of a spare cell that serves channel 191, and the substitution. -/
theorem witness_FabricFailures_cells : (let y := fab 191 Channel.zero
      (y.chan 191).cellFailed = false ∧ y.domUp 0 = true ∧ y.freeSpare ≠ none ∧ (y.put FAB_CTL_SPAREN 1).on FAB_CTL_SPAREN = true
        ∧ ((List.range 8).foldl (fun y j => y.setSpare j true 0xFF) y).freeSpare = none)
    ∧ (let y := (fab 191 { Channel.zero with spare := some 7 }).setSpare 7 true 191; y.spareUsed 7 = true ∧ y.spareUc 7 = 191 ∧ (191 : Nat) ≠ 0xFF ∧ y.spareUsed 6 = false)
    ∧ (let y := up.setSpare 7 true 0xFF; y.spareUsed 7 = true ∧ y.spareUc 7 = 0xFF) ∧ ((fab 191 { Channel.zero with cellFailed := true }).chan 191).cellFailed = true
    ∧ (let y := (fab 191 { Channel.zero with cellFailed := true }).put FAB_CTL_SPAREN 1
      let y := { y with fab := { y.fab with wait := [191] } }
      y.freeSpare = some 0 ∧ 191 ∈ y.fab.wait ∧ y.on FAB_CTL_SPAREN = true ∧ y.dramUp = true ∧ y.domUp 0 = true) := by decide +kernel
theorem witness_FabricFailures_fabric : (fab 0 Channel.zero).get FAB_STAT_STATE ≠ fabFailed ∧ ((fab 0 Channel.zero).put FAB_STAT_STATE fabReload).get FAB_STAT_STATE = fabReload
    ∧ ((fab 0 Channel.zero).put FAB_STAT_STATE fabFailed).get FAB_STAT_STATE = fabFailed ∧ up.get FAB_STAT_STATE ≠ fabReload ∧ y0.dramUp = false ∧ bankVio [] 0 = 0
    ∧ (fab 0 Channel.zero).dramUp = true ∧ (∀ b : Fin 6, bankVio (fab 0 Channel.zero).image b.val ≠ 0)
    ∧ bankClass 3134 ≠ bankVio (fab 0 Channel.zero).image 5 ∧ (fab 0 Channel.zero).bit FAB_BANK_BFAIL 5 = false
    ∧ bankClass 3135 = bankVio (fab 0 Channel.zero).image 5 ∧ ((fab 0 Channel.zero).putBit FAB_BANK_BFAIL 5 true).bit FAB_BANK_BFAIL 5 = true := by decide +kernel
/-- Both ends of the scrub's round, and what an uncorrectable word may be: a global one (0) or a cell's. -/
theorem witness_FabricFailures_scrub : ({ up with fab := { up.fab with scrubAt := 16383 } } : Sys).fab.scrubAt = 16383 ∧ up.fab.scrubAt ≠ 16383
    ∧ (∃ r, r < 201 ∧ r = 0) ∧ ∃ r k, r < 201 ∧ r = k + 1 ∧ k < 192 := ⟨by decide +kernel, by decide +kernel, ⟨0, by decide, rfl⟩, ⟨192, 191, by decide, by decide, by decide⟩⟩

/-! ## The buses -/

/-- The exchange running in cycle 3 with a station. -/
def hit (i : Nat) (x : Station) : Sys :=
  let y := fab 0 Channel.zero |>.put HIT_CTL_RUN 1 |>.put (NET_LINK_STATE 2) 2
  { y with hit := { y.hit with stations := [(i, x)], auth := false }, ang := { y.ang with cycle := 3 }, col := { y.col with openCycle := 3 } }
/-- Two words of station 5, and the first 15 of station 1024. -/
def netIn (cycle : Nat) : HitilInput := ⟨8, 77, 1, 5, 1, 8, cycle, 0, [1, 2], 0⟩
def canIn : HitilInput := ⟨0, 77, 1, 1024, 1, 60, 3, 0, List.replicate 15 9, 0⟩
def online : Station := { Station.zero with state := stOnline, address := some 77 }
theorem witness_StationExchange_run : up.on HIT_CTL_RUN = false ∧ (hit 5 online).on HIT_CTL_RUN = true ∧ (hit 5 online).exchanging = true ∧ up.exchanging = false := by decide +kernel
theorem witness_StationExchange_input : stationRec (hit 5 online).image 6 = none
    ∧ (∃ r, stationRec (hit 5 online).image 5 = some r ∧ busOf 5 = (netIn 3).bus ∧ ((hit 5 online).station 5).state ≠ stWaiting ∧ ((hit 5 online).station 5).address = some 77
      ∧ (hit 5 online).tagOk 8 5 3 3 0 (inputAad (netIn 3)) 0 = true
      ∧ 2 < (hit 5 online).col.openCycle ∧ 3 = (hit 5 online).col.openCycle ∧ (hit 5 online).stationDue r 3 = true ∧ (netIn 3).len = 4 * (netIn 3).words.length
      ∧ (hit 5 online).wordsRight r (netIn 3) = true ∧ putKey online.fragments 0 (1, [1, 2]) = [(0, 1, [1, 2])]) := by
  refine ⟨by decide +kernel, (stationRec (hit 5 online).image 5).get (by decide +kernel), ?_⟩; decide +kernel
theorem witness_StationExchange_fragment : ∃ r, stationRec (hit 1024 online).image 1024 = some r ∧ busOf 1024 = canIn.bus ∧ (hit 1024 online).fullCycle canIn.cycle = (hit 1024 online).col.openCycle
    ∧ (hit 1024 online).wordsRight r canIn = true ∧ canIn.len = 4 * canIn.words.length ∧ (hit 1024 online).fragCount r.incnt = 2
    ∧ (putKey online.fragments 0 (1, canIn.words)).length ≠ 2 := by
  refine ⟨(stationRec (hit 1024 online).image 1024).get (by decide +kernel), ?_⟩; decide +kernel
/-- A join request that is taken, one of no station, one of a held index, and one with a wrong tag. -/
def joinIn (station : Nat) : JoinInput := ⟨8, 77, 1, station, 0, 16, 3, [0, 0, 0, 0, 0, 0, 0, 0, 0, 0, 2, 0, 0, 0, 0, 0], 0⟩
theorem witness_StationExchange_join : (joinIn 5).payload.length = 16 ∧ (joinIn 5).ver = 1 ∧ (joinIn 5).len = 16 ∧ (hit 5 Station.zero).joinReason (joinIn 5) = 0 ∧ (hit 5 online).joinReason (joinIn 5) = 0
    ∧ (hit 5 online).joinReason (joinIn 6) = 1 ∧ (hit 5 { online with address := some 78 }).joinReason (joinIn 5) = 7
    ∧ (let y := hit 5 online; ({ y with hit := { y.hit with auth := true } } : Sys).joinReason (joinIn 5)) = 5 := by decide +kernel
theorem witness_StationExchange_admission : (let y := hit 5 { Station.zero with admitAt := some 3 }
    (stationRec y.image 5).isSome = true ∧ (y.station 5).admitAt = some y.ang.cycle
      ∧ ({ y with ang := { y.ang with phg := 40, phc := 60 } } : Sys).ang.time < y.ang.start + 60 ∧ y.arrives (y.ang.start + 40) = true ∧ y.busOpen (busOf 5) = true ∧ y.domUp 0 = true)
    ∧ (hit 5 online).station 5 = online ∧ online.admitAt = none := by decide +kernel

/-- Controller 7 of a role in a state. -/
def can (role : Nat) (c : CanCtl) : Sys := (up.put (CAN_STAT_ROLE 7) role).setCan 7 c
def rec1 : CanRecord := ⟨1, false, false, 0, false, false, false, 0, 0, 0, 0, 0, [], 2, 15⟩
def normal : CanCtl := { CanCtl.zero with mode := modeNormal }
def frame (ide : Bool) : CanInput := ⟨0x7FF, ide, false, 8, false, false, false, [1, 2, 3, 4, 5, 6, 7, 8], true, true, 0⟩
theorem witness_CanFrames_send : (let y := can roleHost { normal with q0 := [rec1], q1 := [rec1] }
      y.segOf 7 < 8 ∧ (∀ r ∈ (y.canAt 7).q0 ++ (y.canAt 7).q1 ++ (y.canAt 7).aborted, r.source ≤ 2) ∧ y.maySend 7 = true
        ∧ true = !(y.canAt 7).q1.isEmpty ∧ (y.canAt 7).queue true = [rec1] ∧ rec1.refused (y.get (CAN_RATE_DRATE 7)) = false)
    ∧ (let y := can roleHost { normal with q0 := [{ rec1 with esi := true }] }
      false = !(y.canAt 7).q1.isEmpty ∧ (y.canAt 7).queue false = [{ rec1 with esi := true }] ∧ rec1.source ≠ 0 ∧ ({ rec1 with esi := true } : CanRecord).refused 0 = true ∧ (y.canAt 7).queue true = [])
    ∧ ((can roleHost { normal with failed := true }).maySend 7 = false ∧ ((can roleHost normal).canAt 7).q0 = [])
    ∧ (let y := (can roleHost { normal with q0 := [rec1], q1 := [rec1] }).put (CAN_TXQ_ACTIVE 7) 1
      y.on (CAN_TXQ_ACTIVE 7) = true ∧ y.on (CAN_TXQ_ACTQ 7) = false ∧ (y.canAt 7).queue false = [rec1] ∧ (y.canAt 7).abortActive = false ∧ (y.canAt 7).aborted = []
        ∧ y.hit.backlog = [] ∧ y.dramUp = true ∧ y.hitilOnly 7 = false)
    ∧ ((can roleHost { normal with q0 := [rec1], abortActive := true }).canAt 7).abortActive = true ∧ rec1.status ≠ 4 ∧ rec1.source ≤ 2
    ∧ (can roleHitil normal).hitilOnly 7 = true ∧ (can roleHost normal).on (CAN_TXQ_ACTIVE 7) = false := by decide +kernel
theorem witness_CanFrames_receive : (∀ role ∈ [roleHitil, roleHost], let y := (can role normal).put (CAN_ERR_REC 7) 127
      (y.canAt 7).failed = false ∧ (y.canAt 7).mode = modeNormal ∧ (y.canAt 7).busOff = 0 ∧ y.searching 7 = false ∧ (frame true).arbOk = true ∧ (frame true).dataOk = true
        ∧ y.get (CAN_ERR_REC 7) ≤ 127 ∧ 127 < (y.put (CAN_ERR_REC 7) 128).get (CAN_ERR_REC 7))
    ∧ ({ frame true with arbOk := false } : CanInput).arbOk = false
    ∧ ((can roleHost { normal with fifo := List.replicate 31 rec1 }).put (DMA_CRTAIL_TAIL 7 0) 1).fifoFull 7 = false
    ∧ ((can roleHost { normal with fifo := List.replicate 32 rec1 }).put (DMA_CRTAIL_TAIL 7 0) 1).fifoFull 7 = true ∧ (can roleHost normal).fifoFull 7 = true
    ∧ (frame false).ide = false ∧ bits 0x300 8 3 = 3 ∧ stationRec up.image (1024 + 32 * 7 + bits 0x300 3 5) = none
    ∧ (can roleHost normal).canRole 7 ≠ roleHitil ∧ (can roleHitil normal).canRole 7 = roleHitil ∧ bits 0x7FF 8 3 = 7 ∧ bits 0x5FF 8 3 = 5 := by decide +kernel
theorem witness_CanErrorsAndModes_errors : (let y := (can roleHost normal).put (CAN_ERR_TEC 7) 247
      (y.canAt 7).failed = false ∧ (y.canAt 7).mode = modeNormal ∧ (y.canAt 7).busOff = 0 ∧ (y.canAt 7).abortActive = false ∧ y.domUp 0 = true ∧ y.searching 7 = false
        ∧ y.get (CAN_ERR_TEC 7) + 8 ≤ 255 ∧ y.canState 7 = canPassive ∧ 255 < (y.put (CAN_ERR_TEC 7) 248).get (CAN_ERR_TEC 7) + 8)
    ∧ ((can roleHost { CanCtl.zero with mode := modeListen }).canAt 7).mode = modeListen := by decide +kernel
theorem witness_CanErrorsAndModes_modes : (can roleHost { normal with busOff := 1 }).canState 7 = canBusOff ∧ (can roleHost normal).canState 7 ≠ canBusOff ∧ (can roleHost normal).canState 7 ≠ canRecovering ∧ (can roleHost { normal with busOff := 1 }).hitilOnly 7 = false
    ∧ ((can roleHost normal).put (CAN_CTL_AUTOREC 7) 1).on (CAN_CTL_AUTOREC 7) = true ∧ (can roleHost { normal with busOff := 2 }).canState 7 = canRecovering
    ∧ (can roleHitil normal).hitilOnly 7 = true ∧ (can roleHost normal).modeRefused 7 1 = true ∧ (can roleHost normal).modeRefused 7 0 = false
    ∧ (can roleHost { normal with arate := 500000 }).modeRefused 7 1 = false
    ∧ (∀ m ∈ [modeOff, modeNormal, modeListen, modeDetect], ((can roleHost { normal with nextMode := some m }).canAt 7).nextMode = some m)
    ∧ (can roleHost normal).get (CAN_ADSTAT_STATE 7) ≠ 2
    ∧ (let y := (can roleHost { normal with mode := modeDetect }).put (CAN_ADSTAT_STATE 7) 1; (y.canAt 7).mode = modeDetect ∧ y.get (CAN_ADSTAT_STATE 7) = 1 ∧ (y.canAt 7).nextMode = none ∧ (y.canAt 7).failed = false ∧ (y.canAt 7).busOff = 0
      ∧ 0 + 1 < (y.put (CAN_ADCTL_LOCKN 7) 2).get (CAN_ADCTL_LOCKN 7) ∧ (y.put (CAN_ADCTL_LOCKN 7) 1).get (CAN_ADCTL_LOCKN 7) ≤ (y.canAt 7).good + 1
      ∧ (frame false).arbOk = true ∧ ({ frame false with fdf := true, brs := true } : CanInput).dataOk = true)
    ∧ ((can roleHost normal).canAt 7).nextMode = none := by decide +kernel
theorem witness_CanErrorsAndModes_spare : ((can roleHost normal).canAt 7).failed = false ∧ (can roleHost normal).segOf 7 < 8 ∧ (7 : Fin 9).val = (7 : Fin 8).val
    ∧ (let y := can roleHost { normal with failed := true }
      (List.range 8).find? y.unserved = some 7 ∧ y.spareFree = true ∧ y.domUp 0 = true ∧ (y.canAt 7).failed = true)
    ∧ (∀ r ∈ ((can roleHost normal).canAt 7).q0 ++ ((can roleHost normal).canAt 7).q1 ++ ((can roleHost normal).canAt 7).aborted, r.source ≤ 2)
    ∧ (List.range 8).find? (can roleHost normal).unserved = none := by decide +kernel

/-- Port 1 with its link in a state. -/
def net (state : Nat) (q : Port) : Sys := let y := up.put (NET_LINK_STATE 1) state; { y with ports := y.ports.set 1 q }
theorem witness_EthernetLinks : (net linkDown Port.zero).linkState 1 = linkDown
    ∧ ((net linkNegotiating Port.zero).linkState 1 = linkNegotiating ∧ (net linkNegotiating Port.zero).domUp 0 = true
      ∧ commonSpeed ((net linkNegotiating { Port.zero with adv := 7 }).port 1).adv 0x7F = 3 ∧ commonSpeed ((net linkNegotiating Port.zero).port 1).adv 0x7F = 0)
    ∧ (net linkUp Port.zero).linkState 1 = linkUp ∧ (net linkUp Port.zero).linkState 1 ≠ linkDown ∧ (net linkNomatch Port.zero).linkState 1 = linkNomatch
    ∧ ¬ (Agent.host = .host ∧ (1 : Fin 3) = 2) ∧ (Agent.host = .host ∧ (2 : Fin 3) = 2) ∧ (1 : Fin 3) ≠ 2
    ∧ (net linkUp Port.zero).on (NET_CTL_TXEN 1) = false ∧ ((net linkUp Port.zero).put (NET_CTL_TXEN 1) 1).on (NET_CTL_TXEN 1) = true
    ∧ (net linkUp Port.zero).on (NET_CTL_RXEN 1) = false ∧ ((net linkUp Port.zero).put (NET_CTL_RXEN 1) 1).on (NET_CTL_RXEN 1) = true
    ∧ ringFits ((net linkUp Port.zero).txDesc 1 0) ((net linkUp Port.zero).txSize 1) = false
    ∧ ringFits (((net linkUp Port.zero).put (NET_TXBASE_BASE 1) 0x4020000).txDesc 1 0) ((net linkUp Port.zero).txSize 1) = true
    ∧ ((net linkUp Port.zero).put (NET_MDIO_BUSY 1) 1).on (NET_MDIO_BUSY 1) = true := by decide +kernel
/-- A ring of 16 descriptors with one of a frame of 14 bytes, its last (bit 16); and one of 13 bytes. -/
def txRing (len : Nat) : Sys :=
  let y := ((((net linkUp Port.zero).put (NET_TXBASE_BASE 1) 0x4020000).put (NET_TXCFG_LOG2 1) 4).put (NET_TXTAIL_IDX 1) 1).put (NET_CTL_TXEN 1) 1
  (y.wr 0x80400000 4 0x84000000).wr 0x80400004 4 (0x10000 + len)
theorem witness_EthernetFrames_transmit : (1 : Fin 3) ≠ 2 ∧ (txRing 14).on (NET_CTL_TXEN 1) = true ∧ (txRing 14).linkState 1 = linkUp ∧ ((txRing 14).port 1).paused = false
    ∧ ((txRing 14).port 1).sending = none ∧ (txRing 14).dramUp = true ∧ (txRing 14).frameDescs 1 ((txRing 14).txSize 1) ((txRing 14).get (NET_TXHEAD_IDX 1)) = some [0]
    ∧ (txRing 14).txRefused 1 [0] = false ∧ (txRing 13).txRefused 1 [0] = true ∧ (txRing 13).domUp 0 = true
    ∧ (let y := net linkUp { Port.zero with sending := some [1], sendCount := 1 }; (y.port 1).sending = some [1] ∧ 0 < (y.port 1).sendCount) := by decide +kernel
theorem witness_EthernetFrames_pause : (let y := ((net linkUp { Port.zero with xoff := true }).put (NET_LINK_PTX 1) 1).put (NET_CTL_TXPEN 1) 1
    y.sendsPause 1 = true ∧ (y.port 1).xoff = true ∧ 1023 < 1024 * (y.put (NET_PAUSE_XON 1) 1).get (NET_PAUSE_XON 1) ∧ ¬ 1024 < 1024 * (y.put (NET_PAUSE_XON 1) 1).get (NET_PAUSE_XON 1)) := by
  decide +kernel
/-- Frames of 63, 64, 1518 and 1519 bytes to the broadcast address. -/
def wire (n : Nat) : List Nat := List.replicate 6 0xFF ++ List.replicate (n - 6) 0
/-- A receive ring of 16 descriptors at 0x8040_0000 whose first names a buffer at 0x8400_0000. -/
def rxRing (tail : Nat) : Sys :=
  let y := ((((((net linkUp Port.zero).put (NET_RXBASE_BASE 1) 0x4020000).put (NET_RXCFG_LOG2 1) 4).put (NET_RXCFG_BSZ 1) 2).put (NET_RXTAIL_IDX 1) tail).put (NET_CTL_RXEN 1) 1).put (NET_CTL_BCAST 1) 1
  y.wr 0x80400000 4 0x84000000
theorem witness_EthernetFrames_receive : lengthDrop 1 (wire 63) = some (NET_RUNT_COUNT 1) ∧ lengthDrop 1 (wire 1519) = some (NET_OVSZ_COUNT 1)
    ∧ lengthDrop 1 (wire 64) = none ∧ lengthDrop 1 (wire 1518) = none ∧ etherType (wire 64) ≠ 0x8808
    ∧ (net linkUp Port.zero).sendsPause 1 = false ∧ ((net linkUp Port.zero).put (NET_CTL_BCAST 1) 0).filterPasses 1 (wire 64) = false
    ∧ (rxRing 0).filterPasses 1 (wire 64) = true ∧ (rxRing 0).on (NET_CTL_RXEN 1) = true ∧ (rxRing 0).dramUp = true ∧ (rxRing 0).domUp (11 + 1) = true
    ∧ ((rxRing 0).get (NET_RXTAIL_IDX 1) + 2 * (rxRing 0).rxSize 1 - (rxRing 0).get (NET_RXHEAD_IDX 1)) % (rxRing 0).rxSize 1 = 0
    ∧ 1 ≤ ((rxRing 1).get (NET_RXTAIL_IDX 1) + 2 * (rxRing 1).rxSize 1 - (rxRing 1).get (NET_RXHEAD_IDX 1)) % (rxRing 1).rxSize 1
    ∧ (rxRing 1).rxBuffer 1 ≠ 0 ∧ ((wire 64).take 60).length ≤ (rxRing 1).rxBuffer 1 ∧ ringFits ((rxRing 1).rxDesc 1 0) ((rxRing 1).rxSize 1) = true
    ∧ (rxRing 1).rxValid 1 0 = true := by decide +kernel

/-! ## DMA, the arbiter and the memories -/

/-- Channel 7 in a state, with a descriptor at 0x8040_0000 of a source, a destination, a length and a control word. -/
def chan (state src dst len ctl : Nat) : Sys :=
  let y := (up.put (DMA_CHSTAT_STATE 7) state).put (DMA_CHDESC_ADDR 7) 0x4020000
  (((y.wr 0x80400000 8 src).wr 0x80400008 8 dst).wr 0x80400010 4 len).wr 0x80400014 4 ctl
/-- The same with the descriptor in work. -/
def works (src dst len ctl : Nat) : Sys :=
  let y := chan chRun src dst len ctl
  { y with dma := y.dma.set 7 ⟨some (descriptorAt y.mem 0x80400000)⟩, pwr := { y.pwr with linkUp := true } }
theorem witness_DmaChannels_go : chMissing 7 = false ∧ chMissing 8 = true ∧ chMissing 10 = false ∧ (Agent.host = .host ∧ 10 ≤ (10 : Fin 16).val) ∧ ¬ (Agent.host = .host ∧ 10 ≤ (7 : Fin 16).val)
    ∧ (chan chRun 0 0 0 0).chState 7 = chRun ∧ descArea 7 0x803FFFE0 = false ∧ (up.put (DMA_CHLK_VOID 7) 1).on (DMA_CHLK_VOID 7) = true
    ∧ (let y := chan chIdle 0x84000000 0x84001000 1 0x200
      let d := descriptorAt y.mem (32 * y.get (DMA_CHDESC_ADDR 7))
      y.chState 7 ≠ chRun ∧ descArea 7 (32 * y.get (DMA_CHDESC_ADDR 7)) = true ∧ y.on (DMA_CHLK_VOID 7) = false ∧ d.malformed = false ∧ y.outOfClass 7 d = false
        ∧ y.outOfLocker 7 d = false ∧ y.descAbsent d = false ∧ y.rangeAbsent false 0x80400000 = false ∧ y.mi.poison = []
        ∧ (y.put MEM_STAT_DRAM dramFailed).rangeAbsent false 0x80400000 = true ∧ (y.put (DMA_CHLK_LKEN 7) 1).outOfLocker 7 d = true)
    ∧ (let y := chan chIdle 0x84000000 0x84001000 0 0; (descriptorAt y.mem 0x80400000).malformed = true)
    ∧ (let y := chan chIdle 0x7FFFFFFF 0x84001000 1 0
      (descriptorAt y.mem 0x80400000).malformed = false ∧ y.outOfClass 7 (descriptorAt y.mem 0x80400000) = true) := by decide +kernel
/-- The last byte that a descriptor may move from, one from the host's memory, and one that goes on to no descriptor. -/
theorem witness_DmaChannels_work : (let y := works 0xAFFFFFFF 0x84000000 1 0x200
      ∃ d, (y.dma[(7 : Fin 16)]).desc = some d ∧ d.len < 2 ^ 24 ∧ d.malformed = false ∧ descArea 7 d.at_ = true ∧ y.descAbsent d = false ∧ y.outOfClass 7 d = false
        ∧ y.outOfLocker 7 d = false ∧ y.mi.poison = [] ∧ d.last = true ∧ y.dramGap = none ∧ y.chState 7 = chRun ∧ y.domUp 0 = true ∧ d.ssp ≠ 1 ∧ d.dsp ≠ 1
        ∧ d.dst + d.len ≤ d.src ∧ 0x31000000 ≤ d.src ∧ 0x80400000 ≤ d.dst ∧ (y.put MEM_STAT_DRAM dramFailed).descAbsent d = true)
    ∧ (let y := works 0x84000000 0x84001000 1 0; ∃ d, (y.dma[(7 : Fin 16)]).desc = some d ∧ d.last = false ∧ descArea 7 (d.next / 32 * 32) = false ∧ descArea 7 (0x8040003F / 32 * 32) = true)
    ∧ (let y := works 0 0x84001000 1 0x204
      ∃ d, (y.dma[(7 : Fin 16)]).desc = some d ∧ d.ssp = 1 ∧ y.descAbsent d = false ∧ ({ y with pwr := { y.pwr with linkUp := false } } : Sys).descAbsent d = true) := by
  refine ⟨⟨descriptorAt (works 0xAFFFFFFF 0x84000000 1 0x200).mem 0x80400000, ?_⟩, ⟨descriptorAt (works 0x84000000 0x84001000 1 0).mem 0x80400000, ?_⟩,
    ⟨descriptorAt (works 0 0x84001000 1 0x204).mem 0x80400000, ?_⟩⟩ <;> decide +kernel
theorem witness_DmaChannels_lock : up.chState 7 ≠ chRun ∧ (0x103FF : Nat) < 2 ^ 32 ∧ (0x103FF : Nat).testBit 17 = false
    ∧ ((chan chRun 0 0 0 0).chState 7 = chRun ∧ bits 1 0 10 ≠ (chan chRun 0 0 0 0).get (DMA_CHLK_LOCKER 7)
      ∧ ((chan chRun 0 0 0 0).put (DMA_CHLK_VOID 7) 1).on (DMA_CHLK_VOID 7) = true ∧ bits (2 ^ 17) 0 10 = (chan chRun 0 0 0 0).get (DMA_CHLK_LOCKER 7)
      ∧ (2 ^ 17 : Nat).testBit 16 = (chan chRun 0 0 0 0).on (DMA_CHLK_LKEN 7) ∧ (chan chRun 0 0 0 0).on (DMA_CHLK_VOID 7) = false) := by decide +kernel

/-- A configuration word with EN: the smallest ring and the largest limits of ring 0. -/
def cfg : Nat := 2 ^ 31 + 32 * 2 ^ 16 + 31 * 2 ^ 8 + 4
theorem witness_CanRings_enable : cfg < 2 ^ 32 ∧ up.on (DMA_CRCFG_EN 7 0) = false ∧ ringCfgOk 0 cfg = true ∧ ringCfgOk 1 cfg = false ∧ ringCfgOk 0 (cfg - 1) = false
    ∧ ringCfgOk 0 (cfg - 2 ^ 16) = false ∧ cfg.testBit 31 = true ∧ up.ringMayRun 7 0 (bits cfg 0 4) = false ∧ up.domUp 0 = true
    ∧ ((can roleHost normal).put (DMA_CRBASE_BASE 7 0) 0x4020000).ringMayRun 7 0 (bits cfg 0 4) = true
    ∧ (let y := ((up.put (DMA_CRCFG_EN 7 0) 1).put (DMA_CRCFG_LOG2 7 0) 4).put (DMA_CRCFG_LOW 7 0) 31 |>.put (DMA_CRCFG_HIGH 7 0) 32
      y.on (DMA_CRCFG_EN 7 0) = true ∧ bits (cfg - 2 ^ 31) 0 4 = y.get (DMA_CRCFG_LOG2 7 0) ∧ bits (cfg - 2 ^ 31) 8 5 = y.get (DMA_CRCFG_LOW 7 0)
        ∧ bits (cfg - 2 ^ 31) 16 6 = y.get (DMA_CRCFG_HIGH 7 0) ∧ (cfg - 2 ^ 31).testBit 31 = false) := by decide +kernel
/-- The rings of segment 7 over their limits by one record. -/
def ringed (r : Nat) (c : CanCtl) : Sys :=
  ((((((can roleHost c).put (DMA_CRCFG_EN 7 r) 1).put (DMA_CRCFG_LOG2 7 r) 4).put (DMA_CRCFG_LOW 7 r) 1).put (DMA_CRCFG_HIGH 7 r) 2).put (DMA_CRBASE_BASE 7 r) 0x4020000).put
    (DMA_CRTAIL_TAIL 7 r) 1
theorem witness_CanRings_drain : (let y := ringed 0 { normal with fifo := [rec1, rec1] }
    y.canOf 7 = 7 ∧ (y.canAt 7).fifo = [rec1, rec1] ∧ y.get (DMA_CRCFG_LOW 7 0) < 2 ∧ y.get (DMA_CRCFG_HIGH 7 0) ≤ 2 ∧ y.on (DMA_CRCFG_EN 7 0) = true ∧ y.dramGap = none
      ∧ y.get (DMA_CRHEAD_HEAD 7 0) ≠ y.get (DMA_CRTAIL_TAIL 7 0) % y.ringSize 7 0)
    ∧ ((ringed 0 normal).canAt 7).fifo.length ≤ (ringed 0 normal).get (DMA_CRCFG_LOW 7 0) := by decide +kernel
theorem witness_CanRings_feed : (let y := ringed 2 { normal with q1 := [rec1] }
    ((y.canAt 7).queue true).length < y.get (DMA_CRCFG_HIGH 7 2) ∧ 2 ∉ (y.canAt 7).pausing ∧ y.on (DMA_CRCFG_EN 7 2) = true ∧ y.dramGap = none ∧ y.canRole 7 = roleHost ∧ (y.canAt 7).failed = false
      ∧ y.get (DMA_CRHEAD_FETCH 7 2) ≠ y.get (DMA_CRTAIL_TAIL 7 2) % y.ringSize 7 2
      ∧ (canRecordAt y.mem (y.ringAddr 7 2 0) 2 0).refused (y.get (CAN_RATE_DRATE 7)) = false ∧ (∀ e ∈ (y.canAt 7).queue true, e.status ≠ 4))
    ∧ (let y := ringed 2 normal; let y := y.wr (y.ringAddr 7 2 0 + 4) 4 0x40
      (canRecordAt y.mem (y.ringAddr 7 2 0) 2 0).refused (y.get (CAN_RATE_DRATE 7)) = true ∧ (y.canAt 7).queue true = []) := by decide +kernel
/-- Of two requests of one class the older wins: here the lower number of one age; with both masked no request competes. -/
theorem witness_Arbitration : (up.toPhase [31, 30]).winner = some 30 ∧ (up.requester 31).stamp = none ∧ (up.requester 31).reset = false ∧ (up.requester 31).fault = false
    ∧ (∀ r, r < 32 → ((up.setWord ARB_MASK 0xFFFFFFFF).toPhase [31, 30]).competes r = false) ∧ (up.toPhase [31, 30]).competes 30 = true
    ∧ (up.put ARB_CTL_LOCK 1).on ARB_CTL_LOCK = true
    ∧ (let y := (up.put (ARB_RCFG_WAITMAX 31) 1).present 31
      (y.requester 31).stamp.isSome = true ∧ (y.requester 31).waitMax ≠ 0 ∧ y.bit ARB_MASK_MASK 31 = false)
    ∧ (0xFFFFFFFF : Nat) < 2 ^ 32 ∧ up.on ARB_CTL_LOCK = false ∧ (up.requester 31).stamp.isSome = false := by decide +kernel
/-- Semaphore 63 with an owner. -/
def owned (o : Option Nat) : Sys := { up with arb := { up.arb with semaphores := [(63, ⟨o, false⟩)] } }
theorem witness_Semaphores : ((owned (some (agentId .host))).semaphore 63).owner = some (agentId .host) ∧ ((owned (some (agentId .host))).semaphore 63).owner ≠ some (agentId .mgmt)
    ∧ ((owned none).semaphore 63).owner = none ∧ ((owned (some 31)).semaphore 63).owner = some 31 ∧ 31 < 32 ∧ (∀ i, i < 2 → up.peerUp (regDomain (ARB_SEMH i)) = true) := by decide +kernel

/-- One wrong byte is corrected in mode C1 (R350), two are only in mode C2, five in none. -/
theorem witness_MemoryIntegrity_decode : (match rsDecode false (faultBytes [1]) with | .corrected es => es | _ => []) = [(0, 1#8)]
    ∧ (match rsDecode false (faultBytes [1, 1]) with | .uncorrectable => true | _ => false) = true
    ∧ (match rsDecode true (faultBytes [1, 1]) with | .corrected es => es.length | _ => 0) = 2 := by decide +kernel
theorem witness_MemoryIntegrity_scrub : up.scrubs memDram = true ∧ (0x37FFFFC0 : Nat) < lastScrubbed memDram ∧ 0x37FFFFE0 = lastScrubbed memDram ∧ lastScrubbed memDram < 0x38000000
    ∧ (up.put MEM_STAT_DRAM dramFailed).scrubs memDram = false ∧ (∀ i, i < 36 → nth 0 ([] : List Nat) i % 256 = 0) ∧ 0x80000000 ∉ up.mi.poison ∧ up.mi.poison.length < 64
    ∧ up.scrubs memCtl = true ∧ ctlRegion 0xFFFE0 = 1 ∧ ctlRegion 0x100000 = 2 ∧ up.domUp 0 = true
    ∧ (cyc three).scrubs 1 = true ∧ (cyc three).runs 0 = true ∧ rsDecode (up.modeC2 memDram) (faultBytes [1, 1, 1]) = .uncorrectable := by decide +kernel
/-- Copies of the last page, row and sector under way, and every spare used up. -/
def repairing : Sys :=
  { up with mi := { up.mi with pageCopies := [⟨258047, 4095, 0, false⟩], rowCopies := [⟨8192 * 3 + 8191, 63, 3, false⟩], sectorCopies := [⟨3839, 255, 0, true⟩] } }
theorem witness_MemoryIntegrity_copies : (let y := repairing
    (y.mi.pageCopies.find? fun r => r.target == 258047) = some ⟨258047, 4095, 0, false⟩ ∧ 258047 < 258048 ∧ y.mi.poison.length + [0, 127].length ≤ 64
      ∧ (y.mi.rowCopies.find? fun r => r.target == 8192 * (3 : Fin 4).val + 8191) = some ⟨8192 * 3 + 8191, 63, 3, false⟩ ∧ 8191 < 8192
      ∧ (y.mi.sectorCopies.find? fun r => r.target == 3839) = some ⟨3839, 255, 0, true⟩ ∧ 3839 < 3840
      ∧ y.mi.pages.length < 4096 ∧ (∀ e ∈ y.mi.rows, e.1 < 32768 ∧ e.2 < 64) ∧ (∀ r ∈ y.mi.rowCopies, r.spare < 64) ∧ (∀ e ∈ y.mi.wear ++ y.mi.writes, e.1 < 4096)
      ∧ (y.mi.writes.map Prod.fst).Nodup) := by decide +kernel
theorem witness_MemoryIntegrity_forced : (∀ x ∈ [(2 ^ 30 + 258047, 1, 258047), (2 * 2 ^ 30 + 3 * 2 ^ 28 + 8191, 2, 8191), (3 * 2 ^ 30 + 3839, 3, 3839)],
      bits x.1 30 2 = x.2.1 ∧ bits x.1 0 18 = x.2.2)
    ∧ up.mi.pageCopies = [] ∧ up.mi.rowCopies = [] ∧ up.mi.sectorCopies = [] ∧ freeOf 4096 up.mi.pagesUsed = some 0 ∧ freeOf 256 up.mi.sectorsUsed = some 0
    ∧ ((List.range 64).find? fun k => !up.mi.rowsUsed.contains (64 * (3 : Fin 4).val + k)) = some 0
    ∧ freeOf 256 (List.range 256) = none ∧ up.servedPage 4095 = none ∧ ({ up with mi := { up.mi with pages := [(258047, 4095)] } } : Sys).servedPage 4095 = some 258047 ∧ vitalPage 1024 = false ∧ (∀ k, k < 64 → 64 * (3 : Fin 4).val + k ∈ (List.range 64).map (64 * 3 + ·))
    ∧ (bits (2 * 2 ^ 30 + 8192) 30 2 = 2 ∧ 8192 ≤ bits (2 * 2 ^ 30 + 8192) 0 18) ∧ (bits (3 * 2 ^ 30 + 3840) 30 2 = 3 ∧ 3840 ≤ bits (3 * 2 ^ 30 + 3840) 0 18) := by decide +kernel

/-! ## Clocks, power, the cellar -/

/-- The clocks as a start leaves them: every PLL enabled and locked, every mux on its PLL. -/
def clk : Sys := (((cyc three).put CLK_GATE_PLLEN 31).put CLK_STAT_LOCKED 31).put CLK_CTL_LOCK 0
theorem witness_ClockCommands_meter : (up.put CLK_FMCTL_BUSY 1).on CLK_FMCTL_BUSY = true ∧ up.on CLK_FMCTL_BUSY = false ∧ (0 : Nat) % 65536 = 0 ∧ 65535 % 65536 ≠ 0 := by decide +kernel
theorem witness_ClockCommands_gates : orphanGate 0x001E1F0F (clk.get CLK_GATE_LANE) = true ∧ (orphanGate 0x001F1F0F (clk.get CLK_GATE_LANE) = false ∧ clk.cutsMux 0x001F1F0F = false ∧ 0x001F1F0F < 2 ^ 32)
    ∧ clk.cutsMux 0x001E0000 = true ∧ (clk.put CLK_STAT_LOCKED 30).get CLK_STAT_LOCKED = 30 ∧ (2 ^ 31 + 7 : Nat) < 2 ^ 32 := by decide +kernel
theorem witness_ClockCommands_mux : clk.bit CLK_STAT_SWPEND 2 = false
    ∧ (let y := (clk.putBit CLK_STAT_SWPEND 2 true).setWord CLK_CTL 4
      y.bit CLK_STAT_SWPEND 2 = true ∧ (y.word CLK_CTL).testBit 2 = true ∧ (y.setWord CLK_CTL 0).bit CLK_STAT_SWPEND 2 = true ∧ ((y.setWord CLK_CTL 0).word CLK_CTL).testBit 2 = false ∧ 0 ∉ y.clk.missing)
    ∧ (2 : Fin 3) ≠ 0 := by decide +kernel
theorem witness_ClockCommands_missing : (∀ k : Fin 7, k.val ∉ clk.clk.missing ∧ clk.pwr.inReset = false ∧ clk.pwr.standby ≠ 3 ∧ clk.domUp 0 = true)
    ∧ (let y := { clk with clk := { clk.clk with missing := [0, 4], watchdogAt := some 5 } }
      0 ∈ y.clk.missing ∧ 4 ∈ y.clk.missing ∧ y.clk.watchdogAt ≠ none ∧ y.bit CLK_STAT_SEL 1 = true ∧ y.bit CLK_STAT_SEL 2 = true ∧ y.clk.crystalDead = false) ∧ clk.clk.watchdogAt = none
    ∧ ({ clk with clk := { clk.clk with crystalDead := true } } : Sys).clk.crystalDead = true := by decide +kernel
theorem witness_ClockCommands_pll : (clk.bit CLK_GATE_PLLEN 4 = true ∧ clk.bit CLK_STAT_LOCKED 4 = true) ∧ up.bit CLK_GATE_PLLEN 4 = false
    ∧ (let y := clk.putBit CLK_STAT_LOCKED 4 false; y.bit CLK_GATE_PLLEN 4 = true ∧ y.bit CLK_STAT_LOCKED 4 = false ∧ y.domUp 0 = true ∧ 4 ∉ y.clk.badPlls)
    ∧ 2 ∈ ({ clk with clk := { clk.clk with badPlls := [2] } } : Sys).clk.badPlls := by decide +kernel
/-- A budget of one clock more than fits at operating point 3. -/
theorem witness_ClockCommands_op : (up.put PWR_OP_BUSY 1).on PWR_OP_BUSY = true ∧ clk.on PWR_OP_BUSY = false ∧ clk.pwr.standby = 0
    ∧ budgetFits clk.prog.budget 3 clk.ang.phg clk.ang.phc = true ∧ clk.cycling = true ∧ up.cycling = false ∧ clk.prog.active = true
    ∧ (let y := { clk with prog := { clk.prog with budget := laneClock 3 * (clk.ang.phc - clk.ang.phg) / (65 * 65536) + 1 } }
      y.prog.active = true ∧ budgetFits y.prog.budget 3 y.ang.phg y.ang.phc = false)
    ∧ ({ clk with pwr := { clk.pwr with opPending := some (3, 9) } } : Sys).pwr.opPending = some (3, 9)
    ∧ ({ clk with pwr := { clk.pwr with opRunning := some (0, 3) } } : Sys).pwr.opRunning = some (0, 3) := by decide +kernel

/-- The part with its power record changed. -/
def pow (f : Power → Power) : Sys := { clk with pwr := f clk.pwr }
theorem witness_SuppliesAndResets_supply : (let y := pow fun p => { p with inReset := true }; y.pwr.inReset = true ∧ y.pwr.heldByRail = false)
    ∧ (clk.on PWR_VMON_PFW = false ∧ clk.pwr.inReset = false ∧ clk.domUp 0 = true ∧ clk.flushDue = false)
    ∧ (let y := ((clk.put MET_CTL_FLUSHEN 1).put MET_STAT_FE feRun); y.flushDue = true ∧ y.runs 0 = true ∧ y.runs 3 = false)
    ∧ (clk.put MET_STAT_FE feRun).get MET_STAT_FE = feRun ∧ clk.get MET_STAT_FE ≠ feRun
    ∧ (let y := clk.putBit KEY_STAT_TLIVE 3 true; y.on CEL_STAT_SRC = false ∧ y.bit KEY_STAT_TLIVE 3 = true) ∧ (clk.put CEL_STAT_SRC 1).on CEL_STAT_SRC = true
    ∧ (let y := (clk.put PWR_VMON_PFW 1).put MET_STAT_FE feFrozen; y.on PWR_VMON_PFW = true ∧ y.fe.flushing = false ∧ y.get MET_STAT_FE = feFrozen)
    ∧ (pow fun p => { p with inReset := true, heldByRail := true }).pwr.heldByRail = true := by decide +kernel
theorem witness_SuppliesAndResets_domains : (7 : Fin 8) ≠ 0 ∧ 7 ∈ commandDomains ∧ (14 : Fin 16).val ∉ commandDomains ∧ 13 ∈ commandDomains ∧ 14 ∉ commandDomains
    ∧ (let y := pow fun p => { p with started := true, cmdReset := [13] }
      13 ∈ y.pwr.cmdReset ∧ (({ y with pwr := { y.pwr with cmdReset := [] } } : Sys).setWord PWR_RAIL 0xFF).mayRun 13 = true ∧ 13 < 15 ∧ 7 ∉ y.pwr.cmdReset)
    ∧ (let y := (pow fun p => { p with started := true, perstHigh := true }).setWord PWR_RAIL 0xFF; y.mayRun 14 = true ∧ y.pwr.perstHigh = true ∧ y.pwr.inReset = false) := by decide +kernel
/-- A standby request that each reason refuses and one that none does. -/
theorem witness_StandbyAndStart_request : (up.put PWR_CTL_SBEN 0).standbyReason = 1 ∧ up.pwr.standby = 0 ∧ up.domUp 0 = true
    ∧ (let y := (up.put PWR_CTL_SBEN 1).put PWR_SBCFG_RTCALM 1; y.standbyReason = 0 ∧ y.cycling = false)
    ∧ (let y := (clk.put PWR_CTL_SBEN 1).put PWR_SBCFG_RTCALM 1; y.standbyReason = 0 ∧ y.cycling = true) ∧ (pow fun p => { p with standby := 1 }).pwr.standby ≠ 0 := by decide +kernel
theorem witness_StandbyAndStart_wake : (let y := (pow fun p => { p with standby := 3 }).put ⟨PWR_SBCFG, 0, 3⟩ 4
      y.pwr.wakeHeld = none ∧ y.pwr.standby = 3 ∧ 1 ≤ (3 : Fin 4).val ∧ y.bit ⟨PWR_SBCFG, 0, 3⟩ ((3 : Fin 4).val - 1) = true ∧ y.bit ⟨PWR_SBCFG, 0, 3⟩ 0 = false)
    ∧ (pow fun p => { p with standby := 3, wakeHeld := some 15 }).pwr.wakeHeld = some 15 ∧ (pow fun p => { p with standby := 1 }).pwr.standby ≠ 3
    ∧ (pow fun p => { p with standby := 1 }).pwr.standby ≠ 0 ∧ (pow fun p => { p with standby := 1 }).pwr.wakeHeld = none
    ∧ (∀ g : Fin 8, up.get (CAN_STAT_ROLE g.val) = (canSegment up.image g).1)
    ∧ (clk.crystalOk 24293 = true ∧ clk.crystalOk 24292 = false ∧ clk.crystalOk 24536 = true ∧ clk.crystalOk 24537 = false ∧ clk.get CLK_GATE_PLLEN = 31) := by decide +kernel
theorem witness_StandbyAndStart_start : up.pwr.inReset = false ∧ up.pwr.started = false ∧ up.domUp 0 = true ∧ up.crystalOk 24414 = true ∧ up.pwr.standby = 0 ∧ up.pwr.cmdReset = []
    ∧ up.pwr.stopped = false ∧ (pow fun p => { p with started := true }).pwr.started = true ∧ (up.put SYS_FUSE_RETIRE 8).bit SYS_FUSE_RETIRE 3 = true
    ∧ (([24292, 24292, 24414, 24414] : List Nat).take 3).any up.crystalOk = true ∧ (([24292, 24537, 0, 24414] : List Nat).take 3).any up.crystalOk = false ∧ up.prog.active = false := by
  decide +kernel

/-- The RTC set, with a change of its record. -/
def rtc (f : Rtc → Rtc) : Sys := let y := up.put RTC_STAT_VALID 1; { y with rtc := f y.rtc }
theorem witness_CellarAndRtc_commands : ((rtc id).put RTC_STAT_BUSY 1).on RTC_STAT_BUSY = true ∧ (rtc id).on RTC_STAT_BUSY = false ∧ up.on RTC_STAT_VALID = false
    ∧ 16384 < (sint 16 (((rtc id).put RTC_SHIFT_K 16385).get RTC_SHIFT_K)).natAbs
    ∧ (let y := (rtc id).put RTC_SHIFT_K 49152
      ¬ (y.on RTC_STAT_VALID = false ∨ 16384 < (sint 16 (y.get RTC_SHIFT_K)).natAbs ∨ y.on RTC_STAT_SHPEND = true))
    ∧ ((rtc id).word RTC_ALMR = 0 ∧ (rtc id).word RTC_ALMS ≤ (rtc id).rtc.sec)
    ∧ (let y := (rtc id).setWord RTC_ALMS 1; ¬ (y.on RTC_STAT_VALID = false ∨ (y.word RTC_ALMR = 0 ∧ y.word RTC_ALMS ≤ y.rtc.sec)))
    ∧ ((rtc id).put RTC_PER_P 1).get RTC_PER_P ≠ 0 := by decide +kernel
/-- The writes that cross into the cellar. -/
theorem witness_CellarAndRtc_effect : (∀ v ∈ [1, 2, 4, 8, 16, 32], let y := (rtc fun r => { r with write := some ⟨RTC_CMD, v, 7, 32767⟩ }).setWord RTC_ALMS 5
      y.rtc.write = some ⟨RTC_CMD, v, 7, 32767⟩ ∧ y.domUp 0 = true ∧ (y.passTicks 2).armRefused = false
        ∧ ¬ (y.on RTC_ALMST_ARMED = true ∧ y.word RTC_ALMNEXT ≤ (y.passTicks 2).rtc.sec ∧ (y.passTicks 2).rtc.skipped = 0))
    ∧ (let y := (rtc fun r => { r with write := some ⟨RTC_CMD, 4, 7, 0⟩ }); (y.passTicks 2).armRefused = true)
    ∧ (let y := (((rtc fun r => { r with write := some ⟨RTC_CMD, 1, 7, 0⟩ }).put RTC_ALMST_ARMED 1).setWord RTC_ALMNEXT 7)
      y.on RTC_STAT_VALID = true ∧ (y.passTicks 2).rtc.sec < 7 ∧ y.on RTC_ALMST_ARMED = true ∧ y.word RTC_ALMNEXT ≤ 7 ∧ ¬ y.word RTC_ALMNEXT ≤ (y.passTicks 2).rtc.sec)
    ∧ (let y := (rtc fun r => { r with write := some ⟨RTC_CMD, 1, 7, 0⟩ }).put RTC_ALMST_ARMED 1
      y.on RTC_ALMST_ARMED = true ∧ y.word RTC_ALMNEXT ≤ (y.passTicks 2).rtc.sec ∧ (y.passTicks 2).rtc.skipped = 0 ∧ y.pwr.inReset = false)
    ∧ (rtc fun r => { r with write := some ⟨RTC_ALMR, 9, 0, 0⟩ }).rtc.write = some ⟨RTC_ALMR, 9, 0, 0⟩ := by decide +kernel
theorem witness_CellarAndRtc_events : (∀ k ∈ [(-16384 : Int), 0, 16384], (rtc fun r => { r with shift := some k }).rtc.shift = some k)
    ∧ (let y := (rtc fun r => { r with sub := 32767 }); y.rtc.comp = 0 ∧ y.rtc.acc < 2 ^ 32 ∧ y.lfxo < 390625 ∧ y.rtc.sub < 32768)
    ∧ (∀ n ∈ [0, 1], let y := (rtc fun r => { r with skipped := n }).put RTC_ALMST_ARMED 1; y.on RTC_ALMST_ARMED = true ∧ y.domUp 0 = true ∧ y.rtc.skipped = n)
    ∧ (let y := rtc fun r => { r with wrapped := true }; y.rtc.sec ≠ 2 ^ 32 - 1 ∧ y.rtc.wrapped = true ∧ y.domUp 0 = true)
    ∧ (let y := rtc fun r => { r with sec := 2 ^ 32 - 1, sub := 32767 }; (y.gainTicks (32768 - y.rtc.sub)).rtc.wrapped = true)
    ∧ (let y := rtc fun r => { r with sec := 86399, sub := 32767 }
      let z := y.gainTicks (32768 - y.rtc.sub)
      y.rtc.sec / 86400 = y.rtc.day ∧ y.rtc.sec % 86400 = 86399 ∧ z.rtc.sec / 86400 ≠ z.rtc.day)
    ∧ (rtc id).rtc.sec / 86400 = (rtc id).rtc.day ∧ ((rtc id).put RTC_PER_PEREN 1).on RTC_PER_PEREN = true ∧ ((rtc id).put RTC_CTL_TCEN 0).on RTC_CTL_TCEN = false
    ∧ ((rtc id).put RTC_CTL_TCEN 1).on RTC_CTL_TCEN = true := by decide +kernel
theorem witness_CellarAndRtc_cell : (let y := (up.put MGT_STAT_FWRUN 1).put CEL_CLOW_MV 2500
    y.on MGT_STAT_FWRUN = true ∧ y.domUp 0 = true ∧ 2499 < y.get CEL_CLOW_MV ∧ ¬ 2500 < y.get CEL_CLOW_MV ∧ 2599 < y.get CEL_CLOW_MV + 100 ∧ y.get CEL_CLOW_MV + 100 ≤ 2600)
    ∧ up.on MGT_STAT_FWRUN = false := by decide +kernel

/-! ## Keys, fuses, owners, updates -/

/-- The key store with its buffers at the ends of the management SRAM, and bytes to take. -/
def key (slen dlen : Nat) (input : List Nat) : Sys :=
  let y := (((up.setWord KEY_SRC 0x10000000).setWord KEY_DST (0x10100000 - dlen)).put KEY_SLEN_LEN slen).put KEY_DLEN_LEN dlen
  { y with mem := memPutBytes y.mem 0x10000000 input }
/-- A slot given a state, a kind, a parent and a key. -/
def slot (n state kind parent : Nat) (k : KeySlot) (y : Sys) : Sys :=
  let y := ((y.put (KEY_SLOT_STATE n) state).put (KEY_SLOT_KIND n) kind).put (KEY_SLOT_PARENT n) parent
  { y with keys := { y.keys with slots := (n, k) :: y.keys.slots } }
/-- The base point's coordinates: the public key of the private key 1. -/
def base : List Nat := bytesBE 32 p256Gx ++ bytesBE 32 p256Gy
theorem witness_KeyStore_buffers : (key 64 32 []).keys.running = none ∧ inMgmtSram ((key 64 32 []).word KEY_SRC) 64 = true ∧ inMgmtSram ((key 64 32 []).word KEY_DST) 32 = true
    ∧ inMgmtSram ((key 64 32 []).word KEY_DST) 33 = false ∧ (key 64 4096 []).get KEY_DLEN_LEN = 4096 ∧ (key 160 0 []).get KEY_SLEN_LEN = 160 ∧ (key 1 1 []).keys.trngFailed = false := by decide +kernel
theorem witness_KeyStore_derive : (let y := (slot 0 slotValid 0 0 ⟨9, []⟩ (key 1 0 [])).put KEY_STAT_ROOT rootCellar
    y.get (KEY_SLOT_STATE 0) = slotValid ∧ y.get (KEY_SLOT_KIND 0) ∈ [0, 1, 2] ∧ y.get KEY_STAT_ROOT ≠ rootNone ∧ 1 ≤ y.get KEY_SLEN_LEN) := by decide +kernel
theorem witness_KeyStore_ecdh : (let y := slot 31 slotValid 3 0 ⟨1, []⟩ (key 64 0 base)
    y.get (KEY_SLOT_STATE 31) = slotValid ∧ y.get (KEY_SLOT_KIND 31) ∈ [3] ∧ y.get KEY_SLEN_LEN = 64 ∧ ecdhShared (y.slotKey 31).key y.keyInput = some (bytesBE 32 p256Gx)) := by decide +kernel
/-- The empty message under the key of zeros, with its tag as the GCM specification's test case 13 gives it, and with another. -/
def gcmTag13 : List Nat := [0x53, 0x0f, 0x8a, 0xfb, 0xc7, 0x45, 0x36, 0xb9, 0xa9, 0x63, 0xb4, 0xf1, 0xc4, 0xcb, 0x73, 0x8b]
def gcm (slen dlen : Nat) (tag : List Nat) : Sys := slot 1 slotValid 1 0 ⟨0, []⟩ (key slen dlen (List.replicate 16 0 ++ tag))
set_option maxRecDepth 100000 in
theorem test_gcm13 : gcmTag (List.replicate 32 0) (List.replicate 12 0) [] [] = gcmTag13 := by decide +kernel
theorem witness_KeyStore_gcm_sizes : ((gcm 16 16 []).get (KEY_SLOT_STATE 1) = slotValid ∧ (gcm 16 16 []).get (KEY_SLOT_KIND 1) ∈ [1] ∧ (gcm 16 16 []).gcmFits 0 16 = true
      ∧ (gcmParts (gcm 16 16 []).keyInput).2.2.length + 16 ≤ 16)
    ∧ (gcm 32 0 gcmTag13).gcmFits 16 32 = true ∧ (gcmParts (gcm 32 0 gcmTag13).keyInput).2.2.length - 16 ≤ 0 := by decide +kernel
/-- What GCMDEC takes of those two inputs: the key, the nonce, no more, and the tag. -/
theorem gcm_parts : ∀ tag ∈ [gcmTag13, List.replicate 16 0], (gcm 32 0 tag).keyBytes 1 = List.replicate 32 0
    ∧ gcmParts (gcm 32 0 tag).keyInput = (List.replicate 12 0, [], tag) ∧ tag.length = 16 := by decide +kernel
theorem witness_KeyStore_gcm : ∀ tag ∈ [gcmTag13, List.replicate 16 0],
    (let y := gcm 32 0 tag
      let p := gcmParts y.keyInput
      (gcmDecrypt (y.keyBytes 1) p.1 p.2.1 (p.2.2.take (p.2.2.length - 16))).2 = p.2.2.drop (p.2.2.length - 16)) ↔ tag = gcmTag13 := by
  intro tag h
  obtain ⟨hk, hp, hl⟩ := gcm_parts tag h
  simp only [hk, hp, hl, Nat.sub_self, List.take_zero, List.drop_zero, gcmDecrypt, test_gcm13]
  exact eq_comm
theorem witness_KeyStore_hitload : (let y := slot 4 slotValid 0 0 ⟨3, hitilInfo⟩ (slot 5 slotValid 2 4 ⟨7, []⟩ (key 2 0 [0xFF, 4]))
    y.get (KEY_SLOT_STATE 5) = slotValid ∧ y.get (KEY_SLOT_KIND 5) ∈ [0, 1, 2] ∧ y.get KEY_SLEN_LEN = 2 ∧ numLE y.keyInput = 1279 ∧ hitEntryOk 1279 = true ∧ hitEntryOk 1280 = false
      ∧ y.underHit 5 32 = true) := by decide +kernel
theorem witness_KeyStore_refused : ({ up with keys := { up.keys with running := some (0x0704, 0x10000000, 32) } } : Sys).keys.running.isSome = true ∧ 0x0704 < 65536 ∧ up.domUp 0 = true
    ∧ ({ up with keys := { up.keys with trngFailed := true } } : Sys).keys.trngFailed = true ∧ up.get KEY_STAT_ROOT = rootNone
    ∧ up.get (KEY_SLOT_STATE 30) = slotEmpty ∧ (∀ k ∈ [1, 2], let y := slot 30 slotRevoked k 0 ⟨0, []⟩ up; y.get (KEY_SLOT_STATE 30) = slotRevoked ∧ y.get (KEY_SLOT_KIND 30) = k) := by decide +kernel

/-- A burn under way in the shipped fuses, whose word 4 is 3: lane 0's retirement, read back whole and read back without it; and one of word 0. -/
theorem witness_FusesAndTamper : ({ up with keys := { up.keys with burning := some (4, 8) } } : Sys).keys.burning = some (4, 8) ∧ up.keys.burning = none ∧ up.burnRefused 64 0 = true
    ∧ up.burnRefused 4 8 = false ∧ (fuseWord State.reset.fuses 4 ||| 8 = 11 ∧ 11 < 2 ^ 32 ∧ 8 &&& retireBits ≠ 0 ∧ (8 : Nat).testBit 3 = true) ∧ (3 : Nat) ≠ 11
    ∧ blown [(4, 11)] 4 3 = true ∧ blown State.reset.fuses 4 3 = false
    ∧ (fuseWord State.reset.fuses 0 ||| 1 = 1 ∧ ¬ ((0 : Nat) = 4 ∧ 1 &&& retireBits ≠ 0))
    ∧ (up.tamperEnabled 0 = false ∧ up.tamperEnabled 5 = true ∧ up.darkNow = false ∧ (pow fun p => { p with standby := 3 }).darkNow = true ∧ up.domUp 0 = true)
    ∧ up.rtc.root = 0 ∧ (rtc fun r => { r with root := 9 }).rtc.root ≠ 0 ∧ retireLanes 8 = [0] ∧ up.vot.flushDue = false
    ∧ (∀ m, (up.put (VOT_LSTAT_STATE 1) laneRetired).laneState m = laneRetired → m ∉ up.vot.shelfQueue ∧ m ∉ up.vot.waiting ∧ ∀ q ∈ up.vot.reint, q.target ≠ m) := by decide +kernel

/-- The update path in a state and with the pantry in one, with arguments and a buffer of bytes. -/
def upd (state pantry : Nat) (args buf : List Nat) : Sys :=
  let y := (up.put UPD_STAT_STATE state).put UPD_STAT_PANTRY pantry |>.put UPD_STAT_FW 1
  let y := (List.zip (List.range 8) args).foldl (fun y x => y.setWord (UPD_ARG x.1) x.2) y
  (List.range ((buf.length + 3) / 4)).foldl (fun y k => y.setWord (UPD_BUF k) (numLE ((buf.drop (4 * k)).take 4))) y
/-- An owner message; its signature is (e, e) for e its digest, and the owner's key is that of R − G for R the point whose x is e. -/
def ownerBody (type counter : Nat) (payload : List Nat) : List Nat :=
  bytesLE 4 0x100 ++ bytesLE 2 type ++ bytesLE 2 payload.length ++ bytesLE 8 0 ++ bytesLE 4 0 ++ bytesLE 4 counter ++ payload
/-- A part whose owner's key and fuses make a message in its buffer genuine. -/
def owned_ (pub : Nat) (body : List Nat) (sig : Nat) : Sys :=
  let y := upd updRun pantryEmpty [body.length + 64] (body ++ bytesBE 64 sig)
  { y with loft := { y.loft with ownpub := pub } }
def ownFuses (hash : Nat) : List (Nat × Nat) := (List.range 8).map fun i => (16 + i, bits hash (32 * i) 32)
def pub5 : Nat := 12154612428461141332112293463509085904994617563924002133565077515518272486540049017200177380761800076406998165758032152579510965819167009828006632866525713
def sig5 : Nat := 12827865337699863647657772361142217406934883286400356960964663443930248277987447035217970192414442928684062721690602582013724645467229240340565976967259911
def hash5 : Nat := 111001149049484911094868142775531446002829294456605611864279506023361707823775
theorem witness_OwnersAndTickets_owner5 : (let y := (owned_ pub5 (ownerBody 5 2 [1, 0, 0, 0]) sig5).put SYS_FUSE_OWNLOCK 1
    let n := y.arg 0
    y.mbxGate true = .open ∧ y.domUp 0 = true ∧ 1 ≤ n ∧ n ≤ 1024 ∧ (ownerMsg (y.bufBytes (Nat.min n 1024))).type = 5
      ∧ y.ownerCode (ownFuses hash5) (ownerMsg (y.bufBytes (Nat.min n 1024))) n = 0 ∧ (y.mirrorFuses (ownFuses hash5)).variantD = false) := by decide +kernel
theorem witness_OwnersAndTickets_refused : (let y := (owned_ 0 (ownerBody 4 2 [1, 0, 0, 0]) sig5)
    y.mbxGate true = .open ∧ (ownerMsg (y.bufBytes (Nat.min (y.arg 0) 1024))).type = 4 ∧ y.ownerCode (ownFuses hash5) (ownerMsg (y.bufBytes (Nat.min (y.arg 0) 1024))) (y.arg 0) ≠ 0) := by decide +kernel
def pubT : Nat := 7851014354049520198563974774426776642055770761345106267175826589907152394217751730667104371949848166532975966760032753640681475437416852909568792488434264
def sigT : Nat := 11664730891073771231351661122669685059809953667360965495808428850979183133196492680729911985293127439224962785532078077450175316084791104510275960026064336
def hashT : Nat := 93902483319666496034746251297029151976690707529475507474344702194631589887956
/-- A ticket for locker 0 over all three paths, until second 2. -/
def ticketed (path : Nat) : Sys :=
  let y := (upd updRun pantryEmpty [path + 7 * 256] (bytesLE 4 0x100 ++ bytesLE 4 0x390000 ++ bytesLE 8 0 ++ bytesLE 4 2 ++ List.replicate 44 0 ++ bytesBE 64 sigT)).put RTC_STAT_VALID 1
  { y with loft := { y.loft with ownpub := pubT } }
theorem witness_OwnersAndTickets_portal : targetOk ((ticketed pathPortal).arg 0) = true ∧ (ticketed pathPortal).ticketReason (ownFuses hashT) ((ticketed pathPortal).bufBytes 128) pathPortal = 0
    ∧ (ticketed pathPortal).ticketReason (ownFuses hash5) ((ticketed pathPortal).bufBytes 128) pathPortal = 3 := by decide +kernel
theorem witness_OwnersAndTickets_channel : (let y := ticketed pathChannel
    targetOk (y.arg 0) = true ∧ y.ticketReason (ownFuses hashT) (y.bufBytes 128) pathChannel = 0 ∧ y.chState 7 ≠ chRun ∧ (y.put (DMA_CHSTAT_STATE 7) chRun).chState 7 = chRun) := by decide +kernel
theorem witness_OwnersAndTickets_cursor : targetOk ((ticketed pathCursor).arg 0) = true ∧ (ticketed pathCursor).ticketReason (ownFuses hashT) ((ticketed pathCursor).bufBytes 128) pathCursor = 0
    ∧ targetOk (pathCursor + 8 * 256) = false := by decide +kernel
theorem witness_OwnersAndTickets_bound : up.bindingOf pathChannel 7 = none ∧ (let y := { up with lck := { up.lck with bindings := [⟨2, 7, 5, 9⟩] } }; y.bindingOf pathChannel 7 = some (5, 9) ∧ y.domUp 0 = true)
    ∧ (portal 9).bindingOf pathPortal 15 = some (9, 0) ∧ 15 < 16 := by decide +kernel
/-- Ranges at the ends of the data store: the largest size, one more, and one that leaves it. -/
theorem witness_OwnersAndTickets_ranges : (let y := up.setWord (LCK_RNGS 63) 11264
      y.rangeBad 63 (0x8400 * 65536 + 0x8000) (y.word (LCK_RNGS 63)) = false ∧ y.rangeBad 63 (0x8401 * 65536 + 0x8000) (y.word (LCK_RNGS 63)) = true)
    ∧ bits 11264 0 14 ≠ 0 ∧ bits 11264 0 14 ≤ 11264 ∧ up.rangeBad 63 (up.word (LCK_RNGA 63)) 11264 = false ∧ 11264 < bits 11265 0 14 ∧ bits 0 0 14 = 0 := by decide +kernel

theorem witness_UpdateSession_gate : (upd updRun pantryEmpty [] []).mbxGate false = .open ∧ (upd updRun pantryEmpty [0x52535421] []).arg 0 = 0x52535421 ∧ (upd updRun pantryEmpty [] []).mbxGate true = .open
    ∧ ((upd updRun pantryEmpty [] []).put UPD_RES_BUSY 1).mbxGate false = .busy ∧ ((upd updRun pantryEmpty [] []).put UPD_RES_BUSY 1).mbxGate true = .busy
    ∧ ((upd updRun pantryEmpty [] []).put UPD_STAT_FW 0).mbxGate true = .early ∧ up.domUp 0 = true
    ∧ up.get UPD_STAT_STATE = updBoot ∧ up.pwr.standby ≠ 3 ∧ targetOk ((upd updRun pantryEmpty [7] []).arg 0) = false ∧ 1024 < (upd updRun pantryEmpty [1025] []).arg 0
    ∧ (upd updRun pantryEmpty [] []).activateOk = false
    ∧ (let y := (pow fun p => { p with standby := 3 }).put PWR_SBCFG_HOSTDB 1; y.pwr.standby = 3 ∧ y.get PWR_SBCFG_HOSTDB ≠ 0 ∧ y.on UPD_RES_BUSY = false
      ∧ (y.put PWR_SBCFG_HOSTDB 0).get PWR_SBCFG_HOSTDB = 0) := by decide +kernel
/-- The largest write at the pantry's end and one past it; the longest part and one longer. -/
theorem witness_UpdateSession_commands : (upd updRun pantryEmpty [] []).openOk = true ∧ (upd updRun pantryOpen [] []).openOk = false
    ∧ (upd updRun pantryOpen [0x3FF8000, 0x8000] []).writeOk = true ∧ (upd updRun pantryOpen [0x3FF8020, 0x8000] []).writeOk = false
    ∧ ((upd updRun pantryOpen [] []).pantry = pantryOpen ∧ (upd updRun pantryOpen [] []).on UPD_CTL_PERPART = false ∧ (upd updRun pantryOpen [] []).dramUp = true)
    ∧ (upd updRun pantryInUse [] []).pantry = pantryInUse
    ∧ (let y := (upd updRun pantryOpen [3, 0x400000] []).put UPD_CTL_PERPART 1
      y.partOk = true ∧ partLenOk 3 (y.arg 1) = true ∧ (y.wr (pantryBase + slotOf 3) 4 0x100).rd (pantryBase + slotOf 3) 4 = 0x100 ∧ y.rd (pantryBase + slotOf 3) 4 ≠ 0x100)
    ∧ ((upd updRun pantryOpen [3, 0x400001] []).put UPD_CTL_PERPART 1).partOk = false := by decide +kernel
theorem witness_UpdateSession_done : (∀ op ∈ [1, 3, 4], ∀ r ∈ [0, 0x0809], let y := (upd updRun pantryVerifying [] []).put UPD_RES_BUSY 1
      let y := { y with upd := { y.upd with running := some op, result := r } }
      y.upd.running = some op ∧ y.upd.asleep = false ∧ y.on UPD_RES_BUSY = true ∧ y.domUp 0 = true ∧ y.upd.result = r)
    ∧ (let y := upd updLoading pantryInUse [] []; y.activateEnded = false ∧ y.on UPD_RES_BUSY = false ∧ y.upd.running = none)
    ∧ (let y := upd updRun pantryEmpty [] []; y.activateEnded = true ∧ (y.put UPD_CTL_LOCK 1).on UPD_CTL_LOCK = true ∧ y.pantry ≠ pantryOpen
      ∧ ({ y with upd := { y.upd with asleep := true } } : Sys).upd.asleep = true ∧ y.pwr.standby = 0 ∧ (pow fun p => { p with standby := 3 }).pwr.standby ≠ 0)
    ∧ (let y := upd updRun pantryOpen [] []; y.pantry = pantryOpen ∧ y.on UPD_CTL_LOCK = false ∧ (2 ^ 32 - 1 : Nat).testBit 8 = true ∧ (y.put SYS_FUSE_OWNLOCK 1).on SYS_FUSE_OWNLOCK = true ∧ y.on UPD_CTL_PERPART = false)
    ∧ (let y := upd updWaitHost pantryEmpty [] []; y.get UPD_STAT_STATE = updWaitHost ∧ y.upd.opened = false ∧ y.pantry ≠ pantryOpen) := by decide +kernel

theorem witness_Activation_command : (let y := upd updWaitHost pantryVerified [] []
      y.mbxGate false = .open ∧ y.activateOk = true ∧ y.domUp 0 = true ∧ y.prog.active = false ∧ y.on UPD_CTL_PERPART = false ∧ y.completeSet.pantryPoisoned = false)
    ∧ (let y := (upd updWaitHost pantryOpen [] []).put UPD_CTL_PERPART 1; y.activateOk = true ∧ y.on UPD_CTL_PERPART = true ∧ y.prog.active = false ∧ y.missingPart = some 1) := by decide +kernel
/-- A set in force whose firmware is the pantry's: the two have no parts. -/
theorem witness_Activation_running : (let y := upd updRun pantryVerified [] []
    let y := { y with prog := { y.prog with active := true } }
    y.prog.active = true ∧ y.otherFirmware = false ∧ y.pfw = false ∧ y.pwr.standby = 0 ∧ y.upd.copying = false ∧ y.get MET_STAT_FE ≠ feFrozen
      ∧ (y.put PWR_VMON_PFW 1).pfw = true ∧ (y.put MET_STAT_FE feFrozen).get MET_STAT_FE = feFrozen) := by decide +kernel
theorem witness_Activation_steps : (let y := { cyc three with upd := { up.upd with activating := true, lastOld := 0 } }
      y.upd.activating = true ∧ y.upd.loaded = false ∧ y.ang.cycle = y.upd.lastOld ∧ y.ang.begun = true ∧ ({ y with vot := { y.vot with emitted := true } } : Sys).vot.emitted = true ∧ y.vot.restart = false ∧ y.dramUp = true ∧ (y.put MEM_STAT_DRAM dramFailed).dramUp = false ∧ y.pantryPoisoned = false
        ∧ ({ ((y.wr (pantryBase + 0x80) 4 1).wr (pantryBase + 0x84) 4 0x400).wr (pantryBase + 0x88) 4 32 with mi := { y.mi with poison := [pantryBase + 0x400] } } : Sys).pantryPoisoned = true ∧ y.votes 0 = true ∧ y.domUp 0 = true
        ∧ ({ y with upd := { y.upd with loaded := true } } : Sys).upd.loaded = true)
    ∧ (let y := (upd updRun pantryInUse [] []).put UPD_STAT_SRC 1
      y.on UPD_STAT_SRC = true ∧ y.upd.activating = false ∧ y.upd.announce = false ∧ y.pantry = pantryInUse ∧ y.upd.copying = false ∧ y.dramUp = true
        ∧ ({ y with upd := { y.upd with copying := true } } : Sys).upd.copying = true) := by decide +kernel

/-! ## The recorder and the management plane -/

/-- The recorder with posts, ready. -/
def evr (posts : List Post) : Sys := let y := (up.put EVR_STAT_READY 1).put UPD_STAT_FW 1; { y with posts := posts }
def slotAt (k seq locker : Nat) : RecSlot := ⟨k, seq, seq, locker, 1, true, false, seq⟩
theorem witness_EventRecorder_accept : (evr [⟨8, 0x0101, 0, 0⟩, ⟨2, 0x0B02, 3, 1⟩]).posts ≠ [] ∧ (evr [⟨8, 0x0101, 0, 0⟩]).domUp 0 = true ∧ (evr []).on EVR_STAT_READY = true ∧ up.on EVR_STAT_READY = false
    ∧ (evr []).ringNext = some 0 ∧ (evr []).on SYS_FSTAT_HOLD = false ∧ ((evr []).put SYS_FSTAT_HOLD 1).on SYS_FSTAT_HOLD = true ∧ (evr []).on SYS_FSTAT_FIRSTV = false
    ∧ ((evr []).put SYS_FSTAT_FIRSTV 1).on SYS_FSTAT_FIRSTV = true ∧ (∃ c, sevOf c = 3) ∧ (∃ c, sevOf c = 2) ∧ ∃ c, sevOf c < 2 := by
  refine ⟨by decide +kernel, by decide +kernel, by decide +kernel, by decide +kernel, by decide +kernel, by decide +kernel, by decide +kernel, by decide +kernel, by decide +kernel,
    ⟨0x0101, ?_⟩, ⟨0x0114, ?_⟩, ⟨0, ?_⟩⟩ <;> decide +kernel
theorem witness_EventRecorder_flush : (let y := evr []
      y.on EVR_STAT_CLEARING = false ∧ y.on EVR_STAT_FLUSHING = false ∧ y.askFlush.flushRuns = true ∧ y.flushRuns = false
        ∧ (y.put EVR_STAT_FLUSHING 1).flushRuns = true ∧ (y.put EVR_STAT_FLUSHING 1).on SYS_FSTAT_HOLD = false ∧ ((y.put EVR_STAT_FLUSHING 1).put SYS_FSTAT_HOLD 1).flushRuns = true
        ∧ (y.put EVR_STAT_CLEARING 1).askFlush.flushRuns = false)
    ∧ (let y := { (evr []).put EVR_STAT_FLUSHING 1 with fe := { up.fe with flushing := true }, loft := { up.loft with flushMarker := 1 } }
      y.flushRuns = true ∧ y.fe.flushing = true ∧ y.loft.flushMarker = 1)
    ∧ ((([slotAt 0 1 0, slotAt 2047 2 0] : List RecSlot).map RecSlot.slot).Pairwise (· < ·) ∧ ∀ r ∈ [slotAt 0 1 0, slotAt 2047 2 0], r.slot < 2048) := by decide +kernel
theorem witness_EventRecorder_scan : up.on UPD_STAT_FW = false ∧ (let y := up.put UPD_STAT_FW 1; y.on UPD_STAT_FW = true ∧ y.on EVR_STAT_READY = false ∧ y.domUp 0 = true) := by decide +kernel
/-- A cursor on locker 5 past record 1, with records 1 and 2 of the locker in the log. -/
def cursor (locker pos : Nat) : Sys :=
  let y := (((evr []).put (EVR_CBIND_VALID 7) 1).put (EVR_CBIND_LOCKER 7) locker).put (EVR_CBIND_WRITE 7) 1 |>.setWord (EVR_CPOS 7) pos |>.setWord EVR_SEQ 3
  { y with evr := { y.evr with log := [slotAt 0 1 5, slotAt 1 2 5] } }
theorem witness_EventRecorder_cursor : (let y := cursor 5 2
      y.on (EVR_CBIND_VALID 7) = true ∧ (slotAt 1 2 5, logSlot 1) ∈ y.visible ∧ (slotAt 1 2 5).locker = y.get (EVR_CBIND_LOCKER 7) ∧ y.word (EVR_CPOS 7) ≤ (slotAt 1 2 5).lseq)
    ∧ (let y := cursor 5 3; ∀ x ∈ y.visible, ¬ y.word (EVR_CPOS 7) ≤ x.1.lseq) ∧ up.on (EVR_CBIND_VALID 7) = false
    ∧ (let y := cursor 0 0
      y.on (EVR_CBIND_VALID 7) = true ∧ y.get (EVR_CBIND_LOCKER 7) = 0 ∧ y.on (EVR_CBIND_WRITE 7) = true ∧ 2 % 2 ^ 32 < y.word EVR_SEQ ∧ ¬ 3 % 2 ^ 32 < y.word EVR_SEQ ∧ y.pfw = false
        ∧ y.evr.clearing = none)
    ∧ (let y := cursor 0 0; let y := { y with evr := { y.evr with clearing := some 1 } }
      y.evr.clearing = some 1 ∧ y.domUp 0 = true ∧ y.pfw = false ∧ ((y.evr.log.map RecSlot.slot).Pairwise (· < ·))) := by decide +kernel
theorem witness_ManagementAndFaults : (0x5744 % 65536 = 0x5744 ∧ 0x5743 % 65536 ≠ 0x5744) ∧ up.mgt.watchdog = none
    ∧ ({ up with mgt := { up.mgt with watchdog := some 5 } } : Sys).mgt.watchdog ≠ none ∧ up.on SYS_FSTAT_HOLD = false ∧ (up.put SYS_FSTAT_HOLD 1).on SYS_FSTAT_HOLD = true
    ∧ up.on MGT_STAT_FWRUN = false ∧ (up.put MGT_STAT_FWRUN 1).on MGT_STAT_FWRUN = true ∧ up.domUp 0 = true ∧ 12 < 13 ∧ up.on PWR_OP_BUSY = false ∧ (up.put PWR_OP_BUSY 1).on PWR_OP_BUSY = true
    ∧ (let y := up.put MGT_STAT_FWRUN 1; y.mgt.running = none ∧ y.on MGT_STAT_FWRUN = true ∧ y.on SYS_FSTAT_HOLD = false ∧ y.on EVR_STAT_FLUSHING = false ∧ (evr []).on EVR_STAT_CLEARING = false)
    ∧ (∀ op ∈ [1, 2, 3], ({ up with mgt := { up.mgt with running := some op } } : Sys).mgt.running = some op)
    ∧ (let y := { up.put EVR_STAT_FLUSHING 1 with mgt := { up.mgt with running := some 3 } }; y.mgt.running = some 3 ∧ y.on EVR_STAT_FLUSHING = true) := by decide +kernel

/-! ## Single steps against the spec's worked examples -/

/-- Words 1, 5, 6 and 9 of the example of spec/05_logic_instruction_set.md: TMR.TOF W1, W0, #12; MOV.I32 W3, #2; LPWR.I32 L40.MREQ, W3; BR AL, 11. -/
theorem test_words : (wordOpc 0xA120000C, OpK.ofWord 0xA120000C) = (0x28, ⟨1, 1, 0, false, 12⟩) ∧ (wordOpc 0x11610002, OpR.ofWord 0x11610002 0) = (4, ⟨1, 3, 0, 1, 2, 0⟩)
    ∧ (wordOpc 0xD50C8028, OpK.ofWord 0xD50C8028) = (0x35, ⟨1, 0, 3, false, 4 * 8192 + 40⟩) ∧ (wordOpc 0x8400000B, OpJ.ofWord 0x8400000B) = (0x21, ⟨0, 0, false, 11⟩) := by decide
/-- The hold of that example: PT of 2,949,120,000 au, IN TRUE in the last cycle; the falling IN of cycle 10,000 sets START and W1 stays TRUE. -/
def held (now start flags : Nat) : Sys :=
  let y := (eng 12).lwr 0 (logicBase + 8) 4 1024
  ((y.lwr 0 0x200180 8 start).lwr 0 0x200188 8 0xAFC80000).lwr 0 0x200198 4 flags |>.lwr 0 0x530008 8 now
theorem test_tof_starts : (let z := after (.tmr 0 ⟨1, 1, 0, false, 12⟩) (held 655360000 0 3)
    (z.lrd 0 0x200180 8, z.w 0 1, (z.lane 0).engine.clocks)) = (655360000, 1, 12) := by decide +kernel
/-- At e = PT, in cycle 55,000, Q falls; a cycle before, it does not. -/
theorem test_tof_ends : ((after (.tmr 0 ⟨1, 1, 0, false, 12⟩) (held (655360000 + 2949120000) 655360000 6)).w 0 1,
    (after (.tmr 0 ⟨1, 1, 0, false, 12⟩) (held (655360000 + 2949054464) 655360000 6)).w 0 1) = (0, 1) := by decide +kernel
/-- The budgets of spec/04_cycle_engine.md at the default boundaries. -/
theorem test_budget : ∀ x ∈ [(0, 1057692), (1, 2115384), (2, 3173076), (3, 4230769)], budgetFits x.2 x.1 8192 53248 = true ∧ budgetFits (x.2 + 1) x.1 8192 53248 = false := by decide
theorem test_add_wraps : (let z := after (.add 0 (two 0)) (withW (eng 1) 32767 1); (z.w 0 0, (z.lane 0).engine.flags)) = (2 ^ 64 - 32768, ⟨false, true, false, true, false⟩) := by decide +kernel
theorem test_sub_borrows : (let z := after (.sub 0 (two 3)) (withW (eng 1) 0 1); (z.w 0 0, (z.lane 0).engine.flags)) = (2 ^ 64 - 1, ⟨false, true, true, false, false⟩) := by decide +kernel
theorem test_div_truncates : (after (.div 0 (two 1)) (withW (eng 18) (2 ^ 64 - 7) 2)).w 0 0 = 2 ^ 64 - 3 := by decide +kernel
theorem test_mod_sign : (after (.mod 0 (two 1)) (withW (eng 18) (2 ^ 64 - 7) 2)).w 0 0 = 2 ^ 64 - 1 := by decide +kernel
theorem test_sar_keeps_sign : (after (.sar 0 (two 0)) (withW (eng 1) 0x8000 4)).w 0 0 = 2 ^ 64 - 2048 := by decide +kernel
theorem test_real_add : (after (.add 0 (two 2)) (withW (eng 3) 0x3FC00000 0x40200000)).w 0 0 = 0x40800000 := by decide +kernel
theorem test_cvt_saturates : (let z := after (.cvt 0 ⟨0, 0, 1, 1, 1, 0⟩) (withW (eng 3) 40000 0); (z.w 0 0, (z.lane 0).engine.flags.v)) = (32767, true) := by decide +kernel
/-- Second 0 is a Saturday, 6 (R402); 981,000,000 s is day 11,354. -/
theorem test_cal_weekday : (weekdayOf 0, weekdayOf (981000000 / 86400)) = (6, 6) := by decide
/-- The purge alarm of spec/15_cellar_and_rtc.md: at 981,000,300 a SET to 981,002,300 passes two occurrences. -/
def purge : Sys :=
  let y := (((rtc fun r => { r with sec := 981000300, almr := 900, write := some ⟨RTC_CMD, 1, 981002300, 0⟩ }).put RTC_ALMST_ARMED 1).setWord RTC_ALMNEXT 981000900).setWord RTC_ALMLAST 981000000
  y
theorem test_purge_set : ((after .cellarWriteEffect purge).rtc.skipped, (after .cellarWriteEffect purge).rtc.sec) = (2, 981002300) := by decide +kernel
set_option maxRecDepth 100000 in
theorem test_purge_fires : (let z := after .alarmFire { purge with rtc := { purge.rtc with sec := 981002300, skipped := 2, skipLast := 981001800 } }
    (z.word RTC_ALMLAST, z.word RTC_ALMNEXT, z.get RTC_ALMST_SKIPCNT, z.on RTC_ALMST_SKIPPED)) = (981001800, 981002700, 2, true) := by decide +kernel
/-- Frame 3 of the receive ring of spec/11_ethernet_ports.md: 1,522 bytes, tagged, into three descriptors of 512 bytes from HEAD 1. -/
def shortRing : Sys :=
  let y := (((((rxRing 10).put (NET_RXCFG_BSZ 1) 16).put (NET_RXHEAD_IDX 1) 1).put (NET_CTL_PROMISC 1) 1))
  (List.range 16).foldl (fun y i => y.wr (0x80400000 + 32 * i) 4 (0x84000000 + 1024 * i)) y
def tagged : List Nat := List.replicate 12 2 ++ [0x81, 0x00] ++ List.replicate 1508 0
theorem test_rx_tagged : (let z := after (.netFrameReceived 1 ⟨tagged, 0⟩ false false 0) shortRing
    (z.get (NET_RXHEAD_IDX 1), (List.range 3).map (fun i => bits (z.rd (0x80400000 + 32 * (i + 1) + 4) 4) 0 11), z.rd (0x80400000 + 32 * 3 + 16) 4)) = (4, [512, 512, 494], 1518) := by
  decide +kernel
/-- 0x1306 packs INDEX into 4 bytes, KIND into 1 and LOCKER into 2 (R482). -/
theorem test_pack : pack [(0x11223344, 4), (5, 1), (0x177, 2)] = 0x01770511223344 := by decide
theorem test_sha256_abc : sha256 [0x61, 0x62, 0x63] = bytesBE 32 0xba7816bf8f01cfea414140de5dae2223b00361a396177a9cb410ff61f20015ad := by decide +kernel
theorem test_kick_refused : (after (.watchdogKick 0x5743) up).posts = [⟨8, 0x1605, 0, 0⟩] := by decide +kernel
theorem test_unmapped_read : (let z := after (.unmappedAccess .mgmt false 0x50000 0) up; (z.response.value, z.posts)) = (0, [⟨8, 0x0113, 0, 0⟩]) := by decide +kernel
theorem test_window_base_refused : ((after (.pciDwbWrite .mgmt 0x80000001) up).posts.map (·.code), (after (.pciDwbWrite .mgmt 0x84000001) up).on PCI_DWB_EN) = ([0x1701], true) := by decide +kernel
theorem test_semaphore_taken : ((after (.semaphoreAcquire .host 63) (owned none)).semaphore 63).owner = some (agentId .host) := by decide +kernel
theorem test_lane_removed : (let z := after (.laneRemoveCmd 1) (cyc three); (z.laneState 1, z.get (VOT_LSTAT_CAUSE 1), z.posts.head?)) = (laneReset, 6, some ⟨8, 0x1201, 0, 0x601⟩) := by decide +kernel
theorem test_can_receives : ((after (.canFrameReceived 7 (frame false)) ((can roleHost normal).put (DMA_CRTAIL_TAIL 7 0) 1)).canAt 7).fifo.length = 1 := by decide +kernel
theorem test_fuse_burned : (match exec (.fuseBurnDone 11) { st up with sys := { up with keys := { up.keys with burning := some (4, 8) } } } with
    | .next t => (fuseWord t.fuses 4, t.sys.laneState 0)
    | _ => (0, 0)) = (11, laneRetired) := by decide +kernel
set_option maxRecDepth 100000 in
theorem test_tamper_erases : (let z := after (.tamper 5) (rtc fun r => { r with root := 9 }); (z.rtc.root, z.get KEY_STAT_ROOT)) = (0, rootNone) := by decide +kernel
theorem test_standby_refused : (after (.standbyRequest .host) up).posts.map (·.code) = [0x0112] := by decide +kernel
/-- The loop of slot 212 of spec/06_loop_engine.md, before the pass of cycle 40,017. -/
def loopPar : LoopPar :=
  { base := 0, law := 1, pvPoint := 0, pvt := 2, reverse := true, donpv := false, schv := 0, csen := false, men := false, fbact := 0, nreg := 2,
    outPoint := 0, outt := 2, cslot := 0, pvlo := 0, pvhi := 0x42200000, outlo := 0, outhi := 0x42C80000, pvk := 0, pvb := 0, outk := 0, twin := 655,
    slew := 328, dfk := 8192, hyst := 410, fbout := 0, rt := 0, mgain := 0, me := 0, ma := 0, mb := 0, dlen := 0, dec := 1, rn := 1}
def loopRec : LoopRec :=
  { sp := 0x41900000, pv := 0, out := 0, mout := 0x42480000, trk := 0, ohi := 0x42C80000, olo := 0, mreq := 2, mode := 2, region := 0, stat := 0, int := 272999979, xprev := 1884,
    df := 236, h := [], uprev := 11252, ym := 0, resf := 0, badcnt := 0, dlix := 0, dcnt := 0 }
set_option maxRecDepth 100000 in
/-- PV is 20.6 °C: the schedule moves to region 1, INT is preloaded and stepped, DF is 239 and the output 11,633. -/
theorem test_loop_region : (let r := (loopPass loopPar { word := 0x41A4CCCD, qual := 0, master := 0, cascade := 0, coefs := [⟨0x199A6000, 0x030151EC, 0⟩, ⟨0x199A6000, 0x032251EC, 0x4000⟩], ranged := true } 212
      { r := loopRec, line := [], evs := [], sat := false, transfer := false, anchoring := false, sigPv := none, sigSp := none, sigE := none, sigT := none }).2.r
    (r.df, r.region, r.int, r.uprev)) = (239, 1, 165522394, 11633) := by decide +kernel

end Sys2Proof.Tests
end

section
/-!
PROOF. Scope (spec/00_scope.md): register writes, and the one that does more than R11 says. A change of CYC_CTL or CYC_FACT takes effect at the
next PHG (spec/04_cycle_engine.md), so the cycle's Compute jobs keep what the two held at PHG. The model takes that copy at the first write to
either register at or after PHG: the write changes the program record beside the register.
-/
namespace Sys2Proof.Proofs
open Sys2Proof Sys2Proof.Machine Sys2Proof.Laws

/-! ## Writes of the management core -/

/-- An aligned 32-bit write to a defined register whose domain answers reaches the register. -/
theorem exec_registerWrite_mgmt {s : State} {a v : Nat} (hin : inBlocks a = true) (hmap : blockMapped (regBlock a) = true)
    (halign : a % 4 = 0) (hreg : (regAt a).isNone = false) (hup : s.sys.peerUp (regDomain a) = true) (hv : v < 2 ^ 32) :
    exec (.registerWrite .mgmt a 4 v) s = .next (writeRegister .mgmt a v s) := by
  have hbus : busWrite .mgmt a 4 v s = writeRegister .mgmt a (v % 2 ^ 32) s := by
    simp [busWrite, regWrite, hin, hmap, halign, hreg, hup]
  calc exec (.registerWrite .mgmt a 4 v) s
      = .next (busWrite .mgmt a 4 v s) := rfl
    _ = .next (writeRegister .mgmt a v s) := by rw [hbus, Nat.mod_eq_of_lt hv]

/-- What `storeReg` does once it has looked the register up. The lookup is an argument: the kernel cannot unfold `storeReg` at an address that is
not a number, since `regAt` subtracts 0x40000000 from it. -/
def storeAs (s : Sys) (a : Nat) (v : Word) : Option RegDesc → Sys
  | none => s
  | some d =>
    let lk := s.locked a
    let old := s.reg a
    let s1 := s.setReg a (d.store lk old v)
    if lk && ((old ^^^ v) &&& BitVec.ofNat 32 d.rwl) != 0 then s1.note 0x0111 else s1

theorem storeReg_eq_storeAs (s : Sys) (a : Nat) (v : Word) : s.storeReg a v = storeAs s a v (regAt a) := rfl

theorem storeAs_prog (s : Sys) (a : Nat) (v : Word) (o : Option RegDesc) : (storeAs s a v o).prog = s.prog := by
  cases o with
  | none => rfl
  | some d => rw [storeAs, apply_ite Sys.prog, note_prog, setReg_prog, ite_self]

@[simp] theorem storeWord_prog (s : Sys) (a v : Nat) : (s.storeWord a v).prog = s.prog := by
  rw [Sys.storeWord, storeReg_eq_storeAs, storeAs_prog]

/-! ## The copy taken at PHG -/

/-- A program cycle runs, its PHG has come, and CYC_CTL and CYC_FACT are not yet held for its Compute jobs. -/
def LatchDue (s : Sys) : Prop :=
  s.prog.latched = false ∧ s.cycling = true ∧ s.ang.begun = true ∧ s.ang.start + s.ang.phg ≤ s.ang.time

theorem latchPhg_latched {s : Sys} (h : LatchDue s) : s.latchPhg.prog.latched = true := by
  obtain ⟨hfresh, hcycling, hbegun, hphg⟩ := h
  simp [Sys.latchPhg, hfresh, hcycling, hbegun, Nat.not_lt.mpr hphg]

theorem exec_write_cycCtl {s : State} {v : Nat} (hup : s.sys.peerUp (regDomain CYC_CTL) = true) (hv : v < 2 ^ 32) :
    exec (.registerWrite .mgmt CYC_CTL 4 v) s = .next { s with sys := s.sys.latchPhg.storeWord CYC_CTL v } :=
  exec_registerWrite_mgmt (by decide) (by decide) (by decide) (by decide) hup hv

/-- Every domain up, the fabric clock on and RUN set; the first program cycle, begun at TIME 0, is at its PHG. -/
def atPhg : State :=
  let y := ((State.reset.sys.setWord PWR_DOM 0x7FFF).put CLK_GATE_CTL 1).put ANG_CTL_RUN 1
  { State.reset with sys :=
    { y with
      ang := { y.ang with time := y.ang.phg, requested := true, begun := true }
      prog := { y.prog with active := true } } }

theorem atPhg_latchDue : LatchDue atPhg.sys := by
  unfold LatchDue
  decide +kernel

theorem atPhg_up : atPhg.sys.peerUp (regDomain CYC_CTL) = true ∧ atPhg.sys.domUp 0 = true := by decide +kernel

/-- Refutes O6: in `atPhg` a write of 0 to CYC_CTL also marks the cycle's copy of CYC_CTL and CYC_FACT as taken, in the program record, which the
statement's frame keeps. -/
theorem not_registerWriteByAccessType : ¬ Obligations.RegisterWriteByAccessType := by
  unfold Obligations.RegisterWriteByAccessType
  rintro ⟨hwrite, -⟩
  obtain ⟨hctl, hmgt⟩ := atPhg_up
  obtain ⟨d, hd⟩ : ∃ d, regAt CYC_CTL = some d := Option.isSome_iff_exists.mp (by decide)
  obtain ⟨t, ht, -, -, -, -, -, hkeep, -⟩ := hwrite atPhg CYC_CTL 0 d (by simp) hd hctl hmgt (by decide)
  have hsame : t.sys.prog = atPhg.sys.prog := hkeep .program (by decide)
  have hnext : { atPhg with sys := atPhg.sys.latchPhg.storeWord CYC_CTL 0 } = t :=
    Host.Outcome.next.inj ((exec_write_cycCtl hctl (by decide)).symm.trans ht)
  have hlatched : t.sys.prog.latched = true := by
    rw [← hnext, storeWord_prog]
    exact latchPhg_latched atPhg_latchDue
  have hfresh : atPhg.sys.prog.latched = false := atPhg_latchDue.1
  rw [hsame, hfresh] at hlatched
  exact Bool.false_ne_true hlatched

end Sys2Proof.Proofs
end

section
/-!
PROOF. Host requests through BAR2 (spec/01_architecture.md): what they do while the DRAM window is closed.
-/
namespace Sys2Proof.Proofs
open Sys2Proof Sys2Proof.Machine Sys2Proof.Laws

/-! ## Answers of bytes -/

@[simp] theorem answerBytes_response_bytes (s : Sys) (bs : List Nat) : (s.answerBytes bs).response.bytes = bs := rfl

theorem keeps_answerBytes {ps : List Part} {w : Nat → Bool} {s t : Sys} {bs : List Nat} (h : Part.response ∈ ps)
    (k : SysKeeps ps w s t) : SysKeeps ps w s (t.answerBytes bs) := by
  refine keeps_of_regs (f := fun x => x.answerBytes bs) (answerBytes_regs t bs) (fun p hp => ?_) k
  cases p
  case response => exact absurd h hp
  all_goals rfl

/-! ## Requests through BAR2 -/

theorem exec_hostDramWindowAccess (write : Bool) (off len : Nat) (bytes : List Nat) (s : State) :
    exec (.hostDramWindowAccess write off len bytes) s = .next { s with sys := s.sys.bar2 write off len bytes } := rfl

theorem bar2_read_closed {s : Sys} {off len : Nat} {bytes : List Nat} (hclosed : s.on PCI_DWB_EN = false)
    (hin : off + len ≤ 0x4000000) : s.bar2 false off len bytes = s.answerBytes (List.replicate len 0) := by
  simp [Sys.bar2, Nat.not_lt.mpr hin, hclosed]

theorem bar2_write_closed {s : Sys} {off len : Nat} {bytes : List Nat} (hclosed : s.on PCI_DWB_EN = false)
    (hin : off + bytes.length ≤ 0x4000000) : s.bar2 true off len bytes = s := by
  simp [Sys.bar2, Nat.not_lt.mpr hin, hclosed]

/-- Settles O9: inside the BAR a closed window answers a read with zeros, which replaces the response alone, and a write leaves the part as it
was (R33). -/
theorem dramWindowClosed : Obligations.DramWindowClosed := by
  unfold Obligations.DramWindowClosed
  intro s off len bytes hclosed
  constructor
  · intro hin
    rw [exec_hostDramWindowAccess, bar2_read_closed hclosed hin]
    exact ⟨_, rfl, answerBytes_response_bytes _ _,
      run_keeps (·.answerBytes (List.replicate len 0)) (keeps_answerBytes (List.mem_singleton_self _) keeps_refl)⟩
  · intro hin
    rw [exec_hostDramWindowAccess, bar2_write_closed hclosed hin]

end Sys2Proof.Proofs
end

section
/-!
PROOF. The logic instruction set (spec/05_logic_instruction_set.md): integer division by 0 (R146) and the edge records (R117, R158).
-/
namespace Sys2Proof.Proofs
open Sys2Proof Sys2Proof.Machine Sys2Proof.Laws

/-! ## An instruction that runs -/

/-- A body that answers no class ends the instruction. -/
theorem insn_of_body {s t : Sys} {n : Fin 4} {cost ext : Nat} {legal : Bool} {body : Sys → Sys × Nat} (hrun : s.canRun n cost ext)
    (hlegal : legal = true) (hbody : body (s.modEngine n fun e => e.past cost ext) = (t, 0)) :
    s.insn n cost ext legal body = t := by
  rw [insn_go s n cost ext legal body hrun hlegal, hbody, if_pos rfl]

/-- A class that the body answers is raised at the instruction's own offset, over what the body left. -/
theorem insn_of_body_fault {s t : Sys} {n : Fin 4} {cost ext cls : Nat} {legal : Bool} {body : Sys → Sys × Nat}
    (hrun : s.canRun n cost ext) (hlegal : legal = true) (hcls : cls ≠ 0)
    (hbody : body (s.modEngine n fun e => e.past cost ext) = (t, cls)) :
    s.insn n cost ext legal body = t.raise n cls (4 * (s.lane n).engine.pc) := by
  rw [insn_go s n cost ext legal body hrun hlegal, hbody, if_neg hcls]

/-! ## Division by 0 (R146) -/

theorem notReal_iff {t : Nat} : notReal t = true ↔ t = 0 ∨ t = 1 ∨ t = 3 := by
  simp [notReal, or_assoc]

theorem aluDiv_eq_divByZero {t a b : Nat} (ht : t ≠ 2) (hb : b % 2 ^ typeWidth t = 0) : aluDiv t a b = divByZero := by
  simp only [aluDiv, if_neg ht, if_pos hb]

theorem aluMod_eq_divByZero {t a b : Nat} (hb : b % 2 ^ typeWidth t = 0) : aluMod t a b = divByZero := by
  simp only [aluMod, if_pos hb]

theorem byType_of_ne_real {t : Nat} (ht : t ≠ 2) (a b c d : Nat) :
    byType t a b c d = if t = 0 then a else if t = 1 then b else d := by
  simp only [byType, if_neg ht]

theorem insn_divByZero {s : Sys} {n : Fin 4} {d : Fin 8} {cost ext : Nat} {legal : Bool} {body : Sys → Sys × Nat}
    (hrun : s.canRun n cost ext) (hlegal : legal = true)
    (hbody : body (s.modEngine n fun e => e.past cost ext) = (s.modEngine n fun e => e.past cost ext).writeAlu n d divByZero) :
    s.insn n cost ext legal body =
      (s.modEngine n fun e => ((e.past cost ext).give d 0).setFlags ⟨true, false, false, true, false⟩).raise n 1
        (4 * (s.lane n).engine.pc) :=
  insn_of_body_fault hrun hlegal Nat.one_ne_zero (hbody.trans (writeAlu_past ..))

theorem exec_div (n : Fin 4) (o : OpR) (s : State) : exec (.div n o) s = .next { s with sys := s.sys.divI n o } := rfl

theorem exec_mod (n : Fin 4) (o : OpR) (s : State) : exec (.mod n o) s = .next { s with sys := s.sys.modI n o } := rfl

/-- Settles O14: with b = 0 both operations compute `divByZero`, at the charge of an integer division. -/
theorem divisionByZero : Obligations.DivisionByZero := by
  unfold Obligations.DivisionByZero
  intro s n o ht htwo cost done hb hrun
  have hreal : o.t ≠ 2 := by omega
  have hint : notReal o.t = true := notReal_iff.mpr ht
  constructor
  · have hdiv : s.sys.divI n o = done.sys.raise n 1 (4 * (s.sys.lane n).engine.pc) := by
      rw [Sys.divI, byType_of_ne_real hreal]
      exact insn_divByZero hrun htwo (by rw [opB_past, aluDiv_eq_divByZero hreal hb])
    rw [exec_div, hdiv]
    rfl
  · have hmod : s.sys.modI n o = done.sys.raise n 1 (4 * (s.sys.lane n).engine.pc) := by
      rw [Sys.modI, hint, costFor, if_pos rfl, byType_of_ne_real hreal]
      exact insn_divByZero hrun htwo (by rw [opB_past, aluMod_eq_divByZero hb])
    rw [exec_mod, hmod]
    rfl

/-! ## Edge records (R117, R158) -/

theorem flagBit_self {word k : Nat} {b : Bool} (h : word.testBit k = b) : flagBit word k b = word := if_pos h

/-- Either way an evaluation leaves NEW clear and the input in M; it reports an edge only where NEW was clear. -/
theorem edgeStep_eq (rising inp : Bool) (word : Nat) :
    edgeStep rising inp word =
      (!word.testBit 1 && (if rising then inp && !word.testBit 0 else !inp && word.testBit 0),
        flagBit (flagBit word 1 false) 0 inp) := by
  unfold edgeStep
  cases hnew : word.testBit 1 with
  | true => rfl
  | false => simp [flagBit_self hnew]

theorem edge_past {s : Sys} {n : Fin 4} {o : OpK} (rising : Bool) (cost ext : Nat) (hin : s.recOk n 4 o.ref = true) :
    Sys.edge n o rising (s.modEngine n fun e => e.past cost ext) =
      ((s.lwr n (varBase + 4 * o.ref) 4 (edgeStep rising (truth (s.w n o.a)) (s.lrd n (varBase + 4 * o.ref) 4)).2).modEngine n
        fun e => (e.past cost ext).give o.d
          (if (edgeStep rising (truth (s.w n o.a)) (s.lrd n (varBase + 4 * o.ref) 4)).1 then 1 else 0), 0) := by
  simp only [Sys.edge, recOk_modEngine, hin, if_true, w_past, lrd_modEngine, lwr_modEngine, writeD_past]

theorem exec_redg (n : Fin 4) (o : OpK) (s : State) : exec (.redg n o) s = .next { s with sys := s.sys.redg n o } := rfl

theorem exec_fedg (n : Fin 4) (o : OpK) (s : State) : exec (.fedg n o) s = .next { s with sys := s.sys.fedg n o } := rfl

/-- Settles O22: both instructions are one evaluation of the edge record, REDG of a rising and FEDG of a falling edge. -/
theorem edgeInstructions : Obligations.EdgeInstructions := by
  unfold Obligations.EdgeInstructions
  intro s n o ht hres hin hrun a w m new inp word left
  have hlegal : (o.t == 1 && !o.reserved) = true := by simp [ht, hres]
  have hedge (rising : Bool) : s.sys.insn n 3 0 (o.t == 1 && !o.reserved) (Sys.edge n o rising) =
      (s.sys.lwr n a 4 word).modEngine n fun e =>
        (e.past 3 0).give o.d (if !new && (if rising then inp && !m else !inp && m) then 1 else 0) := by
    refine insn_of_body hrun hlegal ?_
    rw [edge_past rising 3 0 (decide_eq_true hin), edgeStep_eq]
    rfl
  refine ⟨⟨_, exec_redg n o s, ?_⟩, ⟨_, exec_fedg n o s, ?_⟩⟩
  · simpa only [left, Sys.redg, Bool.and_assoc, if_true] using hedge true
  · simpa only [left, Sys.fedg, Bool.and_assoc, Bool.false_eq_true, if_false] using hedge false

end Sys2Proof.Proofs
end

section
/-!
PROOF. The semaphores (spec/12_dma_arbiter_semaphores.md): what a read of ARB_SEMO0 answers. The model computes EVR_CSTAT of cursor c afresh at
each read and finds c by the distance from cursor 0, without a bound at the 8 cursors there are. ARB_SEMO0 lies where cursor 1088 would keep its
EVR_CSTAT and ARB_SEMH0 where it would keep its EVR_CBIND, so ARB_SEMO0 is read as the posts that such a cursor lost.
-/
namespace Sys2Proof.Proofs
open Sys2Proof Sys2Proof.Machine Sys2Proof.Laws

/-! ## Reads of the management core -/

/-- An aligned 32-bit read of a mapped block whose domain answers reaches the block. -/
theorem exec_rcRegisterRead_mgmt {s : State} {a : Nat} (hin : inBlocks a = true) (hmap : blockMapped (regBlock a) = true)
    (halign : a % 4 = 0) (hup : s.sys.peerUp (regDomain a) = true) :
    exec (.rcRegisterRead .mgmt a 4) s = .next { s with sys := s.sys.readBlock .mgmt a } := by
  have hbus : s.sys.busRead .mgmt a 4 = s.sys.readBlock .mgmt a := by
    simp [Sys.busRead, Sys.regRead, hin, hmap, halign, hup]
  calc exec (.rcRegisterRead .mgmt a 4) s
      = .next { s with sys := s.sys.busRead .mgmt a 4 } := rfl
    _ = .next { s with sys := s.sys.readBlock .mgmt a } := by rw [hbus]

/-- What `plainRead` does once it has looked the register up; the lookup is an argument for the reason given at `storeAs`. -/
def plainReadAs (s : Sys) (who : Agent) (a : Nat) : Option RegDesc → Sys
  | none => s.answer 0
  | some d =>
    let v := (s.gathered who a).getD (s.reg a &&& ~~~ BitVec.ofNat 32 d.wo).toNat
    (s.clearRead a d.rc).answer v

theorem plainRead_eq_plainReadAs (s : Sys) (who : Agent) (a : Nat) : s.plainRead who a = plainReadAs s who a (regAt a) := rfl

/-- A defined register that is gathered from its block's state answers that, whatever its own word holds. -/
theorem plainRead_value_of_gathered {s : Sys} {who : Agent} {a v : Nat} (hreg : (regAt a).isSome = true)
    (hgather : s.gathered who a = some v) : (s.plainRead who a).response.value = v % 2 ^ 32 := by
  obtain ⟨d, hd⟩ := Option.isSome_iff_exists.mp hreg
  rw [plainRead_eq_plainReadAs, hd, plainReadAs, hgather]
  rfl

/-! ## The read of ARB_SEMO0 -/

theorem semo0_eq_cstat : ARB_SEMO 0 = EVR_CSTAT 1088 := rfl

theorem gathered_semo0 (s : Sys) (who : Agent) : s.gathered who (ARB_SEMO 0) = some (s.cursorLost 1088) := by
  have hindex : ixOf (EVR_CBIND 0) 0x40 (EVR_CSTAT 1088) = 1088 := by decide
  rw [semo0_eq_cstat]
  simp +decide [Sys.gathered, hindex]

theorem readBlock_semo0 (s : Sys) : s.readBlock .mgmt (ARB_SEMO 0) = s.plainRead .mgmt (ARB_SEMO 0) := rfl

theorem cursorLost_of_unbound {s : Sys} {c : Nat} (h : s.on (EVR_CBIND_VALID c) = false) : s.cursorLost c = 0 := by
  simp [Sys.cursorLost, h]

/-- While the bit at VALID of EVR_CBIND1088, the held bit of semaphore 31, is clear, ARB_SEMO0 reads 0 whatever semaphores are marked. -/
theorem read_semo0_value {s t : State} (hup : s.sys.peerUp (regDomain (ARB_SEMO 0)) = true)
    (hfree : s.sys.on (EVR_CBIND_VALID 1088) = false) (hread : exec (.rcRegisterRead .mgmt (ARB_SEMO 0) 4) s = .next t) :
    t.sys.response.value = 0 := by
  have hnext : { s with sys := s.sys.plainRead .mgmt (ARB_SEMO 0) } = t := by
    rw [exec_rcRegisterRead_mgmt (by decide) (by decide) (by decide) hup, readBlock_semo0] at hread
    exact Host.Outcome.next.inj hread
  rw [← hnext]
  calc (s.sys.plainRead .mgmt (ARB_SEMO 0)).response.value
      = s.sys.cursorLost 1088 % 2 ^ 32 := plainRead_value_of_gathered (by decide) (gathered_semo0 ..)
    _ = 0 := by rw [cursorLost_of_unbound hfree, Nat.zero_mod]

/-- Every domain up; the host has taken semaphore 0 and its RESET sideband has asserted since, which marked it (R348). -/
def orphanedFirst : State :=
  { State.reset with sys := ((State.reset.sys.setWord PWR_DOM 0x7FFF).semAcquire .host 0).sideband (agentId .host) true true }

theorem orphanedFirst_up : orphanedFirst.sys.peerUp (regDomain (ARB_SEMH 0)) = true ∧ orphanedFirst.sys.peerUp (regDomain (ARB_SEMO 0)) = true := by
  decide +kernel

/-- Semaphore 0 stands marked in ARB_SEMO0, and semaphore 31 is free. -/
theorem orphanedFirst_word : orphanedFirst.sys.word (ARB_SEMO 0) = 1 ∧ orphanedFirst.sys.on (EVR_CBIND_VALID 1088) = false := by
  decide +kernel

/-- Refutes O48: in `orphanedFirst` ARB_SEMO0 holds the mark of semaphore 0, and its read answers 0. -/
theorem not_semaphores : ¬ Obligations.Semaphores := by
  unfold Obligations.Semaphores
  intro h
  obtain ⟨-, -, -, -, hshown⟩ := h orphanedFirst .mgmt 0
  obtain ⟨hupHeld, hupMarked⟩ := orphanedFirst_up
  obtain ⟨-, t, hread, hvalue, -⟩ := hshown 0 (by decide) hupHeld
  obtain ⟨hmarked, hfree⟩ := orphanedFirst_word
  have hzero : t.sys.response.value = 0 := read_semo0_value hupMarked hfree hread
  rw [hzero, hmarked] at hvalue
  exact absurd hvalue Nat.zero_ne_one

end Sys2Proof.Proofs
end

section
/-!
PROOF. The fuses (spec/16_keys_tamper_lockers.md): a blown bit never returns to 0 (R415). Every command changes the part alone, but for the
burn that ends (R416), the owner's message (R423), the floor raised after an activation (R444), and the register writes that give one of these.
-/
namespace Sys2Proof.Proofs
open Sys2Proof Sys2Proof.Machine Sys2Proof.Laws

/-! ## Tables by key -/

theorem lookupD_putKey_same {α : Type} (d : α) (m : List (Nat × α)) (k : Nat) (v : α) : lookupD d (putKey m k v) k = v := by
  simp [lookupD, putKey]

theorem lookupD_putKey_of_ne {α : Type} (d : α) (m : List (Nat × α)) {j k : Nat} (v : α) (h : j ≠ k) :
    lookupD d (putKey m k v) j = lookupD d m j := by
  have hfind : (putKey m k v).find? (fun c => c.1 == j) = m.find? fun c => c.1 == j := by
    rw [putKey, List.find?_cons_of_neg (by simpa using h.symm), List.find?_filter]
    refine congrArg (m.find? ·) (funext fun c => ?_)
    by_cases hc : c.1 = j <;> simp [hc, h]
  rw [lookupD, hfind, lookupD]

/-! ## Words that are blown -/

theorem fuseWord_lt (f : List (Nat × Nat)) (w : Nat) : fuseWord f w < 2 ^ 32 := Nat.mod_lt _ (by decide)

theorem fuseWord_blow_same (f : List (Nat × Nat)) (w b : Nat) : fuseWord (blow f w b) w = fuseWord f w ||| b % 2 ^ 32 := by
  have hlt : fuseWord f w ||| b % 2 ^ 32 < 2 ^ 32 := Nat.or_lt_two_pow (fuseWord_lt f w) (Nat.mod_lt _ (by decide))
  calc fuseWord (blow f w b) w
      = (fuseWord f w ||| b % 2 ^ 32) % 2 ^ 32 := by rw [blow, fuseWord, lookupD_putKey_same]
    _ = fuseWord f w ||| b % 2 ^ 32 := Nat.mod_eq_of_lt hlt

theorem fuseWord_blow_of_ne (f : List (Nat × Nat)) {j w : Nat} (b : Nat) (h : j ≠ w) : fuseWord (blow f w b) j = fuseWord f j := by
  rw [blow, fuseWord, lookupD_putKey_of_ne _ _ _ h, fuseWord]

/-! ## Blown bits that stay -/

theorem fusesGrow_refl (f : List (Nat × Nat)) : FusesGrow f f := fun _ _ h => h

theorem fusesGrow_trans {f g h : List (Nat × Nat)} (hfg : FusesGrow f g) (hgh : FusesGrow g h) : FusesGrow f h :=
  fun w b hb => hgh w b (hfg w b hb)

theorem fusesGrow_blow (f : List (Nat × Nat)) (w b : Nat) : FusesGrow f (blow f w b) := by
  intro j k hk
  unfold blown at hk ⊢
  by_cases hj : j = w
  · rw [hj] at hk ⊢
    rw [fuseWord_blow_same, Nat.testBit_or, hk, Bool.true_or]
  · rwa [fuseWord_blow_of_ne f b hj]

theorem fusesGrow_foldl {α : Type} {g : List (Nat × Nat) → α → List (Nat × Nat)} (hg : ∀ f x, FusesGrow f (g f x)) (xs : List α)
    (f : List (Nat × Nat)) : FusesGrow f (xs.foldl g f) := by
  induction xs generalizing f with
  | nil => exact fusesGrow_refl f
  | cons x xs ih => exact fusesGrow_trans (hg f x) (ih (g f x))

theorem fusesGrow_ite {f g h : List (Nat × Nat)} {c : Prop} [Decidable c] (hg : FusesGrow f g) (hh : FusesGrow f h) :
    FusesGrow f (if c then g else h) := by
  split
  · exact hg
  · exact hh

/-- A command with a choice keeps the blown bits when each of its branches does. -/
theorem fusesGrow_iteState {f : List (Nat × Nat)} {t u : State} {c : Prop} [Decidable c] (ht : FusesGrow f t.fuses)
    (hu : FusesGrow f u.fuses) : FusesGrow f (if c then t else u).fuses := by
  rw [apply_ite State.fuses]
  exact fusesGrow_ite ht hu

/-- A burn keeps the blown bits also where the part was changed before it. -/
theorem fusesGrow_after {s t : State} {m : State → State} (hm : ∀ u, FusesGrow u.fuses (m u).fuses) (h : t.fuses = s.fuses) :
    FusesGrow s.fuses (m t).fuses := h ▸ hm t

/-! ## The three burns -/

theorem fuseBurnDone_grows (s : State) (readBack : Nat) : FusesGrow s.fuses (fuseBurnDone s readBack).fuses := by
  unfold fuseBurnDone
  split
  · exact fusesGrow_refl _
  · exact fusesGrow_blow _ _ _

theorem ownerFuses_grows (f : List (Nat × Nat)) (e : Nat) (m : OwnerMsg) : FusesGrow f (ownerFuses f e m) := by
  have hepoch : FusesGrow f (if m.enrols then blow f (5 + e / 32) (2 ^ (e % 32)) else f) :=
    fusesGrow_ite (fusesGrow_blow _ _ _) (fusesGrow_refl f)
  have hhash := fusesGrow_foldl fun g i => fusesGrow_blow g (16 + i) (numLE (((sha256 m.pub).drop (4 * i)).take 4))
  exact fusesGrow_ite (fusesGrow_trans hepoch (fusesGrow_trans (hhash (List.range 8) _) (fusesGrow_blow _ _ _))) hepoch

theorem ownerMessage_grows (s : State) : FusesGrow s.fuses (ownerMessage s).fuses := by
  dsimp only [ownerMessage]
  split
  · exact fusesGrow_iteState (ownerFuses_grows _ _ _) (fusesGrow_refl _)
  · exact fusesGrow_refl _

theorem raiseFloor_grows (s : State) : FusesGrow s.fuses (raiseFloor s).fuses := by
  have hblow (count : Nat) (f : List (Nat × Nat)) (k : Nat) :
      FusesGrow f (if count ≤ k then blow f (24 + k / 32) (2 ^ (k % 32)) else f) :=
    fusesGrow_ite (fusesGrow_blow _ _ _) (fusesGrow_refl f)
  exact fusesGrow_iteState (fusesGrow_refl _) (fusesGrow_iteState (fusesGrow_refl _) (fusesGrow_foldl (hblow _) _ _))

/-! ## The commands that come to one -/

theorem larderCopyDone_grows (s : State) : FusesGrow s.fuses (larderCopyDone s).fuses :=
  fusesGrow_iteState (fusesGrow_refl _) (fusesGrow_iteState (fusesGrow_refl _) (fusesGrow_after raiseFloor_grows rfl))

theorem mailboxRun_grows (op : Nat) (temp : Int) (s : State) : FusesGrow s.fuses (mailboxRun op temp s).fuses :=
  fusesGrow_iteState (ownerMessage_grows s) (fusesGrow_refl _)

theorem commandDone_grows (s : State) : FusesGrow s.fuses (commandDone s).fuses := by
  dsimp only [commandDone]
  split
  · exact fusesGrow_refl _
  · have hactivate {t : State} {ended floor : Prop} [Decidable ended] [Decidable floor] (ht : t.fuses = s.fuses) :
        FusesGrow s.fuses (if ended then s else if floor then raiseFloor t else t).fuses :=
      fusesGrow_iteState (fusesGrow_refl _) (fusesGrow_iteState (fusesGrow_after raiseFloor_grows ht) (ht ▸ fusesGrow_refl _))
    exact fusesGrow_iteState (fusesGrow_refl _) (fusesGrow_iteState (hactivate rfl) (fusesGrow_refl _))

theorem mailboxCommandDone_grows (s : State) : FusesGrow s.fuses (mailboxCommandDone s).fuses := by
  refine fusesGrow_iteState (fusesGrow_iteState (commandDone_grows s) (fusesGrow_refl _)) (fusesGrow_iteState (fusesGrow_refl _) ?_)
  refine fusesGrow_trans ?_ (commandDone_grows _)
  exact fusesGrow_after (mailboxRun_grows _ _) rfl

theorem updCommand_grows (who : Agent) (v : Nat) (s : State) : FusesGrow s.fuses (updCommand who v s).fuses :=
  fusesGrow_iteState (fusesGrow_refl _) (fusesGrow_iteState (fusesGrow_after (mailboxRun_grows _ _) rfl) (fusesGrow_after (mailboxRun_grows _ _) rfl))

theorem writeRegister_grows (who : Agent) (a v : Nat) (s : State) : FusesGrow s.fuses (writeRegister who a v s).fuses :=
  fusesGrow_iteState (updCommand_grows who v s) (fusesGrow_refl _)

theorem regWrite_grows (who : Agent) (a size v : Nat) (s : State) : FusesGrow s.fuses (regWrite who a size v s).fuses := by
  have hkept {c : Prop} [Decidable c] {y : Sys} {u : State} (hu : FusesGrow s.fuses u.fuses) :
      FusesGrow s.fuses (if c then { s with sys := y } else u).fuses := fusesGrow_iteState (fusesGrow_refl _) hu
  exact hkept (hkept (hkept (hkept (hkept (hkept (writeRegister_grows _ _ _ _))))))

theorem busWrite_grows (who : Agent) (a size v : Nat) (s : State) : FusesGrow s.fuses (busWrite who a size v s).fuses :=
  fusesGrow_iteState (regWrite_grows _ _ _ _ _) (fusesGrow_iteState (fusesGrow_refl _) (fusesGrow_refl _))

/-! ## Steps and runs -/

/-- A command of the last case is a `run`: it changes the part alone. -/
theorem exec_grows (c : Instr) (s : State) : ∃ t, exec c s = .next t ∧ FusesGrow s.fuses t.fuses := by
  cases c with
  | registerWrite who a size v => exact ⟨_, rfl, busWrite_grows _ _ _ _ _⟩
  | hostBlockedAccess _ a v => exact ⟨_, rfl, fusesGrow_iteState (busWrite_grows _ _ _ _ _) (fusesGrow_refl _)⟩
  | unmappedAccess who _ a v => exact ⟨_, rfl, fusesGrow_iteState (busWrite_grows _ _ _ _ _) (fusesGrow_refl _)⟩
  | pciDwbWrite who v => exact ⟨_, rfl, regWrite_grows _ _ _ _ _⟩
  | fuseBurnDone readBack => exact ⟨_, rfl, fuseBurnDone_grows s readBack⟩
  | owner who => exact ⟨_, rfl, fusesGrow_after ownerMessage_grows rfl⟩
  | larderCopyDone => exact ⟨_, rfl, larderCopyDone_grows s⟩
  | mailboxCommandDone => exact ⟨_, rfl, mailboxCommandDone_grows s⟩
  | _ => exact ⟨_, rfl, fusesGrow_refl _⟩

theorem step_grows {s t : State} (h : step s = .next t) : FusesGrow s.fuses t.fuses := by
  unfold step at h
  split at h
  · obtain rfl := Host.Outcome.next.inj h
    exact fusesGrow_refl _
  · rename_i c rest _
    obtain ⟨u, hexec, hgrow⟩ := exec_grows c { s with pending := rest }
    obtain rfl := Host.Outcome.next.inj (hexec.symm.trans h)
    exact hgrow

theorem reaches_grows {s t : State} (h : Reaches s t) : FusesGrow s.fuses t.fuses := by
  induction h with
  | here => exact fusesGrow_refl _
  | more _ hstep ih => exact fusesGrow_trans ih (step_grows hstep)

/-- Settles O3: a step only ever blows fuses, and a run is steps (R415). -/
theorem blownFusesStayBlown : Obligations.BlownFusesStayBlown := by
  unfold Obligations.BlownFusesStayBlown
  exact ⟨fun _ _ => step_grows, fun _ _ => reaches_grows⟩

end Sys2Proof.Proofs
end
